-- ==== Sys2Proof/Word.lean ====
section
/-! DEFINITION. Words, index types and the plainest arithmetic on them (spec 00_scope "The building model",
11_frame R178). -/

namespace Sys2Proof

/-- One byte of a frame or of a page. -/
abbrev Byte := BitVec 8

/-- A floor position 0 to 127 (00_scope, "Floors"). -/
abbrev Floor := Fin 128

/-- A bank 0 to 3, the letters A to D (00_scope, "Banks, cars and hall names"). Bank `b` has car line CL`b`. -/
abbrev Bank := Fin 4

/-- A car number 0 to 7 within its bank. -/
abbrev CarNo := Fin 8

/-- A Reader Port RP0 to RP15. -/
abbrev PortNo := Fin 16

/-- A badge number as carried in frames and records (R3). -/
abbrev Badge := BitVec 32

/-- A time on the part clock: tenths of a second, modulo 2^32 (00_scope, "Time"). -/
abbrev Clock := BitVec 32

/-- A floor set: floor `f` is bit `f` (R178), so that equal sets are equal words. -/
abbrev FloorSet := BitVec 128

/-- A bank set, bank `b` at bit `b` (R178). -/
abbrev BankSet := BitVec 4

/-- A car set, car `c` at bit `c` (R178). -/
abbrev CarSet := BitVec 8

/-- The set that holds one floor. -/
def FloorSet.single (f : Floor) : FloorSet := BitVec.ofNat 128 (2 ^ f.val)

/-- Membership of a floor. -/
abbrev FloorSet.has (s : FloorSet) (f : Floor) : Bool := s.getLsbD f.val

/-- Membership of a bank. -/
abbrev BankSet.has (s : BankSet) (b : Bank) : Bool := s.getLsbD b.val

/-- Membership of a car number. -/
abbrev CarSet.has (s : CarSet) (c : CarNo) : Bool := s.getLsbD c.val

/-- The difference of two times on the part clock, modulo 2^32 (00_scope, "Time"). -/
abbrev elapsed (now since : Clock) : Nat := (now - since).toNat

end Sys2Proof
end

