-- ==== Sys2Proof/Config.lean ====
section
/-! DEFINITION. What the part's design fixes (00_scope "Features at a glance") and the values the spec leaves
open, as constants with no body. -/

namespace Sys2Proof

/-- Pages of the store: 0 to 2111 (R1). -/
def Config.pages : Nat := 2112

/-- Pages of the credential area: 0 to 2047 (01, "Page geometry"). -/
def Config.credentialPages : Nat := 2048

/-- Bytes in a page (R1). -/
def Config.pageBytes : Nat := 512

/-- Entries of the Booking Table (R79). -/
def Config.maxBookings : Nat := 512

/-- Entries of the Ticket Table (R118). -/
def Config.maxTickets : Nat := 256

/-- Places of the Report Queue (R176). -/
def Config.maxReports : Nat := 32

/-- Projected stops of one car (R82, R103). -/
def Config.maxStops : Nat := 24

/-- The greatest value of an included lane (R102). -/
def Config.laneMax : Nat := 65534

/-- The lane value EXCLUDED (R102). -/
def Config.excluded : Nat := 65535

/-- The greatest write stamp (R1). -/
def Config.maxStamp : Nat := 4294967294

/-- OPEN VALUE (log 6). The byte at a store address after the `n`-th program that a reset interrupted or that
ended in a verify mismatch: "the page holds whatever the interrupted erase or program left" (R13). -/
opaque Config.freeByte : Nat → Nat → Byte

/-- OPEN VALUE (log 7). At the `n`-th start: are the scan's STORE_FAULT reports posted before the RECALL_INPUT
reports? "Either group may be posted first" (R168). -/
opaque Config.storeFaultsFirst : Nat → Bool

end Sys2Proof
end

