-- ==== Sys2Proof/Syntax.lean ====
section
/-! DEFINITION. The commands of the part: one constructor for each row of spec/opcode_table.json, in the table's
order. Operands are the raw fields of the frame that completes (R180 to R182), in the frame's order, or the pin,
port, line or car that the event concerns. Every host request carries its tag first (R162). -/

namespace Sys2Proof

/-- The commands: requests, frames, pin edges, timer ends, completions and last bytes sent. -/
inductive Instr where
  /-- RESET_PIN (R168): the RESET pin is asserted. -/
  | resetPin
  /-- RESET_PIN_RELEASE (R17): the RESET pin is released and the scan begins. -/
  | resetPinRelease
  /-- START_UP_SCAN_END (R21): page 2111 has been judged and loaded. -/
  | startUpScanEnd
  /-- SET_CLOCK (R36). `pendingType` is 255 when absent. -/
  | setClock (tag : Byte) (day : BitVec 16) (weekday : Byte) (minute : BitVec 16) (second dayType pendingType : Byte)
  /-- SET_NEXT_DAY (R37). -/
  | setNextDay (tag dayType : Byte)
  /-- LOAD_SITE (R34): the ticket life in seconds. -/
  | loadSite (tag : Byte) (life : BitVec 16)
  /-- LOAD_FLOOR (R27): floor, three label characters, kind, state, served-bank set. -/
  | loadFloor (tag floor label0 label1 label2 kind state banks : Byte)
  /-- LOAD_BANK (R30): bank, then the bank slot's fields from car count to recall floor. -/
  | loadBank (tag bank carCount capacity floorTime : Byte) (stopTime : BitVec 16) (loadBias tripCap : Byte)
      (maxWait : BitVec 16) (contactTime fullThreshold recallFloor : Byte)
  /-- LOAD_READER (R32): reader, enabled flag, home floor, bank set, kind, hold time. -/
  | loadReader (tag reader enabled home banks kind holdTime : Byte)
  /-- LOAD_GROUP (R23): group, floor set, profile, flags (ENABLED bit 0, OVERRIDE bit 1). -/
  | loadGroup (tag : Byte) (group : BitVec 16) (floors : FloorSet) (profile flags : Byte)
  /-- LOAD_PROFILE (R24): profile and its interval words; the interval count is the list's length. -/
  | loadProfile (tag profile : Byte) (intervals : List (BitVec 32))
  /-- LOAD_TENANT (R26): tenant, floor set, state. -/
  | loadTenant (tag tenant : Byte) (floors : FloorSet) (state : Byte)
  /-- ENROLL (R4, R7): the fields of R3; the two counts are the lists' lengths. -/
  | enroll (tag : Byte) (badge : Badge) (state tenant units : Byte) (groups : List Byte) (defaultFloor : Byte)
      (personal : List Byte) (validFrom : BitVec 16) (hasUntil : Byte) (validUntil : BitVec 16)
  /-- REVOKE (R8). -/
  | revoke (tag : Byte) (badge : Badge)
  /-- SET_BADGE_STATE (R9). -/
  | setBadgeState (tag : Byte) (badge : Badge) (state : Byte)
  /-- ERASE_PAGE (R16). -/
  | erasePage (tag : Byte) (page : BitVec 16)
  /-- SET_BANK_MODE (R150). -/
  | setBankMode (tag bank mode : Byte)
  /-- SET_CAR_SERVICE (R160): action WITHDRAW or RESTORE. -/
  | setCarService (tag bank car action : Byte)
  /-- SET_FLOOR_STATE (R29). -/
  | setFloorState (tag floor state : Byte)
  /-- SET_REPORTS (R177): bit `k` for kind code `k`. -/
  | setReports (tag : Byte) (kinds : BitVec 16)
  /-- QUERY_BADGE (R169). -/
  | queryBadge (tag : Byte) (badge : Badge)
  /-- QUERY_CAR (R170). -/
  | queryCar (tag bank car : Byte)
  /-- QUERY_BOOKINGS (R171). -/
  | queryBookings (tag bank car start : Byte)
  /-- QUERY_PART (R172). -/
  | queryPart (tag : Byte)
  /-- RESTART (R167). -/
  | restart (tag : Byte)
  /-- UNDEFINED_REQUEST_TYPE (R162): a good frame whose type is none of 1 to 22. -/
  | undefinedRequestType (type tag : Byte)
  /-- HOST_PARTIAL_FRAME_TIMEOUT (R162): these bytes arrive on the host line, then more than 10 ms pass. -/
  | hostPartialFrameTimeout (bytes : List Byte)
  /-- VERIFY_MATCH (R14): the page program completes and every byte read back equals the image. -/
  | verifyMatch
  /-- VERIFY_MISMATCH (R15): the page program completes and some byte differs. -/
  | verifyMismatch
  /-- RECALL_INPUT_ASSERTED (R158). -/
  | recallInputAsserted (bank : Bank)
  /-- RECALL_INPUT_DEASSERTED (R157). -/
  | recallInputDeasserted (bank : Bank)
  /-- LRQ_ASSERTED (R146). -/
  | lrqAsserted (line : Bank)
  /-- LRQ_DEASSERTED (R147). -/
  | lrqDeasserted (line : Bank)
  /-- PRESENT (R50): badge, requested floor byte (255 absent), declared kind. -/
  | present (port : PortNo) (badge : Badge) (floor kind : Byte)
  /-- PING (R50). -/
  | ping (port : PortNo)
  /-- READER_PARTIAL_FRAME_TIMEOUT (R43): these bytes arrive on the port's line, then more than 5 ms pass. -/
  | readerPartialFrameTimeout (port : PortNo) (bytes : List Byte)
  /-- REPLY_SHIFTER_DONE (R48): the port's shifter sends the last byte of its answer. -/
  | replyShifterDone (port : PortNo)
  /-- PRESENTATION_TAKING (R61). -/
  | presentationTaking
  /-- DECISION_MOMENT (R62). -/
  | decisionMoment
  /-- TRANSACTION_CHOICE (R141). -/
  | transactionChoice (line : Bank)
  /-- SWEEP_DUE (R142): 100 ms after the line's last sweep start. -/
  | sweepDue (line : Bank)
  /-- COMMAND_SENT (R130): the command frame reads back clean to its last byte. -/
  | commandSent (line : Bank)
  /-- READBACK_MISMATCH (R137). -/
  | readbackMismatch (line : Bank)
  /-- BACKOFF_END (R137). -/
  | backoffEnd (line : Bank)
  /-- FAULT_END (R138). -/
  | faultEnd (line : Bank)
  /-- STATUS (R132): the answer's address and the body of R182; the car-call count is the list's length. -/
  | status (line : Bank) (address position direction motion doors carMode load freshness held accepted : Byte)
      (calls : List Byte)
  /-- HOLD (R133), with the answer's address. -/
  | hold (line : Bank) (address : Byte)
  /-- RESEND (R134), with the answer's address. -/
  | resend (line : Bank) (address : Byte)
  /-- RESEND_PAUSE_END (R134). -/
  | resendPauseEnd (line : Bank)
  /-- ANSWER_WINDOW_EXPIRY (R131). -/
  | answerWindowExpiry (line : Bank)
  /-- ANSWER_BYTE_TIMEOUT (R131): these bytes are heard, then more than 1 ms passes. -/
  | answerByteTimeout (line : Bank) (bytes : List Byte)
  /-- BAD_ANSWER (R131): these bytes are heard; the answer they complete is bad. -/
  | badAnswer (line : Bank) (bytes : List Byte)
  /-- CONTACT_TIMER (R96), the comparison of one car. -/
  | contactTimer (bank : Bank) (car : CarNo)
  /-- ABANDON_TIMER (R97), the comparison of every WAITING booking. -/
  | abandonTimer
  /-- TICKET_EXPIRY (R124), the comparison of every ticket. -/
  | ticketExpiry
  /-- CALENDAR_SECOND_ADVANCE (R35). -/
  | calendarSecondAdvance
  /-- REPLY_SENT (R164): the last byte of the reply is sent. -/
  | replySent
  /-- BUSY_REPLY_SENT (R166). -/
  | busyReplySent
  /-- REPORT_SENT (R174). -/
  | reportSent
  /-- REPORT_STOP_IDLE_END (R175): the 12 ms idle after a stopped report ends. -/
  | reportStopIdleEnd
  deriving DecidableEq, Repr

end Sys2Proof
end

