-- ==== Sys2Proof/Decode.lean ====
section
/-! DEFINITION. The command that a word spells by the bits of spec/opcode_table.json. -/

namespace Sys2Proof

/-- No row of the table gives bits ("fields": [] and no "fixed" in each of the 60), so no word spells a command
(log 35). Frames are read byte by byte in Machine/Operands.lean and Machine/Ports.lean, not here. -/
def decodeTableWord (_nbits _w : Nat) : Option Instr := none

end Sys2Proof
end

