-- ==== Sys2Proof/Machine/State.lean ====
section
/-! DEFINITION. The state of the part as plain data, every piece with the rule that names it, and the state right
after an assertion of the RESET pin. -/

namespace Sys2Proof.Machine

/-! ### Names of states, kinds and codes (the codes themselves are in Operands.lean, R178) -/

/-- Part state (R168). -/
inductive PartState where
  | starting | running
  deriving DecidableEq, Repr, Inhabited

/-- What caused the latest reset (R168, the STARTED report). -/
inductive ResetCause where
  | pin | restart
  deriving DecidableEq, Repr, Inhabited

/-- Badge state (R3). -/
inductive BadgeState where
  | active | suspended | lost
  deriving DecidableEq, Repr, Inhabited

/-- Day type (00_scope, "Time"). -/
inductive DayType where
  | workday | saturday | sunday | holiday
  deriving DecidableEq, Repr, Inhabited

/-- Floor kind (00_scope, "Floors"). -/
inductive FloorKind where
  | ordinary | lobby | skyLobby | amenity
  deriving DecidableEq, Repr, Inhabited

/-- Floor state OPEN or CLOSED. -/
inductive FloorState where
  | isOpen | isClosed
  deriving DecidableEq, Repr, Inhabited

/-- Tenant state (R26). -/
inductive TenantState where
  | normal | locked
  deriving DecidableEq, Repr, Inhabited

/-- Reader kind (R32). -/
inductive ReaderKind where
  | kiosk | gate
  deriving DecidableEq, Repr, Inhabited

/-- Bank mode (09, R149). -/
inductive BankMode where
  | out | normal | upPeak | lockdown | fireRecall
  deriving DecidableEq, Repr, Inhabited

/-- Direction of a trip or of a stop (00_scope, "Directions"). A reported direction is `Option Dir`, NONE being
`none`. -/
inductive Dir where
  | up | down
  deriving DecidableEq, Repr, Inhabited

/-- Service state of a car (R80). -/
inductive Service where
  | absent | inService | carHeld | outOfContact | frozen | withdrawn | recalled
  deriving DecidableEq, Repr, Inhabited

/-- Reported motion (R80). -/
inductive Motion where
  | stopped | moving
  deriving DecidableEq, Repr, Inhabited

/-- Reported doors (R80). -/
inductive Doors where
  | closed | opening | opened | closing
  deriving DecidableEq, Repr, Inhabited

/-- Reported car mode (R80). -/
inductive CarMode where
  | normal | independent | inspection | fire
  deriving DecidableEq, Repr, Inhabited

/-- Booking state (R79). -/
inductive BookingState where
  | waiting | riding
  deriving DecidableEq, Repr, Inhabited

/-- A booking's place in a journey (R79). -/
inductive Leg where
  | direct | firstLeg | secondLeg
  deriving DecidableEq, Repr, Inhabited

/-- Reason of a cancellation (R87). -/
inductive CancelReason where
  | abandoned | floorClosed | noCar | bankOut | recalled | superseded
  deriving DecidableEq, Repr, Inhabited

/-- DENY reason, in the order of the deny reason table (04; R178). -/
inductive DenyReason where
  | unknown | storeFault | lost | suspended | expired | tenantLocked | noDestination | sameFloor | floorClosed
  | notPermitted | noRoute | emergency | lockdown | noService | full | noCar | badRequest
  deriving DecidableEq, Repr, Inhabited

/-- Reply status (R165). -/
inductive ReplyStatus where
  | done | busy | badValue | noSuch | noRoom | bankActive | inputAsserted | storeFault
  deriving DecidableEq, Repr, Inhabited

/-- Report class (R173). -/
inductive ReportClass where
  | routine | urgent
  deriving DecidableEq, Repr, Inhabited

/-- Car line state (R128). -/
inductive LineState where
  | idle | sending | awaiting | backoff | released | fault
  deriving DecidableEq, Repr, Inhabited

/-- Reader Port state (R46). -/
inductive PortState where
  | disabled | idle | pending | deferred | answering
  deriving DecidableEq, Repr, Inhabited

/-- Transaction kind (R128). -/
inductive CommandKind where
  | poll | stopset | recallCar
  deriving DecidableEq, Repr, Inhabited

/-- Source of a transaction (R128). -/
inductive Source where
  | delivery | sweep
  deriving DecidableEq, Repr, Inhabited

/-! ### Records of the store and of the Policy Tables -/

/-- A floor's label of three characters (R27). -/
structure Label where
  c0 : Byte
  c1 : Byte
  c2 : Byte
  deriving DecidableEq, Repr, Inhabited

/-- A credential record (R3), as R4 leaves it. -/
structure Credential where
  badge : Badge
  state : BadgeState
  tenant : Fin 128
  units : Nat
  groups : List Byte
  defaultFloor : Option Floor
  personal : List Floor
  validFrom : BitVec 16
  validUntil : Option (BitVec 16)
  deriving DecidableEq, Repr, Inhabited

/-- A group (R23). -/
structure Group where
  floors : FloorSet
  profile : Fin 64
  enabled : Bool
  override : Bool
  deriving DecidableEq, Repr, Inhabited

/-- One interval of a profile (R24): day-type set, start minute, end minute. -/
structure Interval where
  days : BitVec 4
  start : Nat
  stop : Nat
  deriving DecidableEq, Repr, Inhabited

/-- A tenant (R26). -/
structure Tenant where
  floors : FloorSet
  state : TenantState
  deriving DecidableEq, Repr, Inhabited

/-- A floor's working copy (R27). -/
structure FloorRec where
  label : Label
  kind : FloorKind
  state : FloorState
  banks : BankSet
  deriving DecidableEq, Repr, Inhabited

/-- A bank's working copy (R30, R149, R159). Times FT and ST in ds, max wait and contact time in seconds. -/
structure BankRec where
  carCount : Nat
  capacity : Nat
  floorTime : Nat
  stopTime : Nat
  loadBias : Nat
  tripCap : Nat
  maxWait : Nat
  contactTime : Nat
  fullThreshold : Nat
  recallFloor : Floor
  withdrawn : CarSet
  storedMode : BankMode
  deriving DecidableEq, Repr, Inhabited

/-- A reader's working copy (R32). Hold time in seconds. -/
structure ReaderRec where
  enabled : Bool
  home : Floor
  banks : BankSet
  kind : ReaderKind
  holdTime : Nat
  deriving DecidableEq, Repr, Inhabited

/-- The Policy Tables' working copies (R22). -/
structure Policy where
  groups : Vector Group 256
  profiles : Vector (List Interval) 64
  tenants : Vector Tenant 128
  floors : Vector FloorRec 128
  banks : Vector BankRec 4
  readers : Vector ReaderRec 16
  ticketLife : Nat
  deriving DecidableEq, Repr

/-- What the request of a page program changes at a verify match (R7 to R9, R11, R12, R16, R29, R151, R161). -/
inductive Job where
  /-- ENROLL, REVOKE, SET-BADGE-STATE: the page's content is all. -/
  | credential
  | group (n : Fin 256) (g : Group)
  | profile (n : Fin 64) (p : List Interval)
  | tenant (n : Fin 128) (t : Tenant)
  | floor (f : Floor) (r : FloorRec)
  | bank (b : Bank) (r : BankRec)
  | reader (p : PortNo) (r : ReaderRec)
  | site (life : Nat)
  | bankMode (b : Bank) (m : BankMode)
  | carService (b : Bank) (c : CarNo) (withdraw : Bool)
  | erase
  deriving DecidableEq, Repr

/-- A program in flight (R13): page, image, kind (ERASE or WRITE) and what the request changes. -/
structure Program where
  page : Nat
  image : List Byte
  erase : Bool
  job : Job
  deriving DecidableEq, Repr

/-- The Credential Store (01). -/
structure StoreBlock where
  /-- The nonvolatile bytes (R1, R179), canonical: rising addresses, no byte 255. -/
  cells : List Host.Cell
  /-- The page-state list (R2): absent before the scan, else the BAD pages in rising order. -/
  badPages : Option (List Nat)
  /-- Slots (page, slot) whose bytes hold a record and which the scan made free (R19). -/
  freed : List (Nat × Nat)
  /-- The count of credential slots in use on GOOD pages (R2). -/
  slotsInUse : Nat
  /-- The write stamp counter (R13, R18); absent before the scan (R17). -/
  stamp : Option Nat
  /-- The page programmer: IDLE or one program IN_FLIGHT (R13). -/
  programmer : Option Program
  deriving DecidableEq, Repr

/-- The calendar (R35). -/
structure Calendar where
  isSet : Bool
  day : BitVec 16
  weekday : Fin 7
  minute : Fin 1440
  second : Fin 60
  dayType : DayType
  pendingType : Option DayType
  /-- The part clock at the last second advance, or at the SET-CLOCK that set it. -/
  lastAdvance : Clock
  deriving DecidableEq, Repr, Inhabited

/-! ### Reader Ports and Authorization Engine -/

/-- A presentation (R46, R51). -/
structure Presentation where
  port : PortNo
  badge : Badge
  floor : Option Floor
  supersedes : Option Nat
  arrival : Clock
  deriving DecidableEq, Repr, Inhabited

/-- A filled presentation slot: the presentation and its taken mark (R46). -/
structure Slot where
  pres : Presentation
  taken : Bool
  deriving DecidableEq, Repr, Inhabited

/-- An answer of a port (R45). In a GRANT, `transfer` is the transfer floor's label when TRANSFER is set. -/
inductive Answer where
  | grant (bank : Bank) (car : CarNo) (label : Label) (isRepeat : Bool) (transfer : Option Label)
  | deny (reason : DenyReason)
  | retry
  | pong (part : PartState)
  deriving DecidableEq, Repr, Inhabited

/-- Last-grant memory (R52). -/
structure GrantMemory where
  badge : Badge
  booking : Nat
  dest : Floor
  time : Clock
  bank : Bank
  car : CarNo
  transfer : Option Floor
  deriving DecidableEq, Repr, Inhabited

/-- One Reader Port (R46). -/
structure Port where
  state : PortState
  slot : Option Slot
  shifter : Option Answer
  buffer : Option Answer
  memory : Option GrantMemory
  /-- The reload mark (R59): the held state, `true` for IDLE, `false` for DISABLED. -/
  reload : Option Bool
  /-- The bytes of a frame not yet complete (R43). -/
  rx : List Byte
  deriving DecidableEq, Repr, Inhabited

/-- The Authorization Engine (R60); IDLE exactly when nothing is in hand. -/
structure Engine where
  inHand : Option Presentation
  /-- Home floor and bank set of the port taken. -/
  entryCopy : Option (Floor × BankSet)
  pointer : PortNo
  deriving DecidableEq, Repr, Inhabited

/-! ### Dispatch Engine -/

/-- A booking (R79). Its direction is computed from origin and destination. -/
structure Booking where
  id : Nat
  serial : BitVec 32
  badge : Badge
  port : PortNo
  bank : Bank
  car : CarNo
  origin : Floor
  dest : Floor
  units : Nat
  state : BookingState
  leg : Leg
  created : Clock
  deriving DecidableEq, Repr, Inhabited

/-- A transfer ticket (R118). -/
structure Ticket where
  badge : Badge
  transfer : Floor
  dest : Floor
  firstBank : Bank
  onward : BankSet
  firstLeg : Option Nat
  expiry : Clock
  deriving DecidableEq, Repr, Inhabited

/-- The key of a stop-list entry or of a pending drop (R81). -/
structure Key where
  floor : Floor
  dir : Dir
  deriving DecidableEq, Repr, Inhabited

/-- A stop-list entry with its three duties (R81). -/
structure Stop where
  key : Key
  pickup : Bool
  drop : Bool
  call : Bool
  deriving DecidableEq, Repr, Inhabited

/-- Last reported status (R80), as R89 takes it. -/
structure Status where
  position : Floor
  direction : Option Dir
  motion : Motion
  doors : Doors
  carMode : CarMode
  load : Nat
  accepted : Option Byte
  fresh : Bool
  calls : List Floor
  deriving DecidableEq, Repr, Inhabited

/-- A car record (R80). Committed units and pending drops are computed from the bookings (R80, R81). -/
structure Car where
  service : Service
  status : Option Status
  age : Option Clock
  stale : Nat
  planned : Option Dir
  stops : List Stop
  enabled : FloorSet
  gen : Byte
  confirmed : Option Byte
  recallDue : Bool
  full : Bool
  deriving DecidableEq, Repr, Inhabited

/-- The Dispatch Engine: Booking Table, serial counter, Ticket Table, Car Table and the modes in force. -/
structure DispatchBlock where
  bookings : List Booking
  serial : BitVec 32
  tickets : List Ticket
  /-- Indexed by the car index, bank × 8 + car. -/
  cars : Vector Car 32
  /-- The mode in force (R149); none while STARTING. -/
  modes : Vector (Option BankMode) 4
  deriving DecidableEq, Repr

/-! ### Car Line Controllers -/

/-- A command's body as built (R129, R143). -/
inductive CommandBody where
  | poll
  | stopset (gen : Byte) (entries : List Key) (enabled : FloorSet)
  | recallTo (floor : Floor)
  deriving DecidableEq, Repr, Inhabited

/-- A transaction in hand (R128). -/
structure Transaction where
  kind : CommandKind
  car : CarNo
  frame : CommandBody
  source : Source
  attempt : Nat
  holds : Nat
  resends : Nat
  deriving DecidableEq, Repr, Inhabited

/-- One Car Line Controller (R128). -/
structure Line where
  state : LineState
  inHand : Option Transaction
  queue : List CarNo
  sweep : Option Nat
  lastSweep : Option Nat
  history : List CommandKind
  mismatches : Nat
  faultMark : Bool
  /-- AWAITING, pausing before a resend (R134), not listening. -/
  pausing : Bool
  /-- The bytes heard of an answer in progress (R131). -/
  rx : List Byte
  /-- The line's own count of milliseconds. -/
  time : Nat
  /-- The end, on that count, of the answer window, resend pause, BACKOFF or FAULT running. -/
  ends : Option Nat
  deriving DecidableEq, Repr, Inhabited

/-! ### Host Message Port -/

/-- The fields of a report's body (R21, R50, R77, R78, R87, R95, R124, R138, R146, R152, R157, R168), in the
order of the posting rule. The constructor is the report's kind. -/
inductive ReportBody where
  | started (cause : ResetCause) (calendarSet : Bool) (badCredential badPolicy : Nat)
  | storeFault (page : Nat) (verify : Bool)
  | grant (port : PortNo) (badge : Badge) (booking : Nat) (bank : Bank) (car : CarNo) (origin dest : Floor)
      (leg : Leg) (transfer : Option Floor) (cancelled : Option Nat)
  | deny (port : PortNo) (badge : Badge) (reason : DenyReason) (floor dest : Option Floor)
  | bookingCancelled (booking : Nat) (badge : Badge) (port : PortNo) (bank : Bank) (car : CarNo)
      (origin dest : Floor) (leg : Leg) (state : BookingState) (reason : CancelReason)
  | carService (bank : Bank) (car : CarNo) (old new : Service)
  | lineState (line : Bank) (old new : LineState)
  | bankMode (bank : Bank) (old new : BankMode) (byInput : Bool) (bookings tickets : Nat)
  | recallInput (bank : Bank) (asserted : Bool)
  | ticketExpired (badge : Badge) (transfer dest : Floor) (firstLeg : Option Nat)
  deriving DecidableEq, Repr, Inhabited

/-- A report (R173). -/
structure Report where
  cls : ReportClass
  clock : Clock
  body : ReportBody
  gap : Bool
  deriving DecidableEq, Repr, Inhabited

/-- The body of a QUERY-BADGE reply (R169). -/
structure BadgeView where
  record : Credential
  page : Nat
  slot : Nat
  permitted : FloorSet
  override : Bool
  ticket : Option Ticket
  deriving DecidableEq, Repr

/-- The body of a QUERY-CAR reply (R170). -/
structure CarView where
  car : Car
  pendingDrops : List Key
  committed : Nat
  queuePlace : Option Nat
  deriving DecidableEq, Repr

/-- The body of a QUERY-PART reply (R172). -/
structure PartView where
  part : PartState
  clock : Clock
  calendar : Calendar
  slotsInUse : Nat
  badCredential : Nat
  badPolicy : Nat
  bookings : Nat
  tickets : Nat
  reports : Nat
  enables : BitVec 10
  /-- For each bank: mode in force, working copy, recall input level. -/
  banks : List (Option BankMode × BankRec × Bool)
  /-- For each line: line state, fault mark, cars in the dirty queue, LRQ level. -/
  lines : List (LineState × Bool × Nat × Bool)
  deriving DecidableEq, Repr

/-- The body of a reply (R165): empty, but for DONE replies to queries. -/
inductive ReplyBody where
  | empty
  | badge (v : BadgeView)
  | car (v : CarView)
  | bookings (total : Nat) (listed : List Booking)
  | part (v : PartView)
  deriving DecidableEq, Repr

/-- A reply (R165). -/
structure Reply where
  type : Byte
  tag : Byte
  status : ReplyStatus
  body : ReplyBody
  deriving DecidableEq, Repr

/-- Request state (R164). -/
inductive RequestState where
  | idle
  | executing (type tag : Byte)
  | replying (r : Reply)
  deriving DecidableEq, Repr

/-- What the transmitter does (R166, R174, R175). The report being sent is the oldest of its class in the queue. -/
inductive Transmitter where
  | free
  | sendingReply
  | sendingBusy
  | sendingReport (cls : ReportClass)
  /-- The 12 ms idle after a stopped report. -/
  | stopIdle
  deriving DecidableEq, Repr, Inhabited

/-- The Host Message Port (10). -/
structure HostPort where
  rx : List Byte
  request : RequestState
  owedBusy : Option (Byte × Byte)
  tx : Transmitter
  /-- The Report Queue in the order of joining. -/
  queue : List Report
  gap : Bool
  enables : BitVec 10
  deriving DecidableEq, Repr

/-! ### The whole state -/

/-- Part state, RESET pin, scan, cause of the latest reset and part clock (R17, R168). -/
structure Part where
  state : PartState
  resetPin : Bool
  scanning : Bool
  cause : ResetCause
  clock : Clock
  deriving DecidableEq, Repr, Inhabited

/-- Levels of the inputs, `true` for ASSERTED (R157, R146). -/
structure Pins where
  rcl : Vector Bool 4
  lrq : Vector Bool 4
  deriving DecidableEq, Repr

/-- The state of the part, the queue of waiting commands (the model's) and the number of open values used so far
(the model's, log 29). -/
structure State where
  pending : List Instr
  part : Part
  pins : Pins
  store : StoreBlock
  policy : Policy
  calendar : Calendar
  ports : Vector Port 16
  engine : Engine
  disp : DispatchBlock
  lines : Vector Line 4
  host : HostPort
  freeCount : Nat
  deriving DecidableEq, Repr

/-- Faults. The spec gives the part no stop, so no command raises one. -/
inductive Fault where
  /-- Raised by no command; kept because the interface asks for the type. Safe. -/
  | noStop
  deriving DecidableEq, Repr

/-- Refusals. -/
inductive Refusal where
  /-- Raised by `exec` for a command without a meaning yet. Safe. -/
  | notModelled (mnemonic : String)
  deriving DecidableEq, Repr

/-! ### Reset values -/

/-- Erased default of a group (R20). -/
def Group.erased : Group := { floors := 0, profile := 0, enabled := false, override := false }

/-- Erased default of a tenant (R20). -/
def Tenant.erased : Tenant := { floors := 0, state := .normal }

/-- Erased default of a floor (R20): label "---". -/
def FloorRec.erased : FloorRec :=
  { label := { c0 := 45, c1 := 45, c2 := 45 }, kind := .ordinary, state := .isClosed, banks := 0 }

/-- Erased default of a bank (R20). -/
def BankRec.erased : BankRec :=
  { carCount := 1, capacity := 16, floorTime := 15, stopTime := 80, loadBias := 10, tripCap := 4, maxWait := 300,
    contactTime := 3, fullThreshold := 90, recallFloor := 0, withdrawn := 0, storedMode := .out }

/-- Erased default of a reader (R20). -/
def ReaderRec.erased : ReaderRec := { enabled := false, home := 0, banks := 0, kind := .kiosk, holdTime := 8 }

/-- Every working copy at its erased default (R17, R20). -/
def Policy.erased : Policy :=
  { groups := Vector.replicate 256 Group.erased, profiles := Vector.replicate 64 [],
    tenants := Vector.replicate 128 Tenant.erased, floors := Vector.replicate 128 FloorRec.erased,
    banks := Vector.replicate 4 BankRec.erased, readers := Vector.replicate 16 ReaderRec.erased, ticketLife := 600 }

/-- The calendar after reset (R35). -/
def Calendar.reset : Calendar :=
  { isSet := false, day := 0, weekday := 0, minute := 0, second := 0, dayType := .workday, pendingType := none,
    lastAdvance := 0 }

/-- A Reader Port after reset (R46). R46 does not list the receiver; it is left hunting, its partial frame empty (DESIGN
CHOICE, log 37). -/
def Port.reset : Port :=
  { state := .idle, slot := none, shifter := none, buffer := none, memory := none, reload := none, rx := [] }

/-- The Authorization Engine after reset (R60). -/
def Engine.reset : Engine := { inHand := none, entryCopy := none, pointer := 15 }

/-- A car record after reset (R80): ABSENT while STARTING. -/
def Car.reset : Car :=
  { service := .absent, status := none, age := none, stale := 0, planned := none, stops := [], enabled := 0, gen := 0,
    confirmed := none, recallDue := false, full := false }

/-- The Dispatch Engine after reset (R79, R80, R118, R149). -/
def DispatchBlock.reset : DispatchBlock :=
  { bookings := [], serial := 0, tickets := [], cars := Vector.replicate 32 Car.reset,
    modes := Vector.replicate 4 none }

/-- A Car Line Controller while STARTING: no transaction, not driving (R128; DESIGN CHOICE log 21). -/
def Line.reset : Line :=
  { state := .idle, inHand := none, queue := [], sweep := none, lastSweep := none, history := [], mismatches := 0,
    faultMark := false, pausing := false, rx := [], time := 0, ends := none }

/-- The report enables after reset: every kind but GRANT, kind code 2 (R177, R178). -/
def HostPort.resetEnables : BitVec 10 := 0b1111111011

/-- The Host Message Port after reset (R164, R166, R173, R176, R177), its receiver hunting (DESIGN CHOICE, log 37). -/
def HostPort.reset : HostPort :=
  { rx := [], request := .idle, owedBusy := none, tx := .free, queue := [], gap := false,
    enables := HostPort.resetEnables }

/-- The store at the start of the scan, over the bytes it holds (R17). -/
def StoreBlock.unscanned (cells : List Host.Cell) : StoreBlock :=
  { cells := cells, badPages := none, freed := [], slotsInUse := 0, stamp := none, programmer := none }

/-- The state right after an assertion of the RESET pin (R168), over an erased store (DESIGN CHOICE log 11) and
deasserted inputs (DESIGN CHOICE log 5). -/
def State.reset : State :=
  { pending := [],
    part := { state := .starting, resetPin := true, scanning := false, cause := .pin, clock := 0 },
    pins := { rcl := Vector.replicate 4 false, lrq := Vector.replicate 4 false },
    store := StoreBlock.unscanned [],
    policy := Policy.erased,
    calendar := Calendar.reset,
    ports := Vector.replicate 16 Port.reset,
    engine := Engine.reset,
    disp := DispatchBlock.reset,
    lines := Vector.replicate 4 Line.reset,
    host := HostPort.reset,
    freeCount := 0 }

end Sys2Proof.Machine
end

