-- ==== Sys2Proof/Machine/Operands.lean ====
section
/-! DEFINITION. The encodings of 11_frame_and_record_formats (R178 to R182): codes, numbers and sets, the slots of
the store, the checks and clampings that a record passes wherever it is read, and the request frames. -/

namespace Sys2Proof.Machine

/-! ### Numbers and lists of bytes -/

/-- A number from its bytes, least significant byte first (R178). -/
def leNat : List Byte → Nat
  | [] => 0
  | b :: bs => b.toNat + 256 * leNat bs

/-- The `k` bytes of a number, least significant first (R178). -/
def toLE : Nat → Nat → List Byte
  | 0, _ => []
  | k + 1, n => BitVec.ofNat 8 n :: toLE k (n / 256)

/-- A number in one byte. -/
def byte (n : Nat) : Byte := BitVec.ofNat 8 n

/-- Byte `i`, 255 beyond the end. -/
def byteAt (bs : List Byte) (i : Nat) : Byte := bs.getD i 255

/-- The `n` bytes from place `i`. -/
def bytesAt (bs : List Byte) (i n : Nat) : List Byte := (bs.drop i).take n

/-- The byte sum (R1, R178). -/
def byteSum : List Byte → Nat
  | [] => 0
  | b :: bs => b.toNat + byteSum bs

/-- The check byte: it makes the sum of the whole 0 modulo 256 (R1, R178). -/
def checkByte (bs : List Byte) : Byte := byte (256 - byteSum bs % 256)

/-- The sum test of a frame or a page. -/
def sumOk (bs : List Byte) : Bool := byteSum bs % 256 = 0

/-- A number moved to the nearer end of a range it lies outside (R30, R32, R34). -/
def clampTo (lo hi n : Nat) : Nat := max lo (min hi n)

/-! ### Indexes out of bytes -/

/-- A floor below 128. -/
def floorOf (n : Nat) : Option Floor := if h : n < 128 then some ⟨n, h⟩ else none

/-- A bank below 4. -/
def bankOf (n : Nat) : Option Bank := if h : n < 4 then some ⟨n, h⟩ else none

/-- A car number below 8. -/
def carOf (n : Nat) : Option CarNo := if h : n < 8 then some ⟨n, h⟩ else none

/-- A bank set without undefined members (R178, "Small sets"). -/
def bankSetOf (b : Byte) : Option BankSet := if b.toNat < 16 then some (b.setWidth 4) else none

/-! ### Codes (R178) -/

/-- Badge state codes. -/
def BadgeState.ofCode (b : Byte) : Option BadgeState :=
  match b.toNat with
  | 1 => some .active
  | 2 => some .suspended
  | 3 => some .lost
  | _ => none

/-- Badge state codes. -/
def BadgeState.code : BadgeState → Byte
  | .active => 1
  | .suspended => 2
  | .lost => 3

/-- Day type codes. -/
def DayType.ofCode (b : Byte) : Option DayType :=
  match b.toNat with
  | 0 => some .workday
  | 1 => some .saturday
  | 2 => some .sunday
  | 3 => some .holiday
  | _ => none

/-- Day type codes, also the bit of a day-type set. -/
def DayType.code : DayType → Byte
  | .workday => 0
  | .saturday => 1
  | .sunday => 2
  | .holiday => 3

/-- Floor kind codes. -/
def FloorKind.ofCode (b : Byte) : Option FloorKind :=
  match b.toNat with
  | 0 => some .ordinary
  | 1 => some .lobby
  | 2 => some .skyLobby
  | 3 => some .amenity
  | _ => none

/-- Floor kind codes. -/
def FloorKind.code : FloorKind → Byte
  | .ordinary => 0
  | .lobby => 1
  | .skyLobby => 2
  | .amenity => 3

/-- Floor state codes. -/
def FloorState.ofCode (b : Byte) : Option FloorState :=
  match b.toNat with
  | 0 => some .isOpen
  | 1 => some .isClosed
  | _ => none

/-- Floor state codes. -/
def FloorState.code : FloorState → Byte
  | .isOpen => 0
  | .isClosed => 1

/-- Tenant state codes. -/
def TenantState.ofCode (b : Byte) : Option TenantState :=
  match b.toNat with
  | 0 => some .normal
  | 1 => some .locked
  | _ => none

/-- Tenant state codes. -/
def TenantState.code : TenantState → Byte
  | .normal => 0
  | .locked => 1

/-- Reader kind codes. -/
def ReaderKind.ofCode (b : Byte) : Option ReaderKind :=
  match b.toNat with
  | 1 => some .kiosk
  | 2 => some .gate
  | _ => none

/-- Reader kind codes. -/
def ReaderKind.code : ReaderKind → Byte
  | .kiosk => 1
  | .gate => 2

/-- Bank mode codes. -/
def BankMode.ofCode (b : Byte) : Option BankMode :=
  match b.toNat with
  | 0 => some .out
  | 1 => some .normal
  | 2 => some .upPeak
  | 3 => some .lockdown
  | 4 => some .fireRecall
  | _ => none

/-- Bank mode codes. -/
def BankMode.code : BankMode → Byte
  | .out => 0
  | .normal => 1
  | .upPeak => 2
  | .lockdown => 3
  | .fireRecall => 4

/-- Car action codes: `true` for WITHDRAW, `false` for RESTORE. -/
def carActionOf (b : Byte) : Option Bool :=
  match b.toNat with
  | 1 => some true
  | 2 => some false
  | _ => none

/-- Direction codes; the outer option is an undefined code. -/
def directionOf (b : Byte) : Option (Option Dir) :=
  match b.toNat with
  | 0 => some none
  | 1 => some (some .up)
  | 2 => some (some .down)
  | _ => none

/-- Direction codes. -/
def directionCode : Option Dir → Byte
  | none => 0
  | some .up => 1
  | some .down => 2

/-- Motion codes. -/
def Motion.ofCode (b : Byte) : Option Motion :=
  match b.toNat with
  | 0 => some .stopped
  | 1 => some .moving
  | _ => none

/-- Motion codes. -/
def Motion.code : Motion → Byte
  | .stopped => 0
  | .moving => 1

/-- Door codes. -/
def Doors.ofCode (b : Byte) : Option Doors :=
  match b.toNat with
  | 0 => some .closed
  | 1 => some .opening
  | 2 => some .opened
  | 3 => some .closing
  | _ => none

/-- Door codes. -/
def Doors.code : Doors → Byte
  | .closed => 0
  | .opening => 1
  | .opened => 2
  | .closing => 3

/-- Car mode codes. -/
def CarMode.ofCode (b : Byte) : Option CarMode :=
  match b.toNat with
  | 0 => some .normal
  | 1 => some .independent
  | 2 => some .inspection
  | 3 => some .fire
  | _ => none

/-- Car mode codes. -/
def CarMode.code : CarMode → Byte
  | .normal => 0
  | .independent => 1
  | .inspection => 2
  | .fire => 3

/-- Freshness codes: `true` for FRESH, `false` for STALE. -/
def freshOf (b : Byte) : Option Bool :=
  match b.toNat with
  | 1 => some true
  | 2 => some false
  | _ => none

/-- An optional floor byte, 255 when absent (R178). -/
def optFloorByte : Option Floor → Byte
  | none => 255
  | some f => byte f.val

/-! ### Credential records (R3, R4, R179) -/

/-- The default floor of 128 or above becomes absent; a personal floor of 128 or above is dropped (R4). -/
def clampFloors (bs : List Byte) : List Floor := bs.filterMap fun b => floorOf b.toNat

/-- Space units 0 become 1, and 2 and above become 4 (R4). -/
def clampUnits (b : Byte) : Nat := if b.toNat ≤ 1 then 1 else 4

/-- R4: the checks (`none` is a refusal) and the clamping of one credential record. The counts are the lengths of
the lists. -/
def checkCredential (badge : Badge) (state tenant units : Byte) (groups : List Byte) (defaultFloor : Byte)
    (personal : List Byte) (validFrom : BitVec 16) (hasUntil : Byte) (validUntil : BitVec 16) : Option Credential :=
  if badge.toNat = 0 ∨ badge.toNat = 4294967295 then none
  else if groups.length = 0 ∨ 4 < groups.length ∨ 2 < personal.length then none
  else if hasUntil.toNat ≠ 0 ∧ validUntil.toNat < validFrom.toNat then none
  else
    match BadgeState.ofCode state, floorOf tenant.toNat with
    | some st, some tn =>
      some { badge := badge, state := st, tenant := tn, units := clampUnits units, groups := groups,
             defaultFloor := floorOf defaultFloor.toNat, personal := clampFloors personal, validFrom := validFrom,
             validUntil := if hasUntil.toNat = 0 then none else some validUntil }
    | _, _ => none

/-- A slot's 28 bytes, filled up with 255 (R179). -/
def padSlot (bs : List Byte) : List Byte := (bs ++ List.replicate 28 255).take 28

/-- A free, unused or fixed slot: all 255 (R179). -/
def freeSlot : List Byte := List.replicate 28 255

/-- The record of a credential slot, read as R4 would take it: `none` for a free slot (R3) and for a record that
ENROLL would refuse (R19). -/
def decodeCredential (bs : List Byte) : Option Credential :=
  let groupCount := (byteAt bs 7).toNat
  let personalCount := (byteAt bs 13).toNat
  if 4 < groupCount ∨ 2 < personalCount then none
  else
    checkCredential (BitVec.ofNat 32 (leNat (bytesAt bs 0 4))) (byteAt bs 4) (byteAt bs 5) (byteAt bs 6)
      (bytesAt bs 8 groupCount) (byteAt bs 12) (bytesAt bs 14 personalCount)
      (BitVec.ofNat 16 (leNat (bytesAt bs 16 2))) (byteAt bs 18) (BitVec.ofNat 16 (leNat (bytesAt bs 19 2)))

/-- A list of bytes filled up with 255 to `n` places (R179, "entries beyond the count are 255"). -/
def fillTo (n : Nat) (bs : List Byte) : List Byte := (bs ++ List.replicate n 255).take n

/-- The credential slot that holds a record (R179). The presence byte of a valid-until is 1, whatever nonzero value
the request carried, and an absent one keeps its bytes as 0, as R178 has it of a sent field (DESIGN CHOICE, log 41). -/
def encodeCredential (r : Credential) : List Byte :=
  padSlot <|
    toLE 4 r.badge.toNat ++ [r.state.code, byte r.tenant.val, byte r.units, byte r.groups.length] ++
    fillTo 4 r.groups ++ [optFloorByte r.defaultFloor, byte r.personal.length] ++
    fillTo 2 (r.personal.map fun f => byte f.val) ++ toLE 2 r.validFrom.toNat ++
    (match r.validUntil with
     | none => [0, 0, 0]
     | some d => 1 :: toLE 2 d.toNat)

/-! ### Policy items: the checks and clampings of their load requests (R20, R23 to R34, R179) -/

/-- A group's fields (R23). Of the flags byte only ENABLED and OVERRIDE are read (log 27). -/
def checkGroup (floors : FloorSet) (profile flags : Byte) : Option Group :=
  if h : profile.toNat < 64 then
    some { floors := floors, profile := ⟨profile.toNat, h⟩, enabled := flags.getLsbD 0, override := flags.getLsbD 1 }
  else none

/-- One interval word: start in bits 0 to 10, end in 11 to 21, day-type set in 22 to 25, and 26 to 31 stand for
undefined day types (R24, R178, R179). -/
def checkInterval (w : BitVec 32) : Option Interval :=
  let start := w.toNat % 2048
  let stop := w.toNat / 2048 % 2048
  if 1440 ≤ start ∨ stop = 0 ∨ 1440 < stop ∨ w.toNat / 67108864 ≠ 0 then none
  else some { days := BitVec.ofNat 4 (w.toNat / 4194304), start := start, stop := stop }

/-- Every interval of a list, or a refusal. -/
def checkIntervals : List (BitVec 32) → Option (List Interval)
  | [] => some []
  | w :: ws =>
    match checkInterval w, checkIntervals ws with
    | some i, some is => some (i :: is)
    | _, _ => none

/-- A profile's interval list of 0 to 6 intervals (R24). -/
def checkProfile (words : List (BitVec 32)) : Option (List Interval) :=
  if 6 < words.length then none else checkIntervals words

/-- A tenant's fields (R26). -/
def checkTenant (floors : FloorSet) (state : Byte) : Option Tenant :=
  (TenantState.ofCode state).map fun st => { floors := floors, state := st }

/-- A label character, codes 32 to 126 (R27). -/
def labelChar (b : Byte) : Bool := 32 ≤ b.toNat ∧ b.toNat ≤ 126

/-- A floor's fields (R27). -/
def checkFloor (c0 c1 c2 kind state banks : Byte) : Option FloorRec :=
  if labelChar c0 && labelChar c1 && labelChar c2 then
    match FloorKind.ofCode kind, FloorState.ofCode state, bankSetOf banks with
    | some k, some st, some bs => some { label := { c0 := c0, c1 := c1, c2 := c2 }, kind := k, state := st, banks := bs }
    | _, _, _ => none
  else none

/-- A bank's nine settings clamped, its recall floor checked, and the two kept fields (R30). -/
def checkBank (carCount capacity floorTime stopTime loadBias tripCap maxWait contactTime fullThreshold recallFloor : Nat)
    (withdrawn : CarSet) (storedMode : BankMode) : Option BankRec :=
  (floorOf recallFloor).map fun rf =>
    { carCount := clampTo 1 8 carCount, capacity := clampTo 1 32 capacity, floorTime := clampTo 5 100 floorTime,
      stopTime := clampTo 20 300 stopTime, loadBias := clampTo 0 50 loadBias, tripCap := clampTo 2 8 tripCap,
      maxWait := clampTo 60 900 maxWait, contactTime := clampTo 1 10 contactTime,
      fullThreshold := clampTo 50 100 fullThreshold, recallFloor := rf, withdrawn := withdrawn,
      storedMode := storedMode }

/-- A reader's fields, hold time clamped (R32). -/
def checkReader (enabled home banks kind holdTime : Byte) : Option ReaderRec :=
  match floorOf home.toNat, bankSetOf banks, ReaderKind.ofCode kind with
  | some h, some bs, some k =>
    some { enabled := enabled.toNat ≠ 0, home := h, banks := bs, kind := k, holdTime := clampTo 2 30 holdTime.toNat }
  | _, _, _ => none

/-- The ticket life, clamped (R34). -/
def clampLife (n : Nat) : Nat := clampTo 60 1800 n

/-! ### Policy slots (R179) and their reading by the scan (R20) -/

/-- An erased slot: bytes 0 to 27 all 255 (R179). -/
def slotErased (bs : List Byte) : Bool := bs = freeSlot

/-- Group slot. -/
def encodeGroup (g : Group) : List Byte :=
  padSlot (toLE 16 g.floors.toNat ++ [byte g.profile.val, byte (g.enabled.toNat + 2 * g.override.toNat)])

/-- Group slot, as the scan loads it. -/
def loadGroupSlot (bs : List Byte) : Group :=
  if slotErased bs then Group.erased
  else (checkGroup (BitVec.ofNat 128 (leNat (bytesAt bs 0 16))) (byteAt bs 16) (byteAt bs 17)).getD Group.erased

/-- The 4-byte word of an interval. -/
def encodeInterval (i : Interval) : List Byte := toLE 4 (i.start + 2048 * i.stop + 4194304 * i.days.toNat)

/-- Profile slot. -/
def encodeProfile (p : List Interval) : List Byte := padSlot (byte p.length :: p.flatMap encodeInterval)

/-- The interval words of a profile slot. -/
def profileWords (bs : List Byte) (n : Nat) : List (BitVec 32) :=
  (List.range n).map fun i => BitVec.ofNat 32 (leNat (bytesAt bs (1 + 4 * i) 4))

/-- Profile slot, as the scan loads it. A count above 6 loads the erased default. -/
def loadProfileSlot (bs : List Byte) : List Interval :=
  if slotErased bs then []
  else if 6 < (byteAt bs 0).toNat then []
  else (checkProfile (profileWords bs (byteAt bs 0).toNat)).getD []

/-- Tenant slot. -/
def encodeTenant (t : Tenant) : List Byte := padSlot (toLE 16 t.floors.toNat ++ [t.state.code])

/-- Tenant slot, as the scan loads it. -/
def loadTenantSlot (bs : List Byte) : Tenant :=
  if slotErased bs then Tenant.erased
  else (checkTenant (BitVec.ofNat 128 (leNat (bytesAt bs 0 16))) (byteAt bs 16)).getD Tenant.erased

/-- Floor slot. -/
def encodeFloor (f : FloorRec) : List Byte :=
  padSlot [f.label.c0, f.label.c1, f.label.c2, f.kind.code, f.state.code, f.banks.setWidth 8]

/-- Floor slot, as the scan loads it. -/
def loadFloorSlot (bs : List Byte) : FloorRec :=
  if slotErased bs then FloorRec.erased
  else
    (checkFloor (byteAt bs 0) (byteAt bs 1) (byteAt bs 2) (byteAt bs 3) (byteAt bs 4) (byteAt bs 5)).getD
      FloorRec.erased

/-- Bank slot, 14 bytes. -/
def encodeBank (b : BankRec) : List Byte :=
  padSlot <|
    [byte b.carCount, byte b.capacity, byte b.floorTime] ++ toLE 2 b.stopTime ++ [byte b.loadBias, byte b.tripCap] ++
    toLE 2 b.maxWait ++
    [byte b.contactTime, byte b.fullThreshold, byte b.recallFloor.val, b.withdrawn, b.storedMode.code]

/-- Bank slot, as the scan loads it. An undefined stored mode loads the erased default (R20). -/
def loadBankSlot (bs : List Byte) : BankRec :=
  if slotErased bs then BankRec.erased
  else
    match BankMode.ofCode (byteAt bs 13) with
    | none => BankRec.erased
    | some m =>
      (checkBank (byteAt bs 0).toNat (byteAt bs 1).toNat (byteAt bs 2).toNat (leNat (bytesAt bs 3 2))
        (byteAt bs 5).toNat (byteAt bs 6).toNat (leNat (bytesAt bs 7 2)) (byteAt bs 9).toNat (byteAt bs 10).toNat
        (byteAt bs 11).toNat (byteAt bs 12) m).getD BankRec.erased

/-- Reader slot. -/
def encodeReader (r : ReaderRec) : List Byte :=
  padSlot [byte r.enabled.toNat, byte r.home.val, r.banks.setWidth 8, r.kind.code, byte r.holdTime]

/-- Reader slot, as the scan loads it. -/
def loadReaderSlot (bs : List Byte) : ReaderRec :=
  if slotErased bs then ReaderRec.erased
  else
    (checkReader (byteAt bs 0) (byteAt bs 1) (byteAt bs 2) (byteAt bs 3) (byteAt bs 4)).getD ReaderRec.erased

/-- Site record slot. -/
def encodeSite (life : Nat) : List Byte := padSlot (toLE 2 life)

/-- Site record slot, as the scan loads it. -/
def loadSiteSlot (bs : List Byte) : Nat := if slotErased bs then 600 else clampLife (leNat (bytesAt bs 0 2))

/-! ### Request frames (R162, R180) -/

/-- A host request: the type and the raw body of a good frame, less its tag. -/
inductive Request where
  | setClock (day : BitVec 16) (weekday : Byte) (minute : BitVec 16) (second dayType pendingType : Byte)
  | setNextDay (dayType : Byte)
  | loadSite (life : BitVec 16)
  | loadFloor (floor label0 label1 label2 kind state banks : Byte)
  | loadBank (bank carCount capacity floorTime : Byte) (stopTime : BitVec 16) (loadBias tripCap : Byte)
      (maxWait : BitVec 16) (contactTime fullThreshold recallFloor : Byte)
  | loadReader (reader enabled home banks kind holdTime : Byte)
  | loadGroup (group : BitVec 16) (floors : FloorSet) (profile flags : Byte)
  | loadProfile (profile : Byte) (intervals : List (BitVec 32))
  | loadTenant (tenant : Byte) (floors : FloorSet) (state : Byte)
  | enroll (badge : Badge) (state tenant units : Byte) (groups : List Byte) (defaultFloor : Byte)
      (personal : List Byte) (validFrom : BitVec 16) (hasUntil : Byte) (validUntil : BitVec 16)
  | revoke (badge : Badge)
  | setBadgeState (badge : Badge) (state : Byte)
  | erasePage (page : BitVec 16)
  | setBankMode (bank mode : Byte)
  | setCarService (bank car action : Byte)
  | setFloorState (floor state : Byte)
  | setReports (kinds : BitVec 16)
  | queryBadge (badge : Badge)
  | queryCar (bank car : Byte)
  | queryBookings (bank car start : Byte)
  | queryPart
  | restart
  | undefinedType (type : Byte)
  deriving DecidableEq, Repr

/-- The request's type byte (R180). -/
def Request.type : Request → Byte
  | .setClock .. => 1
  | .setNextDay .. => 2
  | .loadSite .. => 3
  | .loadFloor .. => 4
  | .loadBank .. => 5
  | .loadReader .. => 6
  | .loadGroup .. => 7
  | .loadProfile .. => 8
  | .loadTenant .. => 9
  | .enroll .. => 10
  | .revoke .. => 11
  | .setBadgeState .. => 12
  | .erasePage .. => 13
  | .setBankMode .. => 14
  | .setCarService .. => 15
  | .setFloorState .. => 16
  | .setReports .. => 17
  | .queryBadge .. => 18
  | .queryCar .. => 19
  | .queryBookings .. => 20
  | .queryPart => 21
  | .restart => 22
  | .undefinedType t => t

/-- The two-byte number at a place of a body. -/
def word16At (bs : List Byte) (i : Nat) : BitVec 16 := BitVec.ofNat 16 (leNat (bytesAt bs i 2))

/-- The badge number at the head of a body. -/
def badgeAt (bs : List Byte) : Badge := BitVec.ofNat 32 (leNat (bytesAt bs 0 4))

/-- The floor set at a place of a body (R178). -/
def floorSetAt (bs : List Byte) (i : Nat) : FloorSet := BitVec.ofNat 128 (leNat (bytesAt bs i 16))

/-- The interval words of a LOAD-PROFILE body. -/
def intervalWordsAt (bs : List Byte) (n : Nat) : List (BitVec 32) :=
  (List.range n).map fun i => BitVec.ofNat 32 (leNat (bytesAt bs (2 + 4 * i) 4))

/-- The body of an ENROLL frame: 15 + n + m bytes, the personal count standing after the n groups and the default
floor (R180). -/
def parseEnroll (bs : List Byte) : Option Request :=
  let n := (byteAt bs 7).toNat
  let m := (byteAt bs (9 + n)).toNat
  if bs.length = 15 + n + m then
    some (.enroll (badgeAt bs) (byteAt bs 4) (byteAt bs 5) (byteAt bs 6) (bytesAt bs 8 n) (byteAt bs (8 + n))
      (bytesAt bs (10 + n) m) (word16At bs (10 + n + m)) (byteAt bs (12 + n + m)) (word16At bs (13 + n + m)))
  else none

/-- A request of a body whose length is the one given. -/
def ofLength (bs : List Byte) (n : Nat) (r : Request) : Option Request := if bs.length = n then some r else none

/-- The request of a type and a body; `none` when the type is defined and the body's length does not match what the
type and its own counts give (R162, R180). -/
def parseRequest (type : Byte) (bs : List Byte) : Option Request :=
  match type.toNat with
  | 1 => ofLength bs 8 (.setClock (word16At bs 0) (byteAt bs 2) (word16At bs 3) (byteAt bs 5) (byteAt bs 6) (byteAt bs 7))
  | 2 => ofLength bs 1 (.setNextDay (byteAt bs 0))
  | 3 => ofLength bs 2 (.loadSite (word16At bs 0))
  | 4 =>
    ofLength bs 7 (.loadFloor (byteAt bs 0) (byteAt bs 1) (byteAt bs 2) (byteAt bs 3) (byteAt bs 4) (byteAt bs 5)
      (byteAt bs 6))
  | 5 =>
    ofLength bs 13 (.loadBank (byteAt bs 0) (byteAt bs 1) (byteAt bs 2) (byteAt bs 3) (word16At bs 4) (byteAt bs 6)
      (byteAt bs 7) (word16At bs 8) (byteAt bs 10) (byteAt bs 11) (byteAt bs 12))
  | 6 =>
    ofLength bs 6 (.loadReader (byteAt bs 0) (byteAt bs 1) (byteAt bs 2) (byteAt bs 3) (byteAt bs 4) (byteAt bs 5))
  | 7 => ofLength bs 20 (.loadGroup (word16At bs 0) (floorSetAt bs 2) (byteAt bs 18) (byteAt bs 19))
  | 8 =>
    ofLength bs (2 + 4 * (byteAt bs 1).toNat) (.loadProfile (byteAt bs 0) (intervalWordsAt bs (byteAt bs 1).toNat))
  | 9 => ofLength bs 18 (.loadTenant (byteAt bs 0) (floorSetAt bs 1) (byteAt bs 17))
  | 10 => parseEnroll bs
  | 11 => ofLength bs 4 (.revoke (badgeAt bs))
  | 12 => ofLength bs 5 (.setBadgeState (badgeAt bs) (byteAt bs 4))
  | 13 => ofLength bs 2 (.erasePage (word16At bs 0))
  | 14 => ofLength bs 2 (.setBankMode (byteAt bs 0) (byteAt bs 1))
  | 15 => ofLength bs 3 (.setCarService (byteAt bs 0) (byteAt bs 1) (byteAt bs 2))
  | 16 => ofLength bs 2 (.setFloorState (byteAt bs 0) (byteAt bs 1))
  | 17 => ofLength bs 2 (.setReports (word16At bs 0))
  | 18 => ofLength bs 4 (.queryBadge (badgeAt bs))
  | 19 => ofLength bs 2 (.queryCar (byteAt bs 0) (byteAt bs 1))
  | 20 => ofLength bs 3 (.queryBookings (byteAt bs 0) (byteAt bs 1) (byteAt bs 2))
  | 21 => ofLength bs 0 .queryPart
  | 22 => ofLength bs 0 .restart
  | _ => some (.undefinedType type)

/-- A payload of type, tag and body (R162): too short to hold both is no good frame. -/
def parsePayload : List Byte → Option (Byte × Request)
  | type :: tag :: body => (parseRequest type body).map fun r => (tag, r)
  | _ => none

/-! ### Receivers (R43, R131, R162): one byte at a time over the bytes of the frame so far -/

/-- What a receiver holds after a byte: still hunting or collecting, or a complete frame. -/
inductive Received where
  | partly (bytes : List Byte)
  | frame (bytes : List Byte)
  deriving DecidableEq, Repr

/-- The receiver of the host line: hunts for hex C3, ends a frame whose length byte is 0 or above 250 at once, and
completes at the check byte (R162). -/
def hostRxByte (rx : List Byte) (b : Byte) : Received :=
  match rx with
  | [] => if b = 0xC3 then .partly [b] else .partly []
  | [lead] => if b.toNat = 0 ∨ 250 < b.toNat then .partly [] else .partly [lead, b]
  | lead :: len :: rest =>
    let all := lead :: len :: rest ++ [b]
    if all.length = len.toNat + 3 then .frame all else .partly all

/-- The receiver of a reader line: hunts for hex 5A (R43, R181). -/
def readerRxByte (rx : List Byte) (b : Byte) : Received :=
  match rx with
  | [] => if b = 0x5A then .partly [b] else .partly []
  | [lead] => .partly [lead, b]
  | lead :: len :: rest =>
    let all := lead :: len :: rest ++ [b]
    if all.length = len.toNat + 3 then .frame all else .partly all

/-- The receiver of a car line awaiting an answer: skips to hex 69; the fourth byte is the body length (R131,
R182). -/
def answerRxByte (rx : List Byte) (b : Byte) : Received :=
  match rx with
  | [] => if b = 0x69 then .partly [b] else .partly []
  | [a0] => .partly [a0, b]
  | [a0, a1] => .partly [a0, a1, b]
  | [a0, a1, a2] => .partly [a0, a1, a2, b]
  | a0 :: a1 :: a2 :: len :: rest =>
    let all := a0 :: a1 :: a2 :: len :: rest ++ [b]
    if all.length = len.toNat + 5 then .frame all else .partly all

/-- The payload of a framed message: all but lead, length and check byte. -/
def framePayload (bytes : List Byte) : List Byte := (bytes.drop 2).dropLast

/-- The request of a complete host frame, `none` when the frame is discarded (R162). -/
def parseHostFrame (bytes : List Byte) : Option (Byte × Request) :=
  if sumOk bytes then parsePayload (framePayload bytes) else none

/-- A reader's frame (R44). -/
inductive ReaderFrame where
  | present (badge : Badge) (floor : Byte) (kind : ReaderKind)
  | ping
  deriving DecidableEq, Repr

/-- A good reader frame (R43, R44, R181). -/
def parseReaderFrame (bytes : List Byte) : Option ReaderFrame :=
  if sumOk bytes then
    match framePayload bytes with
    | [type] => if type = 2 then some .ping else none
    | [type, b0, b1, b2, b3, floor, kind] =>
      if type = 1 then
        (ReaderKind.ofCode kind).map fun k => .present (BitVec.ofNat 32 (leNat [b0, b1, b2, b3])) floor k
      else none
    | _ => none
  else none

/-- A car's good answer (R131, R182). -/
inductive CarAnswer where
  | status (st : Status)
  | hold
  | resend
  deriving DecidableEq, Repr

/-- Car-call floors, all below 128. -/
def callFloors : List Byte → Option (List Floor)
  | [] => some []
  | b :: bs =>
    match floorOf b.toNat, callFloors bs with
    | some f, some fs => some (f :: fs)
    | _, _ => none

/-- A STATUS body: `none` when it is bad by R131. The accepted generation is absent when the generation-held byte is
0 (R182); a load above 150 is read as 150 (R89). -/
def checkStatus (position direction motion doors carMode load freshness held accepted : Byte) (calls : List Byte) :
    Option Status :=
  if 4 < calls.length then none
  else
    match floorOf position.toNat, directionOf direction, Motion.ofCode motion, Doors.ofCode doors,
      CarMode.ofCode carMode, freshOf freshness, callFloors calls with
    | some p, some d, some m, some dr, some cm, some fr, some cs =>
      some { position := p, direction := d, motion := m, doors := dr, carMode := cm, load := min load.toNat 150,
             accepted := if held.toNat = 0 then none else some accepted, fresh := fr, calls := cs }
    | _, _, _, _, _, _, _ => none

/-- The answer of a body by its kind byte: STATUS 1 with 10 + c bytes, HOLD 2 and RESEND 3 with none (R182). -/
def parseAnswerBody (kind : Byte) (body : List Byte) : Option CarAnswer :=
  match kind.toNat with
  | 1 =>
    if 10 ≤ body.length ∧ body.length = 10 + (byteAt body 9).toNat then
      (checkStatus (byteAt body 0) (byteAt body 1) (byteAt body 2) (byteAt body 3) (byteAt body 4) (byteAt body 5)
        (byteAt body 6) (byteAt body 7) (byteAt body 8) (body.drop 10)).map .status
    else none
  | 2 => if body.length = 0 then some .hold else none
  | 3 => if body.length = 0 then some .resend else none
  | _ => none

/-- A complete answer addressed by `car`: `none` when it is bad (R131). -/
def parseAnswer (car : CarNo) (bytes : List Byte) : Option CarAnswer :=
  if sumOk bytes ∧ (byteAt bytes 1).toNat = car.val then parseAnswerBody (byteAt bytes 2) ((bytes.drop 4).dropLast)
  else none

end Sys2Proof.Machine
end

