-- ==== Sys2Proof/Machine/Ops.lean ====
section
/-! DEFINITION. The named operations over the state: one setter for each block, the bytes of the store, the Report
Queue and the transmitter, the reply path of a port and the announcements to ports. -/

namespace Sys2Proof.Machine

/-! ### Setters, one for each block of the state -/

/-- Replace the queue of waiting commands. -/
def State.setPending (s : State) (q : List Instr) : State := { s with pending := q }

/-- Replace part state, pin, scan and clock. -/
def State.setPart (s : State) (p : Part) : State := { s with part := p }

/-- Replace the input levels. -/
def State.setPins (s : State) (p : Pins) : State := { s with pins := p }

/-- Replace the Credential Store. -/
def State.setStore (s : State) (st : StoreBlock) : State := { s with store := st }

/-- Replace the working copies. -/
def State.setPolicy (s : State) (p : Policy) : State := { s with policy := p }

/-- Replace the calendar. -/
def State.setCalendar (s : State) (c : Calendar) : State := { s with calendar := c }

/-- Replace the Reader Ports. -/
def State.setPorts (s : State) (ps : Vector Port 16) : State := { s with ports := ps }

/-- Replace the Authorization Engine. -/
def State.setEngine (s : State) (e : Engine) : State := { s with engine := e }

/-- Replace the Dispatch Engine's tables. -/
def State.setDisp (s : State) (d : DispatchBlock) : State := { s with disp := d }

/-- Replace the Car Line Controllers. -/
def State.setLines (s : State) (ls : Vector Line 4) : State := { s with lines := ls }

/-- Replace the Host Message Port. -/
def State.setHost (s : State) (h : HostPort) : State := { s with host := h }

/-- Replace the count of open values used. -/
def State.setFree (s : State) (n : Nat) : State := { s with freeCount := n }

/-! ### Places within the blocks -/

/-- The car index: bank × 8 + car (00_scope, "Banks, cars and hall names"). -/
def carIndex (b : Bank) (c : CarNo) : Fin 32 := ⟨8 * b.val + c.val, by omega⟩

/-- A car's record. -/
def State.car (s : State) (b : Bank) (c : CarNo) : Car := s.disp.cars.get (carIndex b c)

/-- Write a car's record. -/
def State.setCar (s : State) (b : Bank) (c : CarNo) (r : Car) : State :=
  s.setDisp { s.disp with cars := s.disp.cars.set (carIndex b c) r }

/-- Write the Booking Table. -/
def State.setBookings (s : State) (bs : List Booking) : State := s.setDisp { s.disp with bookings := bs }

/-- Write the Ticket Table. -/
def State.setTickets (s : State) (ts : List Ticket) : State := s.setDisp { s.disp with tickets := ts }

/-- The mode in force of a bank (R149). -/
def State.mode (s : State) (b : Bank) : Option BankMode := s.disp.modes.get b

/-- Write a bank's mode in force. -/
def State.setMode (s : State) (b : Bank) (m : BankMode) : State :=
  s.setDisp { s.disp with modes := s.disp.modes.set b (some m) }

/-- A Reader Port. -/
def State.port (s : State) (p : PortNo) : Port := s.ports.get p

/-- Write a Reader Port. -/
def State.setPort (s : State) (p : PortNo) (r : Port) : State := s.setPorts (s.ports.set p r)

/-- A Car Line Controller. -/
def State.line (s : State) (l : Bank) : Line := s.lines.get l

/-- Write a Car Line Controller. -/
def State.setLine (s : State) (l : Bank) (r : Line) : State := s.setLines (s.lines.set l r)

/-- A bank's working copy. -/
def State.bank (s : State) (b : Bank) : BankRec := s.policy.banks.get b

/-- A floor's working copy. -/
def State.floor (s : State) (f : Floor) : FloorRec := s.policy.floors.get f

/-- A reader's working copy. -/
def State.reader (s : State) (p : PortNo) : ReaderRec := s.policy.readers.get p

/-- The part clock. -/
def State.now (s : State) : Clock := s.part.clock

/-- Is the part RUNNING? -/
def State.running (s : State) : Bool := s.part.state = .running

/-- Every floor in order. -/
def allFloors : List Floor := List.finRange 128

/-- Every bank in order. -/
def allBanks : List Bank := List.finRange 4

/-- Every car number in order. -/
def allCars : List CarNo := List.finRange 8

/-- Every port in order. -/
def allPorts : List PortNo := List.finRange 16

/-- Every (bank, car) in car-index order. -/
def allCarIds : List (Bank × CarNo) := allBanks.flatMap fun b => allCars.map fun c => (b, c)

/-! ### The bytes of the store -/

/-- The byte at an address; an unlisted address reads 255, the erased byte (R1; log 11). -/
def Store.read : List Host.Cell → Nat → Byte
  | [], _ => 255
  | (k, v) :: m, a => if k = a then v else Store.read m a

/-- Write one byte, keeping the canonical form. -/
def Store.write : List Host.Cell → Nat → Byte → List Host.Cell
  | [], a, v => if v = 255 then [] else [(a, v)]
  | (k, w) :: m, a, v =>
    if a < k then (if v = 255 then (k, w) :: m else (a, v) :: (k, w) :: m)
    else if a = k then (if v = 255 then m else (a, v) :: m)
    else (k, w) :: Store.write m a v

/-- Write bytes from an address upward. -/
def Store.writeBytes : List Host.Cell → Nat → List Byte → List Host.Cell
  | m, _, [] => m
  | m, a, b :: bs => Store.writeBytes (Store.write m a b) (a + 1) bs

/-- The canonical form: addresses strictly rising, no byte 255 listed. -/
def Store.wf : List Host.Cell → Bool
  | [] => true
  | [(_, v)] => v ≠ 255
  | (k, v) :: (k', v') :: m => v ≠ 255 && k < k' && Store.wf ((k', v') :: m)

/-- The address of byte `i` of page `p`. -/
def pageAddress (p i : Nat) : Nat := Config.pageBytes * p + i

/-- Program a whole page from an image of 512 bytes (R13). -/
def Store.writePage (m : List Host.Cell) (p : Nat) (image : List Byte) : List Host.Cell :=
  Store.writeBytes m (pageAddress p 0) (image.take Config.pageBytes)

/-- The bytes that an interrupted or mismatching program leaves: the `n`-th open page (log 6). -/
def openPage (n p : Nat) : List Byte := (List.range Config.pageBytes).map fun i => Config.freeByte n (pageAddress p i)

/-! ### Reports (R173 to R177) -/

/-- The report kind code of a body (R178). -/
def ReportBody.kind : ReportBody → Nat
  | .started .. => 0
  | .storeFault .. => 1
  | .grant .. => 2
  | .deny .. => 3
  | .bookingCancelled .. => 4
  | .carService .. => 5
  | .lineState .. => 6
  | .bankMode .. => 7
  | .recallInput .. => 8
  | .ticketExpired .. => 9

/-- Remove the newest ROUTINE report, if there is one. -/
def dropLastRoutine : List Report → Option (List Report)
  | [] => none
  | r :: rs =>
    match dropLastRoutine rs with
    | some rs' => some (r :: rs')
    | none => if r.cls = .routine then some rs else none

/-- Remove the newest ROUTINE report that is not being sent. While a ROUTINE report is being sent it is the oldest of
its class (R174), and it stays (R176). -/
def dropUnsentRoutine (sending : Bool) : List Report → Option (List Report)
  | [] => none
  | r :: rs =>
    if sending then
      if r.cls = .routine then (dropLastRoutine rs).map (r :: ·) else (dropUnsentRoutine sending rs).map (r :: ·)
    else dropLastRoutine (r :: rs)

/-- The oldest report of a class. -/
def oldestOf (cls : ReportClass) (q : List Report) : Option Report := q.find? fun r => r.cls = cls

/-- Remove the oldest report of a class (R174). -/
def removeOldest (cls : ReportClass) : List Report → List Report
  | [] => []
  | r :: rs => if r.cls = cls then rs else r :: removeOldest cls rs

/-- Set the gap flag of the oldest report of a class (R174). -/
def markOldest (cls : ReportClass) (gap : Bool) : List Report → List Report
  | [] => []
  | r :: rs => if r.cls = cls then { r with gap := gap } :: rs else r :: markOldest cls gap rs

/-- R175: a ROUTINE report being sent is stopped, stays in its place, and gives its gap flag back to the mark. -/
def HostPort.stopRoutine (h : HostPort) : HostPort :=
  match oldestOf .routine h.queue with
  | some r => { h with tx := .stopIdle, gap := h.gap || r.gap }
  | none => { h with tx := .stopIdle }

/-- A report joins the queue as its newest (R173); an URGENT one stops a ROUTINE one being sent (R175). -/
def HostPort.join (h : HostPort) (r : Report) : HostPort :=
  let h' := if r.cls = .urgent ∧ h.tx = .sendingReport .routine then h.stopRoutine else h
  { h' with queue := h'.queue ++ [r] }

/-- A report is posted: enables (R177), room and overflow (R176), joining (R173). -/
def HostPort.post (h : HostPort) (r : Report) : HostPort :=
  if h.enables.getLsbD r.body.kind then
    if h.queue.length < Config.maxReports then h.join r
    else
      match r.cls with
      | .routine => { h with gap := true }
      | .urgent =>
        match dropUnsentRoutine (h.tx = .sendingReport .routine) h.queue with
        | none => { h with gap := true }
        | some q => ({ h with queue := q, gap := true } : HostPort).join r
  else h

/-- A block posts a report at this moment (R173). -/
def State.post (s : State) (cls : ReportClass) (body : ReportBody) : State :=
  s.setHost (s.host.post { cls := cls, clock := s.now, body := body, gap := false })

/-- The class of the report at the head of the sending order (R174). -/
def headClass (q : List Report) : Option ReportClass :=
  if (oldestOf .urgent q).isSome then some .urgent
  else if (oldestOf .routine q).isSome then some .routine
  else none

/-- The transmitter, when it is free, chooses the next frame: the reply, the owed BUSY, the head report, whose gap
flag takes the gap mark (R166, R174). -/
def HostPort.choose (h : HostPort) : HostPort :=
  if h.tx = .free then
    match h.request with
    | .replying _ => { h with tx := .sendingReply }
    | _ =>
      if h.owedBusy.isSome then { h with tx := .sendingBusy }
      else
        match headClass h.queue with
        | none => h
        | some cls =>
          { h with tx := .sendingReport cls, queue := markOldest cls h.gap h.queue, gap := false }
  else h

/-- The transmitter's choice at the end of an event, made once, among all that the event posted (DESIGN CHOICE,
log 40). -/
def State.choose (s : State) : State := s.setHost s.host.choose

/-- The request in hand has its reply built (R164). -/
def HostPort.reply (h : HostPort) (type tag : Byte) (status : ReplyStatus) (body : ReplyBody) : HostPort :=
  { h with request := .replying { type := type, tag := tag, status := status, body := body } }

/-! ### Ports: reply path and announcements -/

/-- R47: an answer goes into the shifter when it is empty, else into the buffer. -/
def Port.send (p : Port) (a : Answer) : Port :=
  match p.shifter with
  | none => { p with shifter := some a }
  | some _ => { p with buffer := some a }

/-- R53: a booking has left WAITING; a memory that holds its id becomes empty. -/
def Port.bookingLeft (p : Port) (id : Nat) : Port :=
  match p.memory with
  | some m => if m.booking = id then { p with memory := none } else p
  | none => p

/-- R53: a booking has moved; a memory that holds its id takes the new bank and car. -/
def Port.bookingMoved (p : Port) (id : Nat) (b : Bank) (c : CarNo) : Port :=
  match p.memory with
  | some m => if m.booking = id then { p with memory := some { m with bank := b, car := c } } else p
  | none => p

/-- Announce to a port that a booking has left WAITING (R53). -/
def State.announceLeft (s : State) (p : PortNo) (id : Nat) : State := s.setPort p ((s.port p).bookingLeft id)

/-- Announce to a port that a booking has moved (R53, R99). -/
def State.announceMoved (s : State) (p : PortNo) (id : Nat) (b : Bank) (c : CarNo) : State :=
  s.setPort p ((s.port p).bookingMoved id b c)

end Sys2Proof.Machine
end

