-- ==== Sys2Proof/Machine/Flags.lean ====
section
/-! DEFINITION. The conditions and flags computed from the state: free floors and served sets, a car's reference
position and direction, dirty cars, the FULL flag, pending drops, committed units, and the sweep order. -/

namespace Sys2Proof.Machine

/-! ### Floors and banks -/

/-- A free floor: kind not ORDINARY (00_scope, "Floors"). -/
def FloorRec.free (f : FloorRec) : Bool := f.kind ≠ .ordinary

/-- Does the bank serve the floor? (00_scope: served set) -/
def State.serves (s : State) (b : Bank) (f : Floor) : Bool := (s.floor f).banks.has b

/-- The floors of a list of floors as a set. -/
def floorSetOf : List Floor → FloorSet
  | [] => 0
  | f :: fs => FloorSet.single f ||| floorSetOf fs

/-- The OPEN free floors that a bank serves (R84). -/
def State.openFree (s : State) (b : Bank) : FloorSet :=
  floorSetOf (allFloors.filter fun f => (s.floor f).state = .isOpen && (s.floor f).free && s.serves b f)

/-- Is the bank's mode in force OUT? -/
def State.isOut (s : State) (b : Bank) : Bool := s.mode b = some .out

/-- Is a car number below its bank's car count? (00_scope: configured) -/
def State.counted (s : State) (b : Bank) (c : CarNo) : Bool := c.val < (s.bank b).carCount

/-! ### Bookings -/

/-- The direction of a trip (R79): UP when the destination is above the origin. -/
def dirOf (o d : Floor) : Dir := if o < d then .up else .down

/-- A booking's direction (R79). -/
def Booking.dir (k : Booking) : Dir := dirOf k.origin k.dest

/-- The pickup key of a booking (R81). -/
def Booking.pickupKey (k : Booking) : Key := { floor := k.origin, dir := k.dir }

/-- The drop key of a booking (R81). -/
def Booking.dropKey (k : Booking) : Key := { floor := k.dest, dir := k.dir }

/-- A is older than B: B's serial less A's, modulo 2^32, lies in 1 to 2,147,483,647 (R79). -/
def Booking.older (a b : Booking) : Bool :=
  0 < (b.serial - a.serial).toNat ∧ (b.serial - a.serial).toNat ≤ 2147483647

/-- Put a booking among others in serial order. -/
def insertSerial (k : Booking) : List Booking → List Booking
  | [] => [k]
  | b :: bs => if b.older k then b :: insertSerial k bs else k :: b :: bs

/-- Serial order: from the oldest to the newest (R79). -/
def serialOrder : List Booking → List Booking
  | [] => []
  | k :: ks => insertSerial k (serialOrder ks)

/-- The bookings on a car. -/
def State.carBookings (s : State) (b : Bank) (c : CarNo) : List Booking :=
  s.disp.bookings.filter fun k => k.bank = b ∧ k.car = c

/-- A car's WAITING bookings in serial order. -/
def State.waitingOn (s : State) (b : Bank) (c : CarNo) : List Booking :=
  serialOrder ((s.carBookings b c).filter fun k => k.state = .waiting)

/-- A car's committed units: the sum of the units of its bookings (R80). -/
def unitsOf : List Booking → Nat
  | [] => 0
  | k :: ks => k.units + unitsOf ks

/-- A car's committed units (R80). -/
def State.committed (s : State) (b : Bank) (c : CarNo) : Nat := unitsOf (s.carBookings b c)

/-- A car's pending drops in serial order of their bookings, a shared key once (R81, R170), at the oldest of its bookings
(DESIGN CHOICE, log 44). -/
def State.pendingDrops (s : State) (b : Bank) (c : CarNo) : List Key :=
  ((s.waitingOn b c).map Booking.dropKey).reverse.dedup.reverse

/-- Find a booking by id. -/
def State.findBooking (s : State) (id : Nat) : Option Booking := s.disp.bookings.find? fun k => k.id = id

/-- The lowest booking id not in use, if the table has room (R79). -/
def State.freeId (s : State) : Option Nat :=
  (List.range Config.maxBookings).find? fun i => s.disp.bookings.all fun k => k.id ≠ i

/-- The ticket of a badge (R118: at most one). -/
def State.ticketOf (s : State) (badge : Badge) : Option Ticket := s.disp.tickets.find? fun t => t.badge = badge

/-! ### Cars -/

/-- A car's reference position (R82; R80: floor 0 without a reported status). -/
def Car.refPos (c : Car) : Floor :=
  match c.status with
  | some st => st.position
  | none => 0

/-- A car's reported direction, NONE without a reported status (R80). -/
def Car.reported (c : Car) : Option Dir :=
  match c.status with
  | some st => st.direction
  | none => none

/-- A car's reference direction (R82): reported, else planned, else UP. -/
def Car.refDir (c : Car) : Dir := (c.reported.orElse fun _ => c.planned).getD .up

/-- Is the car configured? -/
def Car.configured (c : Car) : Bool := c.service ≠ .absent

/-- A configured car whose controller lacks its current stop set, or which owes a recall (R83). -/
def Car.dirty (c : Car) : Bool := c.configured && (c.confirmed ≠ some c.gen || c.recallDue)

/-- R92: the FULL flag from the load and the bank's full threshold. -/
def fullFlag (threshold load : Nat) (old : Bool) : Bool :=
  if threshold ≤ load then true else if load < threshold - 10 then false else old

/-- The phase of a key and its place within the phase (R82), as one number: 128 × phase + place. -/
def sweepRank (r : Dir) (p : Floor) (k : Key) : Nat :=
  match r, k.dir with
  | .up, .up => if p ≤ k.floor then k.floor.val else 256 + k.floor.val
  | .up, .down => 128 + (127 - k.floor.val)
  | .down, .down => if k.floor ≤ p then 127 - k.floor.val else 256 + (127 - k.floor.val)
  | .down, .up => 128 + k.floor.val

/-- Put an entry among entries in sweep order. -/
def insertStop (r : Dir) (p : Floor) (e : Stop) : List Stop → List Stop
  | [] => [e]
  | x :: xs => if sweepRank r p e.key < sweepRank r p x.key then e :: x :: xs else x :: insertStop r p e xs

/-- Sort a stop list in sweep order (R82). -/
def sortStops (r : Dir) (p : Floor) : List Stop → List Stop
  | [] => []
  | e :: es => insertStop r p e (sortStops r p es)

/-- A car's stop list sorted afresh (R82, R89 stage 2). -/
def Car.sorted (c : Car) : Car := { c with stops := sortStops c.refDir c.refPos c.stops }

/-- The keys of a car's entries. -/
def Car.keys (c : Car) : List Key := c.stops.map fun e => e.key

/-- The number of a key, for key sets. -/
def Key.number (k : Key) : Nat :=
  match k.dir with
  | .up => k.floor.val
  | .down => 128 + k.floor.val

/-- A set of keys: key `k` is bit `k.number`. -/
def keySet : List Key → BitVec 256
  | [] => 0
  | k :: ks => BitVec.ofNat 256 (2 ^ k.number) ||| keySet ks

/-- A car's stop set: the set of its entry keys with its enabled floor set (R83). -/
def Car.stopSet (c : Car) : BitVec 256 × FloorSet := (keySet c.keys, c.enabled)

/-- The projected size: distinct keys among entries and pending drops (R81). -/
def State.projected (s : State) (b : Bank) (c : CarNo) : Nat :=
  ((s.car b c).keys ++ s.pendingDrops b c).dedup.length

end Sys2Proof.Machine
end

