-- ==== Sys2Proof/Machine/Evaluator.lean ====
section
/-! DEFINITION. The cost evaluator (06_car_assignment_arithmetic, R101 to R117). It reads the state and changes
nothing. -/

namespace Sys2Proof.Machine

/-- A trip (R101). -/
structure Trip where
  origin : Floor
  dest : Floor
  units : Nat
  deriving DecidableEq, Repr

/-- The trip's direction (R101). -/
def Trip.dir (t : Trip) : Dir := dirOf t.origin t.dest

/-- The key (o, dir). -/
def Trip.pickupKey (t : Trip) : Key := { floor := t.origin, dir := t.dir }

/-- The key (d, dir). -/
def Trip.dropKey (t : Trip) : Key := { floor := t.dest, dir := t.dir }

/-- A clamped product (R102). -/
def mulClamp (a b : Nat) : Nat := min Config.laneMax (a * b)

/-- A saturating sum (R102). -/
def addClamp (a b : Nat) : Nat := min Config.laneMax (a + b)

/-- The number of floors between two floors. -/
def floorGap (a b : Floor) : Nat := (a.val - b.val) + (b.val - a.val)

/-- The floors passed from `p` through the listed floors to `o` (R106). -/
def pathLength (p : Floor) : List Floor → Floor → Nat
  | [], o => floorGap p o
  | f :: fs, o => floorGap p f + pathLength f fs o

/-- The entries ranked before the key (o, dir), in list order (R105). -/
def Car.entriesBefore (c : Car) (k : Key) : List Stop :=
  c.stops.filter fun e => sweepRank c.refDir c.refPos e.key < sweepRank c.refDir c.refPos k

/-- R107: the car stands open at the origin, reporting the rider's direction or NONE. -/
def Car.standsOpen (c : Car) (k : Key) : Bool :=
  match c.status with
  | some st =>
    st.position = k.floor && (st.doors = .opening || st.doors = .opened) &&
      (st.direction = some k.dir || st.direction = none)
  | none => false

/-- The wait term W (R106, R107). -/
def waitTerm (b : BankRec) (c : Car) (t : Trip) : Nat :=
  if c.standsOpen t.pickupKey then 0
  else
    let before := c.entriesBefore t.pickupKey
    addClamp (mulClamp (pathLength c.refPos (before.map fun e => e.key.floor) t.origin) b.floorTime)
      (mulClamp before.length b.stopTime)

/-- Strictly between two floors. -/
def between (o d f : Floor) : Bool := (o < f && f < d) || (d < f && f < o)

/-- The ride term R (R108). -/
def rideTerm (b : BankRec) (c : Car) (t : Trip) : Nat :=
  let onWay := c.stops.filter fun e => e.key.dir = t.dir && between t.origin t.dest e.key.floor
  addClamp (mulClamp (floorGap t.origin t.dest) b.floorTime) (mulClamp onWay.length b.stopTime)

/-- The count `new` of R109. -/
def newStops (c : Car) (pend : List Key) (t : Trip) : Nat :=
  (if t.pickupKey ∈ c.keys then 0 else 1) + (if t.dropKey ∈ c.keys ∨ t.dropKey ∈ pend then 0 else 1)

/-- The imposed-delay term N (R109). -/
def delayTerm (b : BankRec) (c : Car) (pend : List Key) (committed : Nat) (t : Trip) : Nat :=
  min Config.laneMax (newStops c pend t * b.stopTime * committed) / 8

/-- The load term L (R110). -/
def loadTerm (b : BankRec) (committed : Nat) : Nat := mulClamp committed b.loadBias

/-- The trip stop cap excludes the car (R104). -/
def State.capExcludes (s : State) (b : Bank) (c : CarNo) (t : Trip) : Bool :=
  s.mode b = some .upPeak && (s.floor t.origin).kind = .lobby &&
    (s.bank b).tripCap <
      ((((s.carBookings b c).filter fun k => k.state = .waiting ∧ k.origin = t.origin).map fun k => k.dest) ++
        [t.dest]).dedup.length

/-- The distinct keys of the stop budget (R103). -/
def State.budget (s : State) (b : Bank) (c : CarNo) (t : Trip) : Nat :=
  ((s.car b c).keys ++ s.pendingDrops b c ++ [t.pickupKey, t.dropKey]).dedup.length

/-- A lane is EXCLUDED (R103). -/
def State.laneExcluded (s : State) (b : Bank) (t : Trip) (c : CarNo) : Bool :=
  (s.car b c).service ≠ .inService || (s.car b c).full || (s.bank b).capacity < s.committed b c + t.units ||
    Config.maxStops < s.budget b c t || s.capExcludes b c t || !s.serves b t.origin || !s.serves b t.dest

/-- The cost of an included lane: W + R, then + N, then + L (R110). -/
def State.laneCost (s : State) (b : Bank) (t : Trip) (c : CarNo) : Nat :=
  addClamp
    (addClamp (addClamp (waitTerm (s.bank b) (s.car b c) t) (rideTerm (s.bank b) (s.car b c) t))
      (delayTerm (s.bank b) (s.car b c) (s.pendingDrops b c) (s.committed b c) t))
    (loadTerm (s.bank b) (s.committed b c))

/-- A car's lane (R102). -/
def State.lane (s : State) (b : Bank) (t : Trip) (c : CarNo) : Nat :=
  if s.laneExcluded b t c then Config.excluded else s.laneCost b t c

/-- The candidate of lowest cost, the first of several equal ones (R111, R112, R113). -/
def lowestCost {α : Type} : List (α × Nat) → Option (α × Nat)
  | [] => none
  | x :: xs =>
    match lowestCost xs with
    | none => some x
    | some y => if y.2 < x.2 then some y else some x

/-- One evaluation: the winning car and the bank's winning cost (R111). -/
def State.evaluate (s : State) (b : Bank) (t : Trip) : Option (CarNo × Nat) :=
  lowestCost ((allCars.filter fun c => !s.laneExcluded b t c).map fun c => (c, s.lane b t c))

end Sys2Proof.Machine
end

