-- ==== Sys2Proof/Machine/CarTable.lean ====
section
/-! DEFINITION. The operations on the Booking, Ticket and Car Tables (05_cars_bookings_and_stop_lists): keeping a
stop list in step with the bookings, enabled sets, the close of an event, cancelling, moving, losing a car, and the
one STATUS event. -/

namespace Sys2Proof.Machine

/-! ### Stop lists -/

/-- A car's car-call duties (R81). -/
def Car.callKeys (c : Car) : List Key := (c.stops.filter fun e => e.call).map fun e => e.key

/-- The keys that must be entries: pickups, drops and car calls (R81). -/
def dutyKeys (bs : List Booking) (calls : List Key) : List Key :=
  (bs.filter fun k => k.state = .waiting).map Booking.pickupKey ++
    (bs.filter fun k => k.state = .riding).map Booking.dropKey ++ calls

/-- The entry of a key with its duties (R81). -/
def makeStop (bs : List Booking) (calls : List Key) (k : Key) : Stop :=
  { key := k, pickup := bs.any fun b => b.state = .waiting && b.pickupKey = k,
    drop := bs.any fun b => b.state = .riding && b.dropKey = k, call := calls.contains k }

/-- The direction of travel from the reference position to a key's floor, or the key's own direction there (R82,
"The planned direction"). -/
def plannedFor (p : Floor) (k : Key) : Dir :=
  if p < k.floor then .up else if k.floor < p then .down else k.dir

/-- R81, R82: a car's list brought in step with its bookings and its car calls, in sweep order. The planned direction
is set when an entry enters an empty list and cleared when the list becomes empty. -/
def Car.resync (c : Car) (bs : List Booking) (calls : List Key) : Car :=
  match (dutyKeys bs calls).dedup with
  | [] => { c with stops := [], planned := none }
  | k :: ks =>
    Car.sorted
      { c with
        stops := (k :: ks).map (makeStop bs calls),
        planned := if c.stops = [] then some (plannedFor c.refPos k) else c.planned }

/-- Bring one car's list in step with the Booking Table, with these car calls. -/
def State.resync (s : State) (b : Bank) (c : CarNo) (calls : List Key) : State :=
  s.setCar b c ((s.car b c).resync (s.carBookings b c) calls)

/-- Bring one car's list in step with the Booking Table, its car calls kept. -/
def State.resyncKeep (s : State) (b : Bank) (c : CarNo) : State := s.resync b c (s.car b c).callKeys

/-- The enabled floor set that R84 gives a car. -/
def State.enabledOf (s : State) (b : Bank) (c : CarNo) : FloorSet :=
  if !(s.car b c).configured then 0
  else if s.mode b = some .fireRecall then 0
  else
    s.openFree b |||
      floorSetOf (((s.carBookings b c).filter fun k => k.state = .riding).map fun k => k.dest)

/-- R84: form a car's enabled set afresh; a floor that leaves it loses its car-call duties. -/
def State.formEnabled (s : State) (b : Bank) (c : CarNo) : State :=
  let car := s.car b c
  let new := s.enabledOf b c
  let kept := car.callKeys.filter fun k => !(car.enabled.has k.floor && !new.has k.floor)
  let s' := s.setCar b c { car with enabled := new }
  if kept = car.callKeys then s' else s'.resync b c kept

/-- Form the enabled sets of a bank's configured cars afresh. -/
def State.formBank (s : State) (b : Bank) : State :=
  allCars.foldl (fun s c => if (s.car b c).configured then s.formEnabled b c else s) s

/-! ### The close of an event (R83, R139) -/

/-- R83: a stop set that differs from the one at the start of the event takes a new generation, unconfirmed. A car
made configured or ABSENT in the event takes none (R31). -/
def Car.closeGeneration (old new : Car) : Car :=
  if old.configured && new.configured && old.stopSet ≠ new.stopSet then
    { new with gen := new.gen + 1, confirmed := none }
  else new

/-- R139: the notice that a car has become dirty, or has become clean. -/
def Line.notice (l : Line) (c : CarNo) (was isNow : Bool) : Line :=
  if was = isNow then l
  else if isNow then (if c ∈ l.queue then l else { l with queue := l.queue ++ [c] })
  else { l with queue := l.queue.filter fun x => x ≠ c }

/-- The close of an event for one car. -/
def State.closeCar (s0 s : State) (id : Bank × CarNo) : State :=
  let old := s0.car id.1 id.2
  let new := Car.closeGeneration old (s.car id.1 id.2)
  (s.setCar id.1 id.2 new).setLine id.1 ((s.line id.1).notice id.2 old.dirty new.dirty)

/-- The close of an event that began in `s0`, in car order (R83, R152). -/
def State.closeCars (s0 s : State) : State := allCarIds.foldl (State.closeCar s0) s

/-! ### Bookings that leave the table -/

/-- R87, R121: the ticket of a cancelled first leg goes. -/
def State.dropFirstLegTicket (s : State) (k : Booking) : State :=
  if k.leg = .firstLeg then
    s.setTickets (s.disp.tickets.filter fun t => !(t.badge = k.badge && t.firstLeg = some k.id))
  else s

/-- R86, R121: the ticket of a first leg that is done forgets the booking. -/
def State.clearFirstLeg (s : State) (k : Booking) : State :=
  if k.leg = .firstLeg then
    s.setTickets (s.disp.tickets.map fun t =>
      if t.badge = k.badge ∧ t.firstLeg = some k.id then { t with firstLeg := none } else t)
  else s

/-- A booking leaves the table and its id is free. -/
def State.removeBooking (s : State) (id : Nat) : State :=
  s.setBookings (s.disp.bookings.filter fun k => k.id ≠ id)

/-- The body of the BOOKING_CANCELLED report (R87). -/
def cancelReport (k : Booking) (reason : CancelReason) : ReportBody :=
  .bookingCancelled k.id k.badge k.port k.bank k.car k.origin k.dest k.leg k.state reason

/-- R87: cancel a booking: it leaves the table, its duty goes, its port is told when it was WAITING, the enabled set
is formed afresh when it was RIDING, a first leg's ticket goes, and the report is posted. -/
def State.cancel (s : State) (reason : CancelReason) (k : Booking) : State :=
  let s1 := (s.removeBooking k.id).resyncKeep k.bank k.car
  let s2 :=
    match k.state with
    | .waiting => s1.announceLeft k.port k.id
    | .riding => s1.formEnabled k.bank k.car
  (s2.dropFirstLegTicket k).post .routine (cancelReport k reason)

/-- Cancel several bookings, in the order given. -/
def State.cancelAll (s : State) (reason : CancelReason) (ks : List Booking) : State :=
  ks.foldl (fun s k => s.cancel reason k) s

/-! ### Placing and moving -/

/-- R85: put a booking on its car. -/
def State.place (s : State) (k : Booking) : State :=
  (s.setBookings (s.disp.bookings ++ [k])).resyncKeep k.bank k.car

/-- The trip of a booking. -/
def Booking.trip (k : Booking) : Trip := { origin := k.origin, dest := k.dest, units := k.units }

/-- R99: move a WAITING booking within its bank, or cancel it NO_CAR. -/
def State.moveBooking (s : State) (k : Booking) : State :=
  let off := (s.removeBooking k.id).resyncKeep k.bank k.car
  match off.evaluate k.bank k.trip with
  | none => s.cancel .noCar k
  | some (c, _) =>
    ((off.setBookings (s.disp.bookings.map fun x => if x.id = k.id then { x with car := c } else x)).resyncKeep
      k.bank c).announceMoved k.port k.id k.bank c

/-- R98: a car that left IN_SERVICE loses its WAITING bookings, in serial order. -/
def State.loseCar (s : State) (b : Bank) (c : CarNo) : State :=
  (s.waitingOn b c).foldl (fun s k => s.moveBooking k) s

/-- The class of a CAR_SERVICE report (R95). -/
def serviceClass (old new : Service) : ReportClass :=
  if old = .inService ∨ new = .outOfContact ∨ new = .frozen then .urgent else .routine

/-- R95: a change of service state posts its report. -/
def State.reportService (s : State) (b : Bank) (c : CarNo) (old new : Service) : State :=
  if old = new then s else s.post (serviceClass old new) (.carService b c old new)

/-- A configured car takes a service state; R98 applies when it leaves IN_SERVICE. -/
def State.setService (s : State) (b : Bank) (c : CarNo) (new : Service) : State :=
  let car := s.car b c
  let s' := s.setCar b c { car with service := new }
  if car.service = .inService ∧ new ≠ .inService then s'.loseCar b c else s'

/-! ### The STATUS event (R89) -/

/-- Stage 1: the fields (R89). A STALE answer keeps the former position, direction, motion, doors and car calls, or
the stated ones when no FRESH answer has been taken. -/
def Car.takeFields (c : Car) (now : Clock) (st : Status) : Car :=
  if st.fresh then { c with age := some now, status := some st, stale := 0 }
  else
    let former : Status :=
      c.status.getD { position := 0, direction := none, motion := .stopped, doors := .closed, carMode := .normal,
                      load := 0, accepted := none, fresh := false, calls := [] }
    { c with
      age := some now,
      status := some { former with carMode := st.carMode, load := st.load, accepted := st.accepted, fresh := false },
      stale := min 10 (c.stale + 1) }

/-- Stage 2: sort afresh when the reference position or direction has changed (R82, R89). -/
def Car.resortFrom (old c : Car) : Car :=
  if old.refPos = c.refPos ∧ old.refDir = c.refDir then c else c.sorted

/-- Stage 3: confirmation (R90), and with it the clearing of a recall (R145). -/
def Car.confirm (c : Car) (kind : CommandKind) (st : Status) : Car :=
  let c1 := if st.accepted = some c.gen then { c with confirmed := some c.gen } else c
  if kind = .recallCar ∧ st.carMode = .fire then { c1 with recallDue := false } else c1

/-- Items 4 to 6 of R91. -/
def serviceByReport (stale : Nat) (m : CarMode) : Service :=
  if stale = 10 then .frozen else if m = .normal then .inService else .carHeld

/-- Stage 4: the service state a STATUS gives (R91). -/
def serviceByStatus (mode : Option BankMode) (old : Service) (withdrawn : Bool) (stale : Nat) (m : CarMode) : Service :=
  if mode = some .fireRecall then .recalled
  else if old = .recalled ∧ m ≠ .normal then .recalled
  else if withdrawn then .withdrawn
  else serviceByReport stale m

/-- R93: does the STATUS serve the floor? -/
def servesNow (st : Status) (sv : Service) : Bool :=
  st.fresh && (st.doors = .opening || st.doors = .opened) &&
    (sv = .inService || sv = .withdrawn || sv = .carHeld)

/-- R93 step 1: a RIDING booking bound for the floor is done (R86). -/
def State.bookingDone (s : State) (k : Booking) : State := (s.removeBooking k.id).clearFirstLeg k

/-- R93 step 3: a booking boards and its port is told. -/
def State.board (s : State) (k : Booking) : State :=
  (s.setBookings (s.disp.bookings.map fun x => if x.id = k.id then { x with state := .riding } else x)).announceLeft
    k.port k.id

/-- R93: the car serves the floor it stands at. -/
def State.serveFloor (s : State) (b : Bank) (c : CarNo) (st : Status) : State :=
  let f := st.position
  let riders := serialOrder ((s.carBookings b c).filter fun k => k.state = .riding ∧ k.dest = f)
  let s1 := riders.foldl State.bookingDone s
  let calls := (s1.car b c).callKeys.filter fun k => k.floor ≠ f
  let boarders := (s1.waitingOn b c).filter fun k => k.origin = f ∧ (st.direction = none ∨ st.direction = some k.dir)
  (boarders.foldl State.board s1).resync b c calls

/-- R94: one reported car call that is not ignored. -/
def State.takeCall (s : State) (b : Bank) (c : CarNo) (k : Key) : State :=
  let car := s.car b c
  if k ∈ car.keys ∨ k ∈ s.pendingDrops b c ∨ s.projected b c ≤ 23 then s.resync b c (car.callKeys ++ [k]) else s

/-- R94: the reported car-call list, in list order, less what is ignored. `seen` are the floors already taken. -/
def State.takeCalls (s : State) (b : Bank) (c : CarNo) (p : Floor) : List Floor → List Floor → State
  | _, [] => s
  | seen, f :: fs =>
    if !(s.car b c).enabled.has f || f = p || f ∈ seen then State.takeCalls s b c p seen fs
    else State.takeCalls (s.takeCall b c { floor := f, dir := dirOf p f }) b c p (f :: seen) fs

/-- R89: one STATUS event at the Car Table for a configured car, less the close (stages 1 to 7, then the enabled set
and the CAR_SERVICE report of stage 8). `kind` is the transaction that it ends. -/
def State.statusEvent (s : State) (b : Bank) (c : CarNo) (kind : CommandKind) (st : Status) : State :=
  let car := s.car b c
  let car' := (Car.resortFrom car (car.takeFields s.now st)).confirm kind st
  let s1 := s.setCar b c car'
  let new := serviceByStatus (s.mode b) car.service ((s.bank b).withdrawn.has c) car'.stale st.carMode
  let s2 := s1.setService b c new
  let car2 := s2.car b c
  let s3 := s2.setCar b c { car2 with full := fullFlag (s.bank b).fullThreshold st.load car2.full }
  let s4 := if servesNow st new then s3.serveFloor b c st else s3
  let s5 := if st.fresh then s4.takeCalls b c st.position [] st.calls else s4
  (s5.formEnabled b c).reportService b c car.service new

/-- A STATUS handed over by a line: discarded for a car that is ABSENT now (R89). A car made ABSENT and configured again
while the transaction was in flight takes it (DESIGN CHOICE, log 43). -/
def State.takeStatus (s : State) (b : Bank) (c : CarNo) (kind : CommandKind) (st : Status) : State :=
  if (s.car b c).configured then s.statusEvent b c kind st else s

end Sys2Proof.Machine
end

