-- ==== Sys2Proof/Machine/Modes.lean ====
section
/-! DEFINITION. Changes of a bank's mode (09_bank_operating_modes, R152 to R158), of its floors (R28, R100), of its
settings (R31) and of a car's withdrawal (R161). -/

namespace Sys2Proof.Machine

/-- Apply a change to every configured car of a bank, in car order. -/
def State.eachConfigured (s : State) (b : Bank) (f : Car → Car) : State :=
  allCars.foldl (fun s c => if (s.car b c).configured then s.setCar b c (f (s.car b c)) else s) s

/-- A status age that is absent or older than ten times the contact time (R155, R161). -/
def State.silent (s : State) (b : Bank) (age : Option Clock) : Bool :=
  match age with
  | none => true
  | some a => 10 * (s.bank b).contactTime < elapsed s.now a

/-- R120: a ticket names its first-leg bank and its onward banks. -/
def Ticket.names (t : Ticket) (b : Bank) : Bool := t.firstBank = b || t.onward.has b

/-- R153 and R154, steps 1 to 3: cancel every booking of the bank, remove every ticket that names it, empty the stop
lists of its configured cars. -/
def State.clearBank (s : State) (b : Bank) (reason : CancelReason) : State :=
  let s1 := s.cancelAll reason (serialOrder (s.disp.bookings.filter fun k => k.bank = b))
  let s2 := s1.setTickets (s1.disp.tickets.filter fun t => !t.names b)
  s2.eachConfigured b fun c => { c with stops := [], planned := none }

/-- R153: enter OUT. -/
def State.enterOut (s : State) (b : Bank) : State := (s.clearBank b .bankOut).formBank b

/-- A car recalled: no live buttons, recall pending, RECALLED (R154 steps 4 and 5). -/
def Car.recalled (c : Car) : Car := { c with enabled := 0, recallDue := true, service := .recalled }

/-- R154: enter FIRE_RECALL. -/
def State.enterFire (s : State) (b : Bank) : State := (s.clearBank b .recalled).eachConfigured b Car.recalled

/-- R155 steps 1 and 2 for one car. -/
def State.leaveRecall (s : State) (b : Bank) (c : Car) : Car :=
  { c with
    recallDue := false,
    service := if c.service = .recalled ∧ s.silent b c.age then .outOfContact else c.service }

/-- R155: leave FIRE_RECALL; the mode in force is already the new one. -/
def State.leaveFire (s : State) (b : Bank) : State := (s.eachConfigured b (s.leaveRecall b)).formBank b

/-- The effects of leaving the old mode and then of entering the new one (R152 to R156). -/
def State.modeEffects (s : State) (b : Bank) (old new : BankMode) : State :=
  let s1 := if old = .fireRecall then s.leaveFire b else s
  match new with
  | .out => s1.enterOut b
  | .fireRecall => s1.enterFire b
  | .normal | .upPeak | .lockdown => s1

/-- R152: one change of mode, with its BANK_MODE report. -/
def State.changeMode (s : State) (b : Bank) (new : BankMode) (byInput : Bool) : State :=
  match s.mode b with
  | none => s
  | some old =>
    let s1 := (s.setMode b new).modeEffects b old new
    s1.post .urgent
      (.bankMode b old new byInput (s.disp.bookings.length - s1.disp.bookings.length)
        (s.disp.tickets.length - s1.disp.tickets.length))

/-! ### Floors (R28, R100) -/

/-- Write a floor's working copy. -/
def State.setFloor (s : State) (f : Floor) (r : FloorRec) : State :=
  s.setPolicy { s.policy with floors := s.policy.floors.set f r }

/-- The floors of a list that go from OPEN to CLOSED (R28, "Closure"). -/
def State.closing (s : State) (rs : List (Floor × FloorRec)) : List Floor :=
  (rs.filter fun x => (s.floor x.1).state = .isOpen && x.2.state = .isClosed).map fun x => x.1

/-- The banks in an old or a new served-bank set of a list of floor changes (R28). -/
def State.concerned (s : State) (rs : List (Floor × FloorRec)) (b : Bank) : Bool :=
  rs.any fun x => (s.floor x.1).banks.has b || x.2.banks.has b

/-- R28, R100: floors take new working copies together: closures cancel WAITING bookings FLOOR_CLOSED in serial
order, and the cars of every bank concerned form their enabled sets afresh. -/
def State.changeFloors (s : State) (rs : List (Floor × FloorRec)) : State :=
  let shut := s.closing rs
  let s1 := rs.foldl (fun s x => s.setFloor x.1 x.2) s
  let lost := serialOrder (s1.disp.bookings.filter fun k => k.state = .waiting ∧ (k.origin ∈ shut ∨ k.dest ∈ shut))
  let s2 := s1.cancelAll .floorClosed lost
  allBanks.foldl (fun t b => if s.concerned rs b then t.formBank b else t) s2

/-! ### Bank settings (R31) -/

/-- Write a bank's working copy. -/
def State.setBank (s : State) (b : Bank) (r : BankRec) : State :=
  s.setPolicy { s.policy with banks := s.policy.banks.set b r }

/-- R31: one car after a change of its bank's car count. -/
def State.recountCar (s : State) (b : Bank) (c : CarNo) : State :=
  let car := s.car b c
  if s.counted b c then
    if car.configured then s
    else
      let fresh : Car := { Car.reset with service := .outOfContact }
      let start := if s.mode b = some .fireRecall then fresh.recalled else fresh
      (s.setCar b c start).formEnabled b c
  else if car.configured then
    s.setCar b c { car with service := .absent, stops := [], planned := none, enabled := 0 }
  else s

/-- R31: the bank's cars after a change of its car count. -/
def State.recount (s : State) (b : Bank) : State := allCars.foldl (fun s c => s.recountCar b c) s

/-! ### Withdrawal (R161) -/

/-- The service state a restored car takes (R161). -/
def State.restoredState (s : State) (b : Bank) (car : Car) : Service :=
  if s.silent b car.age then .outOfContact
  else
    match car.status with
    | none => .outOfContact
    | some st => serviceByReport car.stale st.carMode

/-- The service state that R161 gives a car, `none` for no change of state. -/
def State.serviceAfter (s : State) (b : Bank) (car : Car) (withdraw : Bool) : Option Service :=
  match withdraw, car.service with
  | true, .inService | true, .carHeld | true, .outOfContact | true, .frozen => some .withdrawn
  | false, .withdrawn => some (s.restoredState b car)
  | _, _ => none

/-- R161: one car withdrawn or restored, with its report. -/
def State.withdrawCar (s : State) (b : Bank) (c : CarNo) (withdraw : Bool) : State :=
  let car := s.car b c
  match s.serviceAfter b car withdraw with
  | none => s
  | some new => (s.setService b c new).reportService b c car.service new

/-- A car set with one car added or removed. -/
def putCar (cs : CarSet) (c : CarNo) (member : Bool) : CarSet :=
  if member then cs ||| BitVec.ofNat 8 (2 ^ c.val) else cs &&& ~~~BitVec.ofNat 8 (2 ^ c.val)

/-- R160, R161: the completion of a SET-CAR-SERVICE. A request that repeats what the set already holds changes
nothing (log 19). -/
def State.changeWithdrawn (s : State) (b : Bank) (c : CarNo) (withdraw : Bool) : State :=
  let r := s.bank b
  if r.withdrawn.has c = withdraw then s
  else (s.setBank b { r with withdrawn := putCar r.withdrawn c withdraw }).withdrawCar b c withdraw

end Sys2Proof.Machine
end

