-- ==== Sys2Proof/Machine/PolicyTables.lean ====
section
/-! DEFINITION. The computations of the Policy Tables and the calendar (02_access_policy_and_the_calendar): which
groups are admitted, the permitted set, the override flag, validity, effective bank sets, second advance and day
rollover. -/

namespace Sys2Proof.Machine

/-- R25: does an interval admit a minute of a day type? -/
def Interval.admits (i : Interval) (d : DayType) (m : Nat) : Bool :=
  i.days.getLsbD d.code.toNat &&
    (if i.start < i.stop then i.start ≤ m && m < i.stop
     else if i.stop < i.start then i.start ≤ m || m < i.stop
     else true)

/-- R25: does a profile admit a minute of a day type? Profile 0 admits every one. -/
def Policy.profileAdmits (p : Policy) (n : Fin 64) (d : DayType) (m : Nat) : Bool :=
  n = 0 || (p.profiles.get n).any fun i => i.admits d m

/-- A group's working copy. -/
def State.group (s : State) (n : Byte) : Group := s.policy.groups.get ⟨n.toNat, n.isLt⟩

/-- R39: is a group admitted now? While UNSET only profile 0 counts. -/
def State.admitted (s : State) (n : Byte) : Bool :=
  (s.group n).enabled &&
    (if s.calendar.isSet then
      s.policy.profileAdmits (s.group n).profile s.calendar.dayType s.calendar.minute.val
     else (s.group n).profile = 0)

/-- The union of the floor sets of listed groups. -/
def State.groupFloors (s : State) : List Byte → FloorSet
  | [] => 0
  | n :: ns => (s.group n).floors ||| s.groupFloors ns

/-- Every free floor (R40 step 3). -/
def State.freeFloors (s : State) : FloorSet := floorSetOf (allFloors.filter fun f => (s.floor f).free)

/-- Every CLOSED floor (R40 step 4). -/
def State.closedFloors (s : State) : FloorSet := floorSetOf (allFloors.filter fun f => (s.floor f).state = .isClosed)

/-- R40: the permitted set P. -/
def State.permitted (s : State) (r : Credential) : FloorSet :=
  let g := s.groupFloors (r.groups.filter s.admitted)
  let p0 := g &&& (s.policy.tenants.get r.tenant).floors
  let p1 := p0 ||| floorSetOf r.personal ||| s.freeFloors
  p1 &&& ~~~s.closedFloors

/-- R41: the override flag. -/
def State.overrideFlag (s : State) (r : Credential) : Bool := r.groups.any fun n => s.admitted n && (s.group n).override

/-- R42: is the credential within its validity? While UNSET every one counts. -/
def State.valid (s : State) (r : Credential) : Bool :=
  !s.calendar.isSet ||
    (r.validFrom.toNat ≤ s.calendar.day.toNat &&
      (match r.validUntil with
       | none => true
       | some d => s.calendar.day.toNat ≤ d.toNat))

/-- R33: is a bank in the effective bank set of a home floor and a bank set? -/
def State.effective (s : State) (home : Floor) (banks : BankSet) (b : Bank) : Bool := banks.has b && s.serves b home

/-- The day type of a weekday (R38). -/
def weekdayType (w : Fin 7) : DayType := if w.val ≤ 4 then .workday else if w.val = 5 then .saturday else .sunday

/-- R38: the day rollover. -/
def Calendar.rollover (c : Calendar) : Calendar :=
  { c with
    second := 0, minute := 0, day := c.day + 1, weekday := c.weekday + 1,
    dayType := c.pendingType.getD (weekdayType (c.weekday + 1)), pendingType := none }

/-- R35: the calendar fields one second later. -/
def Calendar.nextSecond (c : Calendar) : Calendar :=
  if c.second.val = 59 then
    if c.minute.val = 1439 then c.rollover else { c with second := 0, minute := c.minute + 1 }
  else { c with second := c.second + 1 }

/-- R35: is a second advance due? 10 ds of part clock since the last advance, or since the SET-CLOCK. -/
def Calendar.due (c : Calendar) (now : Clock) : Bool := c.isSet && 10 ≤ elapsed now c.lastAdvance

/-- R35: one second advance. The next falls 10 ds after the moment this one was due (log 26). -/
def Calendar.advance (c : Calendar) : Calendar := { c.nextSecond with lastAdvance := c.lastAdvance + 10 }

/-- CALENDAR_SECOND_ADVANCE (R35, R38): changes the calendar and nothing else; before it is due, nothing. -/
def execCalendarSecondAdvance (s : State) : Host.Outcome State Fault Refusal :=
  if s.calendar.due s.now then .next (s.setCalendar s.calendar.advance) else .next s

end Sys2Proof.Machine
end

