-- ==== Sys2Proof/Machine/Pages.lean ====
section
/-! DEFINITION. The pages of the Credential Store (01_credential_store, R179): their bytes and images, the probe
range and the lookup, and the start-up scan. -/

namespace Sys2Proof.Machine

/-! ### Reading a page -/

/-- `n` bytes of a page from place `i`. -/
def pageRead (m : List Host.Cell) (p i n : Nat) : List Byte :=
  (List.range n).map fun j => Store.read m (pageAddress p (i + j))

/-- Bytes 0 to 27 of a slot (R179). -/
def slotRead (m : List Host.Cell) (p k : Nat) : List Byte := pageRead m p (32 * k) 28

/-- The page marker: bytes 28 and 29 of slot 0 (R179). -/
def pageMarker (m : List Host.Cell) (p : Nat) : Nat := leNat (pageRead m p 28 2)

/-- The write stamp of a programmed page: bytes 28 to 31 of slot 1 (R179); a stamp outside 1 to 4,294,967,294 reads as
no stamp (R1). -/
def pageStamp (m : List Host.Cell) (p : Nat) : Option Nat :=
  let n := leNat (pageRead m p 60 4)
  if pageMarker m p = p ∧ 1 ≤ n ∧ n ≤ Config.maxStamp then some n else none

/-- R18: a page is judged GOOD. -/
def judgeGood (m : List Host.Cell) (p : Nat) : Bool :=
  let bytes := pageRead m p 0 Config.pageBytes
  sumOk bytes && (pageMarker m p = 65535 || pageMarker m p = p) &&
    (pageMarker m p ≠ 65535 || bytes.all fun b => b = 255)

/-! ### Images (R1, R11, R13, R179) -/

/-- The page bytes 28 to 31 of slot `k`, less the check byte: marker in slot 0, write stamp in slot 1, else 255. -/
def slotTail (page stamp k : Nat) : List Byte :=
  if k = 0 then toLE 2 page ++ [255, 255]
  else if k = 1 then toLE 4 stamp
  else if k = 15 then [255, 255, 255]
  else [255, 255, 255, 255]

/-- The 511 bytes before the check byte. -/
def imageBody (page stamp : Nat) : Nat → List (List Byte) → List Byte
  | _, [] => []
  | k, slot :: rest => slot ++ slotTail page stamp k ++ imageBody page stamp (k + 1) rest

/-- The image of a WRITE program: sixteen slots, marker, stamp and check byte (R13). -/
def writeImage (page stamp : Nat) (slots : List (List Byte)) : List Byte :=
  let body := imageBody page stamp 0 slots
  body ++ [checkByte body]

/-- The image of an ERASE program: all 255 (R16). -/
def eraseImage : List Byte := List.replicate Config.pageBytes 255

/-! ### Page states and credential slots -/

/-- Is the page BAD? Before the scan there is no list and nothing is used (R17). -/
def StoreBlock.bad (st : StoreBlock) (p : Nat) : Bool :=
  match st.badPages with
  | none => true
  | some ps => ps.contains p

/-- The count of BAD credential pages (R2). -/
def StoreBlock.badCredential (st : StoreBlock) : Nat :=
  ((st.badPages.getD []).filter fun p => p < Config.credentialPages).length

/-- The count of BAD policy pages (R2). -/
def StoreBlock.badPolicy (st : StoreBlock) : Nat :=
  ((st.badPages.getD []).filter fun p => Config.credentialPages ≤ p).length

/-- R5: the home page: the exclusive-or of bits 0 to 10, 11 to 21 and 22 to 31. -/
def homePage (badge : Badge) : Nat :=
  ((badge.extractLsb' 0 11) ^^^ (badge.extractLsb' 11 11) ^^^ ((badge.extractLsb' 22 10).setWidth 11)).toNat

/-- R5: the probe range, in probe order. -/
def probeRange (badge : Badge) : List Nat :=
  (List.range 4).map fun i => (homePage badge + i) % Config.credentialPages

/-- The slots of the probe range in probe order (R5). -/
def probeSlots (badge : Badge) : List (Nat × Nat) :=
  (probeRange badge).flatMap fun p => (List.range 16).map fun k => (p, k)

/-- The record of a slot in use by its bytes, lying in its badge's probe range (R3, R19). -/
def rawRecord (m : List Host.Cell) (p k : Nat) : Option Credential :=
  match decodeCredential (slotRead m p k) with
  | some r => if p ∈ probeRange r.badge then some r else none
  | none => none

/-- The record of a slot in use: not on a BAD page (R2), not made free by the scan (R19). -/
def StoreBlock.record (st : StoreBlock) (p k : Nat) : Option Credential :=
  if st.bad p || st.freed.contains (p, k) then none else rawRecord st.cells p k

/-- The number of slots in use on a page, none on a BAD page (R2, R14). -/
def StoreBlock.pageInUse (st : StoreBlock) (p : Nat) : Nat :=
  ((List.range 16).filter fun k => (st.record p k).isSome).length

/-- The outcomes of a lookup (R6). -/
inductive Lookup where
  | found (r : Credential) (page slot : Nat)
  | missingBad
  | missing
  | inProgram
  deriving DecidableEq, Repr

/-- Is the page under program? (R13) -/
def StoreBlock.underProgram (st : StoreBlock) (p : Nat) : Bool :=
  match st.programmer with
  | some g => g.page = p
  | none => false

/-- The first matching slot in probe order, examining slots in use on GOOD pages (R6). -/
def StoreBlock.search (st : StoreBlock) (badge : Badge) : Option (Credential × Nat × Nat) :=
  (probeSlots badge).findSome? fun x =>
    match st.record x.1 x.2 with
    | some r => if r.badge = badge then some (r, x.1, x.2) else none
    | none => none

/-- R6: what the pages of the probe range answer. A host request gets this answer as it stands: it reaches the store
only while no program is in flight. -/
def StoreBlock.answer (st : StoreBlock) (badge : Badge) : Lookup :=
  match st.search badge with
  | some (r, p, k) => .found r p k
  | none => if (probeRange badge).any st.bad then .missingBad else .missing

/-- R6, R13: the lookup. -/
def StoreBlock.lookup (st : StoreBlock) (badge : Badge) : Lookup :=
  if (probeRange badge).any st.underProgram then .inProgram else st.answer badge

/-- R7: the first free slot in probe order on a GOOD page. -/
def StoreBlock.firstFree (st : StoreBlock) (badge : Badge) : Option (Nat × Nat) :=
  (probeSlots badge).find? fun x => !st.bad x.1 && (st.record x.1 x.2).isNone

/-- The sixteen slots of a credential page's current GOOD content, with one slot changed (R7 to R9). -/
def StoreBlock.credentialSlots (st : StoreBlock) (p k : Nat) (new : List Byte) : List (List Byte) :=
  (List.range 16).map fun j =>
    if j = k then new
    else
      match st.record p j with
      | some r => encodeCredential r
      | none => freeSlot

/-! ### Policy pages (R10, R11) -/

/-- Slot `k` of policy page `p` as the working copies give it; unused and fixed slots are all 255 (R10, R11). -/
def Policy.slot (t : Policy) (p k : Nat) : List Byte :=
  let n := 16 * (p - 2048) + k
  if p < 2064 then
    if h' : n < 256 then encodeGroup (t.groups.get ⟨n, h'⟩) else freeSlot
  else if p < 2068 then
    if n = 256 then freeSlot
    else if h' : n - 256 < 64 then encodeProfile (t.profiles.get ⟨n - 256, h'⟩) else freeSlot
  else if p < 2076 then
    if h' : n - 320 < 128 then encodeTenant (t.tenants.get ⟨n - 320, h'⟩) else freeSlot
  else if p < 2084 then
    if h' : n - 448 < 128 then encodeFloor (t.floors.get ⟨n - 448, h'⟩) else freeSlot
  else if p = 2084 then
    if h' : k < 4 then encodeBank (t.banks.get ⟨k, h'⟩)
    else if k = 4 then encodeSite t.ticketLife
    else freeSlot
  else if p = 2085 then
    if h' : k < 16 then encodeReader (t.readers.get ⟨k, h'⟩) else freeSlot
  else freeSlot

/-- The sixteen slots of a policy page from the working copies (R11). -/
def Policy.pageSlots (t : Policy) (p : Nat) : List (List Byte) := (List.range 16).map (t.slot p)

/-! ### The start-up scan (R17 to R20) -/

/-- The BAD pages, in rising order (R18). -/
def scanBad (m : List Host.Cell) : List Nat := (List.range Config.pages).filter fun p => !judgeGood m p

/-- R19: of two slots in use that hold the same badge number, the one kept: the page with the greater write stamp, and
on equal stamps the earlier in probe order (`i` is the place in the probe range's slots). No stamp counts as none
greater (log 8). -/
def keptBefore (stampA placeA stampB placeB : Nat) : Bool := stampB < stampA || (stampA = stampB && placeA < placeB)

/-- The rival slots of a badge on GOOD pages: place in probe order, stamp, page and slot. -/
def rivals (m : List Host.Cell) (bad : List Nat) (badge : Badge) : List (Nat × Nat × Nat × Nat) :=
  ((probeSlots badge).zipIdx.filter fun x =>
      !bad.contains x.1.1 && ((rawRecord m x.1.1 x.1.2).any fun r => r.badge = badge)).map
    fun x => (x.2, (pageStamp m x.1.1).getD 0, x.1.1, x.1.2)

/-- R19: does the scan keep this slot in use against every rival? -/
def scanKeeps (m : List Host.Cell) (bad : List Nat) (p k : Nat) (r : Credential) : Bool :=
  let all := rivals m bad r.badge
  all.all fun x =>
    (x.2.2.1 = p && x.2.2.2 = k) ||
      all.any fun y => y.2.2.1 = p && y.2.2.2 = k && keptBefore y.2.1 y.1 x.2.1 x.1

/-- Slots of GOOD credential pages that hold a record the scan makes free because a rival is kept (R19). -/
def scanFreed (m : List Host.Cell) (bad : List Nat) : List (Nat × Nat) :=
  (List.range Config.credentialPages).flatMap fun p =>
    if bad.contains p then []
    else
      ((List.range 16).filter fun k =>
        match rawRecord m p k with
        | some r => !scanKeeps m bad p k r
        | none => false).map fun k => (p, k)

/-- R18: the write stamp counter after the scan: one more than the greatest stamp on a GOOD programmed page, 1 if
there is none, and no more than the greatest stamp there is. A stamp that an interrupted program took comes again when
no GOOD page keeps it, against R13's remark that it is not reused (DESIGN CHOICE, log 36). -/
def scanStamp (m : List Host.Cell) (bad : List Nat) : Nat :=
  let stamps := ((List.range Config.pages).filter fun p => !bad.contains p).filterMap fun p => pageStamp m p
  min Config.maxStamp (stamps.foldl max 0 + 1)

/-- The slots in use on the credential pages (R2). -/
def StoreBlock.countInUse (st : StoreBlock) : Nat :=
  ((List.range Config.credentialPages).map st.pageInUse).sum

/-- The store after the scan (R18, R19). -/
def scanStore (m : List Host.Cell) : StoreBlock :=
  let bad := scanBad m
  let st : StoreBlock :=
    { cells := m, badPages := some bad, freed := scanFreed m bad, slotsInUse := 0, stamp := some (scanStamp m bad),
      programmer := none }
  { st with slotsInUse := st.countInUse }

/-- A policy slot's bytes as the scan reads them: a BAD page's slots read as erased (R2, R20). -/
def policySlotRead (m : List Host.Cell) (bad : List Nat) (p k : Nat) : List Byte :=
  if bad.contains p then freeSlot else slotRead m p k

/-- R20: every working copy from its slot. -/
def scanPolicy (m : List Host.Cell) (bad : List Nat) : Policy :=
  let item := fun (base n : Nat) => policySlotRead m bad (base + n / 16) (n % 16)
  { groups := Vector.ofFn fun i => loadGroupSlot (item 2048 i.val),
    profiles := Vector.ofFn fun i => if i.val = 0 then [] else loadProfileSlot (item 2064 i.val),
    tenants := Vector.ofFn fun i => loadTenantSlot (item 2068 i.val),
    floors := Vector.ofFn fun i => loadFloorSlot (item 2076 i.val),
    banks := Vector.ofFn fun i => loadBankSlot (policySlotRead m bad 2084 i.val),
    readers := Vector.ofFn fun i => loadReaderSlot (policySlotRead m bad 2085 i.val),
    ticketLife := loadSiteSlot (policySlotRead m bad 2084 4) }

end Sys2Proof.Machine
end

