-- ==== Sys2Proof/Machine/Requests.lean ====
section
/-! DEFINITION. The host's requests (R162 to R172): the check each chapter makes when a request is taken, what is
carried out at once, the program that is begun, and the framing rules of the Host Message Port. -/

namespace Sys2Proof.Machine

/-! ### Working copies by themselves -/

/-- A working copy changed by a job, without any further effect (R12). -/
def Policy.apply (t : Policy) : Job → Policy
  | .credential | .erase => t
  | .group n g => { t with groups := t.groups.set n g }
  | .profile n p => { t with profiles := t.profiles.set n p }
  | .tenant n r => { t with tenants := t.tenants.set n r }
  | .floor f r => { t with floors := t.floors.set f r }
  | .bank b r => { t with banks := t.banks.set b r }
  | .reader p r => { t with readers := t.readers.set p r }
  | .site life => { t with ticketLife := life }
  | .bankMode b m => { t with banks := t.banks.set b { t.banks.get b with storedMode := m } }
  | .carService b c w =>
    { t with banks := t.banks.set b { t.banks.get b with withdrawn := putCar (t.banks.get b).withdrawn c w } }

/-- The policy page that holds a job's item (R10). -/
def Job.page : Job → Nat
  | .group n _ => 2048 + n.val / 16
  | .profile n _ => 2064 + n.val / 16
  | .tenant n _ => 2068 + n.val / 16
  | .floor f _ => 2076 + f.val / 16
  | .bank .. | .site .. | .bankMode .. | .carService .. => 2084
  | .reader .. => 2085
  | .credential | .erase => 0

/-! ### What a request comes to -/

/-- The outcome of a request at its taking (R164). -/
inductive Verdict where
  /-- Refused: a status and no change. -/
  | refuse (status : ReplyStatus)
  /-- Carried out at once. -/
  | done (s : State) (body : ReplyBody)
  /-- A WRITE program of a page with these sixteen slots begins. -/
  | write (page : Nat) (slots : List (List Byte)) (job : Job)
  /-- An ERASE program of a page begins. -/
  | erase (page : Nat)

/-- The program of a policy item: the page's image from the working copies with the one item changed (R11). -/
def State.policyProgram (s : State) (job : Job) : Verdict :=
  .write job.page ((s.policy.apply job).pageSlots job.page) job

/-- A checked item's program, BAD_VALUE when the check refuses. -/
def State.policyOr (s : State) (job : Option Job) : Verdict :=
  match job with
  | none => .refuse .badValue
  | some j => s.policyProgram j

/-- R36: the calendar a SET-CLOCK gives; `none` is BAD_VALUE. -/
def clockSet (now : Clock) (day : BitVec 16) (weekday : Byte) (minute : BitVec 16) (second dayType pendingType : Byte) :
    Option Calendar :=
  let pend : Option (Option DayType) :=
    if pendingType = 255 then some none else (DayType.ofCode pendingType).map some
  if h : weekday.toNat < 7 ∧ minute.toNat < 1440 ∧ second.toNat < 60 then
    match DayType.ofCode dayType, pend with
    | some dt, some pt =>
      some { isSet := true, day := day, weekday := ⟨weekday.toNat, h.1⟩, minute := ⟨minute.toNat, h.2.1⟩,
             second := ⟨second.toNat, h.2.2⟩, dayType := dt, pendingType := pt, lastAdvance := now }
    | _, _ => none
  else none

/-- R36 SET-CLOCK. -/
def State.judgeSetClock (s : State) (day : BitVec 16) (weekday : Byte) (minute : BitVec 16)
    (second dayType pendingType : Byte) : Verdict :=
  match clockSet s.now day weekday minute second dayType pendingType with
  | some c => .done (s.setCalendar c) .empty
  | none => .refuse .badValue

/-- R37 SET-NEXT-DAY. -/
def State.judgeSetNextDay (s : State) (dayType : Byte) : Verdict :=
  match DayType.ofCode dayType with
  | some d => .done (s.setCalendar { s.calendar with pendingType := some d }) .empty
  | none => .refuse .badValue

/-- R34 LOAD-SITE. -/
def State.judgeLoadSite (s : State) (life : BitVec 16) : Verdict := s.policyProgram (.site (clampLife life.toNat))

/-- R27: every bank that the new served-bank set adds or removes is OUT. -/
def State.banksOut (s : State) (old new : BankSet) : Bool :=
  allBanks.all fun b => old.has b = new.has b || s.isOut b

/-- R27 LOAD-FLOOR. -/
def State.judgeLoadFloor (s : State) (floor c0 c1 c2 kind state banks : Byte) : Verdict :=
  match floorOf floor.toNat, checkFloor c0 c1 c2 kind state banks with
  | some f, some r =>
    if s.banksOut (s.floor f).banks r.banks then s.policyProgram (.floor f r) else .refuse .bankActive
  | _, _ => .refuse .badValue

/-- R30 LOAD-BANK: the withdrawn-car set and the stored mode are kept. A recall floor out of range is refused BAD_VALUE
also when the bank is not OUT (DESIGN CHOICE, log 42). -/
def State.judgeLoadBank (s : State) (bank carCount capacity floorTime : Byte) (stopTime : BitVec 16)
    (loadBias tripCap : Byte) (maxWait : BitVec 16) (contactTime fullThreshold recallFloor : Byte) : Verdict :=
  match bankOf bank.toNat with
  | none => .refuse .badValue
  | some b =>
    match checkBank carCount.toNat capacity.toNat floorTime.toNat stopTime.toNat loadBias.toNat tripCap.toNat
      maxWait.toNat contactTime.toNat fullThreshold.toNat recallFloor.toNat (s.bank b).withdrawn
      (s.bank b).storedMode with
    | none => .refuse .badValue
    | some r => if s.isOut b then s.policyProgram (.bank b r) else .refuse .bankActive

/-- R32 LOAD-READER. -/
def State.judgeLoadReader (s : State) (reader enabled home banks kind holdTime : Byte) : Verdict :=
  s.policyOr <|
    if h : reader.toNat < 16 then
      (checkReader enabled home banks kind holdTime).map fun r => .reader ⟨reader.toNat, h⟩ r
    else none

/-- R23 LOAD-GROUP. -/
def State.judgeLoadGroup (s : State) (group : BitVec 16) (floors : FloorSet) (profile flags : Byte) : Verdict :=
  s.policyOr <|
    if h : group.toNat < 256 then (checkGroup floors profile flags).map fun g => .group ⟨group.toNat, h⟩ g else none

/-- R24 LOAD-PROFILE: profile 0 and profiles of 64 and above are refused. -/
def State.judgeLoadProfile (s : State) (profile : Byte) (intervals : List (BitVec 32)) : Verdict :=
  s.policyOr <|
    if h : profile.toNat < 64 then
      if profile.toNat = 0 then none else (checkProfile intervals).map fun p => .profile ⟨profile.toNat, h⟩ p
    else none

/-- R26 LOAD-TENANT. -/
def State.judgeLoadTenant (s : State) (tenant : Byte) (floors : FloorSet) (state : Byte) : Verdict :=
  s.policyOr <|
    if h : tenant.toNat < 128 then (checkTenant floors state).map fun t => .tenant ⟨tenant.toNat, h⟩ t else none

/-- The program of a credential page with one slot changed (R7 to R9). -/
def State.credentialProgram (s : State) (p k : Nat) (slot : List Byte) : Verdict :=
  .write p (s.store.credentialSlots p k slot) .credential

/-- R7: placement of a record that passed R4. -/
def State.placeRecord (s : State) (r : Credential) : Verdict :=
  match s.store.answer r.badge with
  | .found _ p k => s.credentialProgram p k (encodeCredential r)
  | _ =>
    match s.store.firstFree r.badge with
    | some (p, k) => s.credentialProgram p k (encodeCredential r)
    | none => .refuse .noRoom

/-- R4, R7 ENROLL. -/
def State.judgeEnroll (s : State) (r : Option Credential) : Verdict :=
  match r with
  | none => .refuse .badValue
  | some r => s.placeRecord r

/-- A badge number that names no badge (R6). -/
def badBadge (badge : Badge) : Bool := badge.toNat = 0 || badge.toNat = 4294967295

/-- R6: a request that names an existing badge: BAD_VALUE, STORE_FAULT or NO_SUCH, or goes on with the record found. -/
def State.withBadge (s : State) (badge : Badge) (go : Credential → Nat → Nat → Verdict) : Verdict :=
  if badBadge badge then .refuse .badValue
  else
    match s.store.answer badge with
    | .found r p k => go r p k
    | .missing => .refuse .noSuch
    | .missingBad | .inProgram => .refuse .storeFault

/-- R8 REVOKE. -/
def State.judgeRevoke (s : State) (badge : Badge) : Verdict :=
  s.withBadge badge fun _ p k => s.credentialProgram p k freeSlot

/-- R9 SET-BADGE-STATE. An undefined state is refused BAD_VALUE before the lookup (DESIGN CHOICE, log 42). -/
def State.judgeSetBadgeState (s : State) (badge : Badge) (state : Byte) : Verdict :=
  match BadgeState.ofCode state with
  | none => .refuse .badValue
  | some st => s.withBadge badge fun r p k => s.credentialProgram p k (encodeCredential { r with state := st })

/-- R16: a guarded policy page whose guard does not hold. -/
def State.eraseGuarded (s : State) (p : Nat) : Bool :=
  (p = 2084 && allBanks.any fun b => !s.isOut b) ||
    (2076 ≤ p && p ≤ 2083 &&
      allFloors.any fun f => 2076 + f.val / 16 = p && allBanks.any fun b => s.serves b f && !s.isOut b)

/-- R16 ERASE-PAGE. -/
def State.judgeErasePage (s : State) (page : BitVec 16) : Verdict :=
  if Config.pages ≤ page.toNat then .refuse .badValue
  else if s.eraseGuarded page.toNat then .refuse .bankActive
  else .erase page.toNat

/-- R150 SET-BANK-MODE. An undefined mode is refused BAD_VALUE also when the recall input is asserted (DESIGN CHOICE, log
42). -/
def State.judgeSetBankMode (s : State) (bank mode : Byte) : Verdict :=
  match bankOf bank.toNat, BankMode.ofCode mode with
  | some b, some m =>
    if m ≠ .fireRecall ∧ s.pins.rcl.get b then .refuse .inputAsserted else s.policyProgram (.bankMode b m)
  | _, _ => .refuse .badValue

/-- R160 SET-CAR-SERVICE. -/
def State.judgeSetCarService (s : State) (bank car action : Byte) : Verdict :=
  match bankOf bank.toNat, carOf car.toNat, carActionOf action with
  | some b, some c, some w => s.policyProgram (.carService b c w)
  | _, _, _ => .refuse .badValue

/-- R29 SET-FLOOR-STATE. -/
def State.judgeSetFloorState (s : State) (floor state : Byte) : Verdict :=
  match floorOf floor.toNat, FloorState.ofCode state with
  | some f, some st => s.policyProgram (.floor f { s.floor f with state := st })
  | _, _ => .refuse .badValue

/-- R177 SET-REPORTS: bits 10 to 15 name undefined kinds. -/
def State.judgeSetReports (s : State) (kinds : BitVec 16) : Verdict :=
  if 1024 ≤ kinds.toNat then .refuse .badValue
  else .done (s.setHost { s.host with enables := kinds.setWidth 10 }) .empty

/-- R169 QUERY-BADGE. -/
def State.judgeQueryBadge (s : State) (badge : Badge) : Verdict :=
  s.withBadge badge fun r p k =>
    .done s (.badge { record := r, page := p, slot := k, permitted := s.permitted r, override := s.overrideFlag r,
                      ticket := s.ticketOf badge })

/-- The place of a car in its line's dirty queue, counted from 1 (R170). -/
def Line.place (l : Line) (c : CarNo) : Option Nat := if c ∈ l.queue then some (l.queue.idxOf c + 1) else none

/-- R170: the body of a QUERY-CAR reply. -/
def State.carView (s : State) (b : Bank) (c : CarNo) : CarView :=
  { car := s.car b c, pendingDrops := s.pendingDrops b c, committed := s.committed b c,
    queuePlace := (s.line b).place c }

/-- R170 QUERY-CAR. -/
def State.judgeQueryCar (s : State) (bank car : Byte) : Verdict :=
  match bankOf bank.toNat, carOf car.toNat with
  | some b, some c => .done s (.car (s.carView b c))
  | _, _ => .refuse .badValue

/-- R171 QUERY-BOOKINGS: the total and at most 10 bookings from the start index. -/
def State.judgeQueryBookings (s : State) (bank car start : Byte) : Verdict :=
  match bankOf bank.toNat, carOf car.toNat with
  | some b, some c =>
    let ks := serialOrder (s.carBookings b c)
    .done s (.bookings ks.length ((ks.drop start.toNat).take 10))
  | _, _ => .refuse .badValue

/-- R172: the body of a QUERY-PART reply. -/
def State.partView (s : State) : PartView :=
  { part := s.part.state, clock := s.now, calendar := s.calendar, slotsInUse := s.store.slotsInUse,
    badCredential := s.store.badCredential, badPolicy := s.store.badPolicy, bookings := s.disp.bookings.length,
    tickets := s.disp.tickets.length, reports := s.host.queue.length, enables := s.host.enables,
    banks := allBanks.map fun b => (s.mode b, s.bank b, s.pins.rcl.get b),
    lines := allBanks.map fun l =>
      ((s.line l).state, (s.line l).faultMark, (s.line l).queue.length, s.pins.lrq.get l) }

/-- What a request comes to at its taking (R164). -/
def State.judge (s : State) : Request → Verdict
  | .setClock day weekday minute second dayType pendingType =>
    s.judgeSetClock day weekday minute second dayType pendingType
  | .setNextDay dayType => s.judgeSetNextDay dayType
  | .loadSite life => s.judgeLoadSite life
  | .loadFloor floor c0 c1 c2 kind state banks => s.judgeLoadFloor floor c0 c1 c2 kind state banks
  | .loadBank bank carCount capacity floorTime stopTime loadBias tripCap maxWait contactTime fullThreshold recallFloor =>
    s.judgeLoadBank bank carCount capacity floorTime stopTime loadBias tripCap maxWait contactTime fullThreshold
      recallFloor
  | .loadReader reader enabled home banks kind holdTime => s.judgeLoadReader reader enabled home banks kind holdTime
  | .loadGroup group floors profile flags => s.judgeLoadGroup group floors profile flags
  | .loadProfile profile intervals => s.judgeLoadProfile profile intervals
  | .loadTenant tenant floors state => s.judgeLoadTenant tenant floors state
  | .enroll badge state tenant units groups defaultFloor personal validFrom hasUntil validUntil =>
    s.judgeEnroll
      (checkCredential badge state tenant units groups defaultFloor personal validFrom hasUntil validUntil)
  | .revoke badge => s.judgeRevoke badge
  | .setBadgeState badge state => s.judgeSetBadgeState badge state
  | .erasePage page => s.judgeErasePage page
  | .setBankMode bank mode => s.judgeSetBankMode bank mode
  | .setCarService bank car action => s.judgeSetCarService bank car action
  | .setFloorState floor state => s.judgeSetFloorState floor state
  | .setReports kinds => s.judgeSetReports kinds
  | .queryBadge badge => s.judgeQueryBadge badge
  | .queryCar bank car => s.judgeQueryCar bank car
  | .queryBookings bank car start => s.judgeQueryBookings bank car start
  | .queryPart => .done s (.part s.partView)
  | .restart => .done s .empty
  | .undefinedType _ => .refuse .badValue

/-! ### Taking a request (R163, R164) -/

/-- R13: a WRITE program begins; the image takes the write stamp counter, which increases up to its end. -/
def StoreBlock.beginWrite (st : StoreBlock) (page : Nat) (slots : List (List Byte)) (job : Job) : StoreBlock :=
  let stamp := st.stamp.getD 1
  { st with
    programmer := some { page := page, image := writeImage page stamp slots, erase := false, job := job },
    stamp := some (min Config.maxStamp (stamp + 1)) }

/-- R16: an ERASE program begins; it takes no stamp. -/
def StoreBlock.beginErase (st : StoreBlock) (page : Nat) : StoreBlock :=
  { st with programmer := some { page := page, image := eraseImage, erase := true, job := .erase } }

/-- The request state of the port. -/
def State.setRequest (s : State) (r : RequestState) : State := s.setHost { s.host with request := r }

/-- The reply of the request in hand is built (R164). -/
def State.reply (s : State) (type tag : Byte) (status : ReplyStatus) (body : ReplyBody) : State :=
  s.setHost (s.host.reply type tag status body)

/-- R164: a request is taken and executes. -/
def State.takeRequest (s : State) (tag : Byte) (r : Request) : State :=
  match s.judge r with
  | .refuse status => s.reply r.type tag status .empty
  | .done s' body => s'.reply r.type tag .done body
  | .write page slots job => (s.setStore (s.store.beginWrite page slots job)).setRequest (.executing r.type tag)
  | .erase page => (s.setStore (s.store.beginErase page)).setRequest (.executing r.type tag)

/-- The host receiver hunts for a lead byte again. -/
def State.hostHunt (s : State) : State := s.setHost { s.host with rx := [] }

/-- May a request be taken? (R163) -/
def State.takes (s : State) : Bool := s.running && s.host.request = .idle

/-- R163: a good frame completes: the request is taken, or a BUSY becomes owed, or the frame is discarded. -/
def State.goodFrame (s : State) (tag : Byte) (r : Request) : State :=
  if s.takes then s.takeRequest tag r
  else
    match s.host.owedBusy with
    | none => s.setHost { s.host with owedBusy := some (r.type, tag) }
    | some _ => s

/-- A good frame completes on the host line, and the transmitter chooses. -/
def State.hostFrame (s : State) (tag : Byte) (r : Request) : State := (s.hostHunt.goodFrame tag r).choose

/-! ### Meanings of the request commands -/

/-- SET_CLOCK (R36). -/
def execSetClock (tag : Byte) (day : BitVec 16) (weekday : Byte) (minute : BitVec 16) (second dayType pendingType : Byte)
    (s : State) : Host.Outcome State Fault Refusal :=
  .next (s.hostFrame tag (.setClock day weekday minute second dayType pendingType))

/-- SET_NEXT_DAY (R37). -/
def execSetNextDay (tag dayType : Byte) (s : State) : Host.Outcome State Fault Refusal :=
  .next (s.hostFrame tag (.setNextDay dayType))

/-- LOAD_SITE (R34). -/
def execLoadSite (tag : Byte) (life : BitVec 16) (s : State) : Host.Outcome State Fault Refusal :=
  .next (s.hostFrame tag (.loadSite life))

/-- LOAD_FLOOR (R27). -/
def execLoadFloor (tag floor label0 label1 label2 kind state banks : Byte) (s : State) :
    Host.Outcome State Fault Refusal :=
  .next (s.hostFrame tag (.loadFloor floor label0 label1 label2 kind state banks))

/-- LOAD_BANK (R30). -/
def execLoadBank (tag bank carCount capacity floorTime : Byte) (stopTime : BitVec 16) (loadBias tripCap : Byte)
    (maxWait : BitVec 16) (contactTime fullThreshold recallFloor : Byte) (s : State) :
    Host.Outcome State Fault Refusal :=
  .next (s.hostFrame tag
    (.loadBank bank carCount capacity floorTime stopTime loadBias tripCap maxWait contactTime fullThreshold recallFloor))

/-- LOAD_READER (R32). -/
def execLoadReader (tag reader enabled home banks kind holdTime : Byte) (s : State) :
    Host.Outcome State Fault Refusal :=
  .next (s.hostFrame tag (.loadReader reader enabled home banks kind holdTime))

/-- LOAD_GROUP (R23). -/
def execLoadGroup (tag : Byte) (group : BitVec 16) (floors : FloorSet) (profile flags : Byte) (s : State) :
    Host.Outcome State Fault Refusal :=
  .next (s.hostFrame tag (.loadGroup group floors profile flags))

/-- LOAD_PROFILE (R24). -/
def execLoadProfile (tag profile : Byte) (intervals : List (BitVec 32)) (s : State) :
    Host.Outcome State Fault Refusal :=
  .next (s.hostFrame tag (.loadProfile profile intervals))

/-- LOAD_TENANT (R26). -/
def execLoadTenant (tag tenant : Byte) (floors : FloorSet) (state : Byte) (s : State) :
    Host.Outcome State Fault Refusal :=
  .next (s.hostFrame tag (.loadTenant tenant floors state))

/-- ENROLL (R4, R7). -/
def execEnroll (tag : Byte) (badge : Badge) (state tenant units : Byte) (groups : List Byte) (defaultFloor : Byte)
    (personal : List Byte) (validFrom : BitVec 16) (hasUntil : Byte) (validUntil : BitVec 16) (s : State) :
    Host.Outcome State Fault Refusal :=
  .next (s.hostFrame tag
    (.enroll badge state tenant units groups defaultFloor personal validFrom hasUntil validUntil))

/-- REVOKE (R8). -/
def execRevoke (tag : Byte) (badge : Badge) (s : State) : Host.Outcome State Fault Refusal :=
  .next (s.hostFrame tag (.revoke badge))

/-- SET_BADGE_STATE (R9). -/
def execSetBadgeState (tag : Byte) (badge : Badge) (state : Byte) (s : State) : Host.Outcome State Fault Refusal :=
  .next (s.hostFrame tag (.setBadgeState badge state))

/-- ERASE_PAGE (R16). -/
def execErasePage (tag : Byte) (page : BitVec 16) (s : State) : Host.Outcome State Fault Refusal :=
  .next (s.hostFrame tag (.erasePage page))

/-- SET_BANK_MODE (R150). -/
def execSetBankMode (tag bank mode : Byte) (s : State) : Host.Outcome State Fault Refusal :=
  .next (s.hostFrame tag (.setBankMode bank mode))

/-- SET_CAR_SERVICE (R160). -/
def execSetCarService (tag bank car action : Byte) (s : State) : Host.Outcome State Fault Refusal :=
  .next (s.hostFrame tag (.setCarService bank car action))

/-- SET_FLOOR_STATE (R29). -/
def execSetFloorState (tag floor state : Byte) (s : State) : Host.Outcome State Fault Refusal :=
  .next (s.hostFrame tag (.setFloorState floor state))

/-- SET_REPORTS (R177). -/
def execSetReports (tag : Byte) (kinds : BitVec 16) (s : State) : Host.Outcome State Fault Refusal :=
  .next (s.hostFrame tag (.setReports kinds))

/-- QUERY_BADGE (R169). -/
def execQueryBadge (tag : Byte) (badge : Badge) (s : State) : Host.Outcome State Fault Refusal :=
  .next (s.hostFrame tag (.queryBadge badge))

/-- QUERY_CAR (R170). -/
def execQueryCar (tag bank car : Byte) (s : State) : Host.Outcome State Fault Refusal :=
  .next (s.hostFrame tag (.queryCar bank car))

/-- QUERY_BOOKINGS (R171). -/
def execQueryBookings (tag bank car start : Byte) (s : State) : Host.Outcome State Fault Refusal :=
  .next (s.hostFrame tag (.queryBookings bank car start))

/-- QUERY_PART (R172). -/
def execQueryPart (tag : Byte) (s : State) : Host.Outcome State Fault Refusal := .next (s.hostFrame tag .queryPart)

/-- RESTART (R167): the reply DONE is built; the reset comes with its last byte (execReplySent). -/
def execRestart (tag : Byte) (s : State) : Host.Outcome State Fault Refusal := .next (s.hostFrame tag .restart)

/-- UNDEFINED_REQUEST_TYPE (R162): taken and answered BAD_VALUE with its type and tag. -/
def execUndefinedRequestType (type tag : Byte) (s : State) : Host.Outcome State Fault Refusal :=
  .next (s.hostFrame tag (.undefinedType type))

/-- One byte on the host line: a complete frame is taken by R163 or discarded (R162). -/
def State.hostByte (s : State) (b : Byte) : State :=
  match hostRxByte s.host.rx b with
  | .partly rx => s.setHost { s.host with rx := rx }
  | .frame bytes =>
    match parseHostFrame bytes with
    | none => s.hostHunt
    | some (tag, r) => s.hostFrame tag r

/-- HOST_PARTIAL_FRAME_TIMEOUT (R162): the bytes arrive, then the gap discards the partial frame. -/
def execHostPartialFrameTimeout (bytes : List Byte) (s : State) : Host.Outcome State Fault Refusal :=
  .next (bytes.foldl State.hostByte s).hostHunt

end Sys2Proof.Machine
end

