-- ==== Sys2Proof/Machine/Completion.lean ====
section
/-! DEFINITION. The completion of a page program (R12, R14, R15): the page's bytes and state, the effects of the
request, the reload of a port (R58), and the announcement that wakes the DEFERRED ports (R56). -/

namespace Sys2Proof.Machine

/-! ### The page -/

/-- Remove a page from the BAD list: it becomes GOOD (R14). -/
def StoreBlock.markGood (st : StoreBlock) (p : Nat) : StoreBlock :=
  { st with badPages := st.badPages.map fun l => l.filter fun x => x ≠ p }

/-- Put a page number among others in rising order, once. -/
def insertPage (p : Nat) : List Nat → List Nat
  | [] => [p]
  | x :: xs => if p < x then p :: x :: xs else if p = x then x :: xs else x :: insertPage p xs

/-- A page becomes BAD (R15). -/
def StoreBlock.markBad (st : StoreBlock) (p : Nat) : StoreBlock :=
  { st with badPages := st.badPages.map fun l => insertPage p l }

/-- The slots in use that the count holds for a page: none for a BAD page and none in the policy area (R2, R14). -/
def StoreBlock.held (st : StoreBlock) (p : Nat) : Nat := if p < Config.credentialPages then st.pageInUse p else 0

/-- R14: the page holds the image and is GOOD, and the count of slots in use follows. -/
def StoreBlock.complete (st : StoreBlock) (g : Program) : StoreBlock :=
  let st1 : StoreBlock :=
    { st with
      cells := Store.writePage st.cells g.page g.image,
      freed := st.freed.filter fun x => x.1 ≠ g.page,
      programmer := none }
  let st2 := st1.markGood g.page
  { st2 with slotsInUse := st.slotsInUse + st2.held g.page - st.held g.page }

/-- R15: the page is BAD and its content counts as absent; its bytes are the open page `n` (log 6). -/
def StoreBlock.spoil (st : StoreBlock) (n : Nat) (g : Program) : StoreBlock :=
  { st.markBad g.page with
    cells := Store.writePage st.cells g.page (openPage n g.page),
    slotsInUse := st.slotsInUse - st.held g.page,
    programmer := none }

/-! ### Ports -/

/-- R56: a DEFERRED port becomes PENDING. -/
def Port.wake (p : Port) : Port := if p.state = .deferred then { p with state := .pending } else p

/-- R14, R15, R56: the store announces a completion. -/
def State.wakePorts (s : State) : State := s.setPorts (s.ports.map Port.wake)

/-- The state that a reader entry gives an idle port (R58, R59): IDLE when enabled, DISABLED when not. -/
def heldState (enabled : Bool) : PortState := if enabled then .idle else .disabled

/-- Is the port's presentation taken by the engine? -/
def Port.isTaken (p : Port) : Bool := p.slot.any fun x => x.taken

/-- R58: a port reloaded with an entry that is enabled or not. -/
def Port.reloaded (p : Port) (enabled : Bool) : Port :=
  match p.state with
  | .disabled | .idle | .deferred => { p with memory := none, slot := none, state := heldState enabled }
  | .pending =>
    if p.isTaken then { p with memory := none, reload := some enabled }
    else { p with memory := none, slot := none, state := heldState enabled }
  | .answering => { p with memory := none, reload := some enabled }

/-- R58: reload one port from the working copy of its reader. -/
def State.reloadPort (s : State) (p : PortNo) : State := s.setPort p ((s.port p).reloaded (s.reader p).enabled)

/-! ### The effects of a completed request (R12) -/

/-- R151: a completed SET-BANK-MODE; the stored mode is already written. -/
def State.modeCompleted (s : State) (b : Bank) (m : BankMode) : State :=
  if s.pins.rcl.get b = true ∧ m ≠ .fireRecall then s
  else if s.mode b = some m then s
  else s.changeMode b m false

/-- The working copy of a job's item takes its new value (R12). -/
def State.applyJob (s : State) (j : Job) : State := s.setPolicy (s.policy.apply j)

/-- R16: every group, profile or tenant of an erased page takes its erased default. -/
def Policy.eraseItems (t : Policy) (p : Nat) : Policy :=
  { t with
    groups := Vector.ofFn fun i => if 2048 + i.val / 16 = p then Group.erased else t.groups.get i,
    profiles := Vector.ofFn fun i => if 2064 + i.val / 16 = p then [] else t.profiles.get i,
    tenants := Vector.ofFn fun i => if 2068 + i.val / 16 = p then Tenant.erased else t.tenants.get i }

/-- The floors that a policy page holds (R10). -/
def floorsOnPage (p : Nat) : List Floor := allFloors.filter fun f => 2076 + f.val / 16 = p

/-- The cars of a bank that are WITHDRAWN, restored in car order (R161). -/
def State.restoreAll (s : State) (b : Bank) : State :=
  allCars.foldl (fun s c => if (s.car b c).service = .withdrawn then s.withdrawCar b c false else s) s

/-- R16, R161: page 2084 erased: every bank's record and the ticket life take their defaults, every WITHDRAWN car is
restored, and the car counts take effect, in this order (log 18). Modes in force stay. -/
def State.eraseBanks (s : State) : State :=
  let s1 := s.setPolicy { s.policy with banks := Vector.replicate 4 BankRec.erased, ticketLife := 600 }
  allBanks.foldl (fun t b => (t.restoreAll b).recount b) s1

/-- R16: page 2085 erased: every reader takes its default and every port is reloaded. -/
def State.eraseReaders (s : State) : State :=
  allPorts.foldl State.reloadPort
    (s.setPolicy { s.policy with readers := Vector.replicate 16 ReaderRec.erased })

/-- R16: the effects of an erased page on the working copies. -/
def State.erasedPage (s : State) (p : Nat) : State :=
  if 2048 ≤ p ∧ p < 2076 then s.setPolicy (s.policy.eraseItems p)
  else if 2076 ≤ p ∧ p < 2084 then s.changeFloors ((floorsOnPage p).map fun f => (f, FloorRec.erased))
  else if p = 2084 then s.eraseBanks
  else if p = 2085 then s.eraseReaders
  else s

/-- R12: the effects of a completed program, by what the request changed. -/
def State.jobCompleted (s : State) (g : Program) : State :=
  match g.job with
  | .credential => s
  | .group .. | .profile .. | .tenant .. | .site .. => s.applyJob g.job
  | .floor f r => s.changeFloors [(f, r)]
  | .bank b _ => (s.applyJob g.job).recount b
  | .reader p _ => (s.applyJob g.job).reloadPort p
  | .bankMode b m => (s.applyJob g.job).modeCompleted b m
  | .carService b c w => s.changeWithdrawn b c w
  | .erase => s.erasedPage g.page

/-- The request in hand gets its reply at the completion (R164). -/
def State.completeRequest (s : State) (status : ReplyStatus) : State :=
  match s.host.request with
  | .executing type tag => s.reply type tag status .empty
  | .idle | .replying _ => s

/-! ### Meanings -/

/-- VERIFY_MATCH (R14, R12). With no program in flight there is nothing to complete (log 4). -/
def execVerifyMatch (s : State) : Host.Outcome State Fault Refusal :=
  match s.store.programmer with
  | none => .next s
  | some g =>
    let s1 := (s.setStore (s.store.complete g)).jobCompleted g
    .next ((s.closeCars s1).wakePorts.completeRequest .done).choose

/-- VERIFY_MISMATCH (R15). With no program in flight there is nothing to complete (log 4). -/
def execVerifyMismatch (s : State) : Host.Outcome State Fault Refusal :=
  match s.store.programmer with
  | none => .next s
  | some g =>
    let s1 := (s.setStore (s.store.spoil s.freeCount g)).setFree (s.freeCount + 1)
    .next (((s1.post .urgent (.storeFault g.page true)).wakePorts.completeRequest .storeFault)).choose

end Sys2Proof.Machine
end

