-- ==== Sys2Proof/Machine/Ports.lean ====
section
/-! DEFINITION. The Reader Ports (03_reader_ports, R43 to R59): arrivals, the repeat filter, the end of an answer,
the hand-back and the decided answer. -/

namespace Sys2Proof.Machine

/-! ### Answers -/

/-- A floor's label at this moment (R45). -/
def State.label (s : State) (f : Floor) : Label := (s.floor f).label

/-- R54: a repeat GRANT built from the memory. -/
def State.repeatGrant (s : State) (m : GrantMemory) : Answer :=
  .grant m.bank m.car (s.label m.dest) true (m.transfer.map s.label)

/-- An immediate answer goes to the reply path (R47). -/
def State.answer (s : State) (p : PortNo) (a : Answer) : State := s.setPort p ((s.port p).send a)

/-- An immediate answer that ends a tap: the port becomes ANSWERING (R50, R54). -/
def State.answerTap (s : State) (p : PortNo) (a : Answer) : State :=
  s.setPort p { (s.port p).send a with state := .answering }

/-! ### A PRESENT in IDLE (R50 to R55) -/

/-- R50 step 3: the requested floor; the outer option is a floor out of range at a kiosk. Byte 255 is an absent
floor (R178). -/
def requestedFloor (kind : ReaderKind) (floor : Byte) : Option (Option Floor) :=
  match kind with
  | .gate => some none
  | .kiosk => if floor = 255 then some none else (floorOf floor.toNat).map some

/-- R51: the presentation enters the slot. -/
def State.enterSlot (s : State) (p : PortNo) (badge : Badge) (floor : Option Floor) (supersedes : Option Nat) : State :=
  s.setPort p
    { s.port p with
      state := .pending,
      slot := some { pres := { port := p, badge := badge, floor := floor, supersedes := supersedes, arrival := s.now },
                     taken := false } }

/-- R54, R55: the repeat filter. -/
def State.repeatFilter (s : State) (p : PortNo) (badge : Badge) (floor : Option Floor) : State :=
  match (s.port p).memory with
  | none => s.enterSlot p badge floor none
  | some m =>
    if m.badge ≠ badge then s.enterSlot p badge floor none
    else if elapsed s.now m.time < 10 then s.answerTap p (s.repeatGrant m)
    else if elapsed s.now m.time < 10 * (s.reader p).holdTime then
      if floor = none ∨ floor = some m.dest then s.answerTap p (s.repeatGrant m)
      else s.enterSlot p badge floor (some m.booking)
    else s.enterSlot p badge floor none

/-- R50: a port-built DENY with its ROUTINE report. -/
def State.denyTap (s : State) (p : PortNo) (badge : Badge) : State :=
  (s.answerTap p (.deny .badRequest)).post .routine (.deny p badge .badRequest none none)

/-- R50: a PRESENT at an IDLE port of a RUNNING part. -/
def State.presentIdle (s : State) (p : PortNo) (badge : Badge) (floor : Byte) (kind : ReaderKind) : State :=
  if badBadge badge || kind ≠ (s.reader p).kind then s.denyTap p badge
  else
    match requestedFloor (s.reader p).kind floor with
    | none => s.denyTap p badge
    | some f => s.repeatFilter p badge f

/-! ### Arrivals (R47, R49, R50) -/

/-- A good PRESENT. An ANSWERING port's shifter is always sending (R50); with an empty one nothing happens (log 31). -/
def State.presentArrival (s : State) (p : PortNo) (badge : Badge) (floor : Byte) (kind : ReaderKind) : State :=
  if (s.port p).shifter.isSome then s
  else if !s.running then s.answer p .retry
  else
    match (s.port p).state with
    | .disabled | .answering => s
    | .pending | .deferred => s.answer p .retry
    | .idle => s.presentIdle p badge floor kind

/-- A good PING. -/
def State.pingArrival (s : State) (p : PortNo) : State :=
  if (s.port p).shifter.isSome then s
  else if s.running ∧ (s.port p).state = .disabled then s
  else s.answer p (.pong s.part.state)

/-- A good frame arrives. -/
def State.readerArrival (s : State) (p : PortNo) : ReaderFrame → State
  | .present badge floor kind => s.presentArrival p badge floor kind
  | .ping => s.pingArrival p

/-- The receiver waits for a new lead byte (R43). -/
def State.readerHunt (s : State) (p : PortNo) : State := s.setPort p { s.port p with rx := [] }

/-- A complete frame: an arrival when it is good, else discarded (R43). -/
def State.readerFrame (s : State) (p : PortNo) (f : Option ReaderFrame) : State :=
  match f with
  | none => s.readerHunt p
  | some f => (s.readerHunt p).readerArrival p f

/-- One byte on a reader line (R43). -/
def State.readerByte (p : PortNo) (s : State) (b : Byte) : State :=
  match readerRxByte (s.port p).rx b with
  | .partly rx => s.setPort p { s.port p with rx := rx }
  | .frame bytes => s.readerFrame p (parseReaderFrame bytes)

/-! ### The end of an answer (R47, R48) -/

/-- R48: the port state when an answer has been sent. -/
def Port.settle (p : Port) : Port :=
  if p.state = .answering ∧ p.shifter = none then
    { p with state := (p.reload.map heldState).getD .idle, reload := none }
  else p

/-- R47, R48: the shifter sends the last byte of its answer, and the buffer moves up. -/
def Port.shifterDone (p : Port) : Port := { p with shifter := p.buffer, buffer := none }.settle

/-! ### Outcomes of a decision (R56, R57, R59, R63) -/

/-- R56, R59: a presentation handed back becomes DEFERRED, or is discarded when the reload mark is set. -/
def Port.handBack (p : Port) (pres : Presentation) : Port :=
  match p.reload with
  | none => { p with state := .deferred, slot := some { pres := pres, taken := false } }
  | some e => { p with state := heldState e, slot := none, reload := none }

/-- R52, R57, R59: the memory of a decided GRANT, unless the reload mark names DISABLED. -/
def Port.remember (p : Port) (m : GrantMemory) : Port := if p.reload = some false then p else { p with memory := some m }

/-- R57: the slot is emptied and the decided answer goes to the reply path. -/
def Port.decided (p : Port) (a : Answer) : Port := { p with slot := none, state := .answering }.send a

/-! ### Meanings -/

/-- PRESENT (R50, R51, R54, R55). A declared kind that is neither KIOSK nor GATE makes the frame not good (R44). -/
def execPresent (port : PortNo) (badge : Badge) (floor kind : Byte) (s : State) : Host.Outcome State Fault Refusal :=
  .next (s.readerFrame port ((ReaderKind.ofCode kind).map fun k => .present badge floor k)).choose

/-- PING (R49, R50). -/
def execPing (port : PortNo) (s : State) : Host.Outcome State Fault Refusal :=
  .next (s.readerFrame port (some .ping)).choose

/-- READER_PARTIAL_FRAME_TIMEOUT (R43): the bytes arrive, then the gap discards the partial frame. -/
def execReaderPartialFrameTimeout (port : PortNo) (bytes : List Byte) (s : State) : Host.Outcome State Fault Refusal :=
  .next ((bytes.foldl (State.readerByte port) s).readerHunt port).choose

/-- REPLY_SHIFTER_DONE (R47, R48). With an empty shifter there is nothing to end (log 4). -/
def execReplyShifterDone (port : PortNo) (s : State) : Host.Outcome State Fault Refusal :=
  if (s.port port).shifter.isSome then .next (s.setPort port (s.port port).shifterDone) else .next s

end Sys2Proof.Machine
end

