-- ==== Sys2Proof/Machine/Engine.lean ====
section
/-! DEFINITION. The Authorization Engine (04_authorization, R60 to R78, with R119 to R125): the taking of a
presentation and the decision moment with its fourteen steps. -/

namespace Sys2Proof.Machine

/-! ### The taking (R61) -/

/-- Is the port a candidate: PENDING with the taken mark clear? -/
def Port.candidate (p : Port) : Bool := p.state = .pending && p.slot.any fun x => !x.taken

/-- The ports in the order pointer + 1, pointer + 2 and so on, the pointer's own port last (R61). -/
def portOrder (pointer : PortNo) : List PortNo := (List.range 16).map fun i => pointer + 1 + Fin.ofNat 16 i

/-- The port that the engine takes next (R61). -/
def State.nextPort (s : State) : Option PortNo := (portOrder s.engine.pointer).find? fun p => (s.port p).candidate

/-- Set the taken mark (R56). -/
def Port.take (p : Port) : Port := { p with slot := p.slot.map fun x => { x with taken := true } }

/-- R61: the engine takes the presentation of a port with a copy of the reader entry's home floor and bank set. -/
def State.takeFrom (s : State) (p : PortNo) : State :=
  (s.setPort p (s.port p).take).setEngine
    { inHand := (s.port p).slot.map fun x => x.pres,
      entryCopy := some ((s.reader p).home, (s.reader p).banks),
      pointer := p }

/-! ### Steps 1 to 5: credential, validity, tenant (R64, R65) -/

/-- Steps 2 to 4 (R65). -/
def State.testCredential (s : State) (r : Credential) : Except DenyReason Credential :=
  match r.state with
  | .lost => .error .lost
  | .suspended => .error .suspended
  | .active =>
    if !s.valid r then .error .expired
    else if (s.policy.tenants.get r.tenant).state = .locked then .error .tenantLocked
    else .ok r

/-- Steps 1 to 4; `none` is IN_PROGRAM (R63, R64). -/
def State.identify (s : State) (badge : Badge) : Option (Except DenyReason Credential) :=
  match s.store.lookup badge with
  | .inProgram => none
  | .missingBad => some (.error .storeFault)
  | .missing => some (.error .unknown)
  | .found r _ _ => some (s.testCredential r)

/-! ### Step 10: routes (R69, R70) -/

/-- The effective bank set E (R33). -/
def State.entryBanks (s : State) (home : Floor) (banks : BankSet) : List Bank :=
  allBanks.filter fun b => s.effective home banks b

/-- R69: the direct candidates. -/
def State.directBanks (s : State) (home : Floor) (banks : BankSet) (d : Floor) : List Bank :=
  (s.entryBanks home banks).filter fun b => s.serves b d

/-- R70: the onward banks of a transfer floor. -/
def State.onwardBanks (s : State) (t d : Floor) : List Bank := allBanks.filter fun b => s.serves b t && s.serves b d

/-- R70: may a floor be the transfer floor of a first leg in bank `b1`? -/
def State.transferAt (s : State) (home d : Floor) (b1 : Bank) (t : Floor) : Bool :=
  (s.floor t).kind = .skyLobby && (s.floor t).state = .isOpen && t ≠ home && s.serves b1 t && s.onwardBanks t d ≠ []

/-- R70: the transfer candidates, by b1 and then by t. -/
def State.transferPairs (s : State) (home : Floor) (banks : BankSet) (d : Floor) : List (Bank × Floor) :=
  (s.entryBanks home banks).flatMap fun b1 => (allFloors.filter (s.transferAt home d b1)).map fun t => (b1, t)

/-- A route: direct candidates or transfer pairs. -/
inductive Route where
  | direct (banks : List Bank)
  | transfer (pairs : List (Bank × Floor))
  deriving DecidableEq, Repr

/-- Step 10 (R69, R70). -/
def State.route (s : State) (home : Floor) (banks : BankSet) (d : Floor) : Option Route :=
  if s.directBanks home banks d ≠ [] then some (.direct (s.directBanks home banks d))
  else if s.transferPairs home banks d ≠ [] then some (.transfer (s.transferPairs home banks d))
  else none

/-! ### Step 6: destination (R66, R67) -/

/-- R66: the ticket of the badge whose transfer floor is the home floor. -/
def State.ticketAt (s : State) (badge : Badge) (home : Floor) : Option Ticket :=
  (s.ticketOf badge).filter fun t => t.transfer = home

/-- Remove the ticket of a badge. -/
def State.removeTicket (s : State) (badge : Badge) : State :=
  s.setTickets (s.disp.tickets.filter fun t => t.badge ≠ badge)

/-- R67 item 3: the candidate floors. -/
def State.candidateFloors (s : State) (permitted : FloorSet) (home : Floor) (banks : BankSet) : List Floor :=
  allFloors.filter fun f => permitted.has f && !(s.floor f).free && f ≠ home && (s.route home banks f).isSome

/-- R67: d when the ticket does not supply it. -/
def State.ownDestination (s : State) (r : Credential) (permitted : FloorSet) (home : Floor) (banks : BankSet)
    (requested : Option Floor) : Option Floor :=
  match requested with
  | some f => some f
  | none =>
    match r.defaultFloor.filter fun f => permitted.has f with
    | some f => some f
    | none =>
      match s.candidateFloors permitted home banks with
      | [f] => some f
      | _ => none

/-- R66: is the ticket used, and with which d? -/
def usedTicket (ticket : Option Ticket) (requested : Option Floor) : Option Ticket :=
  ticket.filter fun t => requested = none || requested = some t.dest

/-- R66: is the ticket removed at once as superseded? -/
def supersededTicket (ticket : Option Ticket) (requested : Option Floor) : Bool :=
  ticket.isSome && (usedTicket ticket requested).isNone

/-! ### Steps 7 to 9 (R68) -/

/-- Steps 7 to 9: the reason of the first that fails. -/
def State.testFloor (s : State) (permitted : FloorSet) (home d : Floor) : Option DenyReason :=
  if d = home then some .sameFloor
  else if (s.floor d).state = .isClosed then some .floorClosed
  else if !permitted.has d then some .notPermitted
  else none

/-! ### Step 11 (R71) -/

/-- R71: does a bank pass the mode filter? -/
def State.passes (s : State) (override : Bool) (b : Bank) : Bool :=
  match s.mode b with
  | some .normal | some .upPeak => true
  | some .lockdown => override
  | some .out | some .fireRecall | none => false

/-- R71: the reason when nothing remains, over every bank dropped. -/
def State.dropReason (s : State) (dropped : List Bank) : DenyReason :=
  if dropped.any fun b => s.mode b = some .fireRecall then .emergency
  else if dropped.any fun b => s.mode b = some .lockdown then .lockdown
  else .noService

/-- R71: does a transfer pair remain? -/
def State.pairPasses (s : State) (override : Bool) (d : Floor) (x : Bank × Floor) : Bool :=
  s.passes override x.1 && (s.onwardBanks x.2 d).any (s.passes override)

/-- Step 11 (R71). -/
def State.filterRoute (s : State) (override : Bool) (d : Floor) : Route → Except DenyReason Route
  | .direct banks =>
    if banks.filter (s.passes override) ≠ [] then .ok (.direct (banks.filter (s.passes override)))
    else .error (s.dropReason (banks.filter fun b => !s.passes override b))
  | .transfer pairs =>
    if pairs.filter (s.pairPasses override d) ≠ [] then .ok (.transfer (pairs.filter (s.pairPasses override d)))
    else
      .error (s.dropReason ((pairs.flatMap fun x => x.1 :: s.onwardBanks x.2 d).filter fun b => !s.passes override b))

/-! ### Steps 12 and 13 (R72, R73, R112, R113) -/

/-- R72: room for the ticket of a transfer route. -/
def State.ticketRoom (s : State) (badge : Badge) : Route → Bool
  | .direct _ => true
  | .transfer _ => s.disp.tickets.length < Config.maxTickets || (s.ticketOf badge).isSome

/-- The bank, car and transfer floor of a grant. -/
structure Choice where
  bank : Bank
  car : CarNo
  transfer : Option Floor
  deriving DecidableEq, Repr

/-- Step 13: the costed candidates in the order in which ties are settled (R112, R113). -/
def State.costed (s : State) (home d : Floor) (units : Nat) : Route → List (Choice × Nat)
  | .direct banks =>
    banks.filterMap fun b =>
      (s.evaluate b { origin := home, dest := d, units := units }).map fun x =>
        ({ bank := b, car := x.1, transfer := none }, x.2)
  | .transfer pairs =>
    pairs.filterMap fun p =>
      (s.evaluate p.1 { origin := home, dest := p.2, units := units }).map fun x =>
        ({ bank := p.1, car := x.1, transfer := some p.2 }, x.2)

/-- Step 13 (R73). -/
def State.chooseCar (s : State) (home d : Floor) (units : Nat) (r : Route) : Option Choice :=
  (lowestCost (s.costed home d units r)).map fun x => x.1

/-- Steps 10 to 13: the free id and the choice, or the reason. -/
def State.findCar (s : State) (badge : Badge) (override : Bool) (home : Floor) (banks : BankSet) (d : Floor)
    (units : Nat) : Except DenyReason (Nat × Choice) :=
  match s.route home banks d with
  | none => .error .noRoute
  | some r =>
    match s.filterRoute override d r with
    | .error e => .error e
    | .ok r' =>
      match s.freeId with
      | none => .error .full
      | some id =>
        if !s.ticketRoom badge r' then .error .full
        else
          match s.chooseCar home d units r' with
          | none => .error .noCar
          | some c => .ok (id, c)

/-- Steps 7 to 13. -/
def State.testTrip (s : State) (r : Credential) (home : Floor) (banks : BankSet) (d : Floor) :
    Except DenyReason (Nat × Choice) :=
  match s.testFloor (s.permitted r) home d with
  | some e => .error e
  | none => s.findCar r.badge (s.overrideFlag r) home banks d r.units

/-! ### Outcomes (R74 to R78) -/

/-- The engine empties its hand at the end of the decision (R60). -/
def State.engineIdle (s : State) : State := s.setEngine { s.engine with inHand := none, entryCopy := none }

/-- R77: the class of a DENY report. -/
def denyClass (e : DenyReason) : ReportClass := if e = .lost then .urgent else .routine

/-- R77: a DENY, with its report. -/
def State.deny (s : State) (pres : Presentation) (e : DenyReason) (d : Option Floor) : State :=
  (s.setPort pres.port ((s.port pres.port).decided (.deny e))).post (denyClass e)
    (.deny pres.port pres.badge e pres.floor d)

/-- R72: the leg of the booking. -/
def legOf (transfer : Option Floor) (used : Bool) : Leg :=
  match transfer with
  | some _ => .firstLeg
  | none => if used then .secondLeg else .direct

/-- R74: the new booking. -/
def State.newBooking (s : State) (pres : Presentation) (home d : Floor) (units id : Nat) (c : Choice) (used : Bool) :
    Booking :=
  { id := id, serial := s.disp.serial, badge := pres.badge, port := pres.port, bank := c.bank, car := c.car,
    origin := home, dest := c.transfer.getD d, units := units, state := .waiting, leg := legOf c.transfer used,
    created := pres.arrival }

/-- The bank set of a list of banks. -/
def bankSetOfList : List Bank → BankSet
  | [] => 0
  | b :: bs => BitVec.ofNat 4 (2 ^ b.val) ||| bankSetOfList bs

/-- R119: the ticket of a transfer grant. -/
def State.newTicket (s : State) (override : Bool) (t d : Floor) (k : Booking) : Ticket :=
  { badge := k.badge, transfer := t, dest := d, firstBank := k.bank,
    onward := bankSetOfList ((s.onwardBanks t d).filter (s.passes override)), firstLeg := some k.id,
    expiry := s.now + BitVec.ofNat 32 (10 * s.policy.ticketLife) }

/-- R74, R119, R123: the Ticket Table at a grant: the new ticket replaces whatever the badge held; a used ticket
leaves at a direct grant. -/
def State.grantTicket (s : State) (override : Bool) (transfer : Option Floor) (d : Floor) (used : Bool) (k : Booking) :
    State :=
  match transfer with
  | some t =>
    (s.removeTicket k.badge).setTickets ((s.removeTicket k.badge).disp.tickets ++ [s.newTicket override t d k])
  | none => if used then s.removeTicket k.badge else s

/-- R75: the booking that a presentation supersedes, when all four conditions hold. The new booking, which may have
taken the named id, is another booking (log 14). -/
def State.superseded (s : State) (pres : Presentation) (newId : Nat) : Option Booking :=
  match pres.supersedes with
  | none => none
  | some id =>
    if id = newId then none
    else
      (s.findBooking id).filter fun k => k.state = .waiting && k.badge = pres.badge && k.port = pres.port

/-- R75: cancel the superseded booking. -/
def State.cancelSuperseded (s : State) (old : Option Booking) : State :=
  match old with
  | none => s
  | some k => s.cancel .superseded k

/-- R74: the decided GRANT. -/
def State.grantAnswer (s : State) (d : Floor) (c : Choice) : Answer :=
  .grant c.bank c.car (s.label d) false (c.transfer.map s.label)

/-- R52: the memory of the grant. -/
def State.grantMemory (s : State) (d : Floor) (c : Choice) (k : Booking) : GrantMemory :=
  { badge := k.badge, booking := k.id, dest := d, time := s.now, bank := c.bank, car := c.car, transfer := c.transfer }

/-- R78: the GRANT report. -/
def grantReport (d : Floor) (c : Choice) (k : Booking) (old : Option Booking) : ReportBody :=
  .grant k.port k.badge k.id k.bank k.car k.origin d k.leg c.transfer (old.map fun x => x.id)

/-- R74, R75, R78: step 14. -/
def State.grant (s : State) (pres : Presentation) (r : Credential) (home d : Floor) (id : Nat) (c : Choice)
    (used : Bool) : State :=
  let k := s.newBooking pres home d r.units id c used
  let s1 := (s.setDisp { s.disp with serial := s.disp.serial + 1 }).place k
  let s2 := s1.grantTicket (s.overrideFlag r) c.transfer d used k
  let old := s2.superseded pres id
  let s3 := s2.cancelSuperseded old
  let p := (s3.port pres.port).remember (s3.grantMemory d c k)
  (s3.setPort pres.port (p.decided (s3.grantAnswer d c))).post .routine (grantReport d c k old)

/-- Steps 7 to 14 with d resolved; a used ticket leaves with a DENY (R76). -/
def State.decideTrip (s : State) (pres : Presentation) (r : Credential) (home : Floor) (banks : BankSet) (d : Floor)
    (used : Bool) : State :=
  match s.testTrip r home banks d with
  | .error e => (if used then s.removeTicket pres.badge else s).deny pres e (some d)
  | .ok (id, c) => s.grant pres r home d id c used

/-- Steps 6 to 14 (R66, R67). -/
def State.decideJourney (s : State) (pres : Presentation) (r : Credential) (home : Floor) (banks : BankSet) : State :=
  let ticket := s.ticketAt pres.badge home
  match usedTicket ticket pres.floor with
  | some t => s.decideTrip pres r home banks t.dest true
  | none =>
    let s1 := if supersededTicket ticket pres.floor then s.removeTicket pres.badge else s
    match s1.ownDestination r (s1.permitted r) home banks pres.floor with
    | none => s1.deny pres .noDestination none
    | some d => s1.decideTrip pres r home banks d false

/-- R62, R63: the whole decision of the presentation in hand. -/
def State.decide (s : State) (pres : Presentation) (home : Floor) (banks : BankSet) : State :=
  match s.identify pres.badge with
  | none => s.setPort pres.port ((s.port pres.port).handBack pres)
  | some (.error e) => s.deny pres e none
  | some (.ok r) => s.decideJourney pres r home banks

/-! ### Meanings -/

/-- PRESENTATION_TAKING (R61). With a presentation in hand, no candidate, or the part STARTING, the engine takes
nothing (log 4). -/
def execPresentationTaking (s : State) : Host.Outcome State Fault Refusal :=
  if s.running ∧ s.engine.inHand = none then
    match s.nextPort with
    | some p => .next (s.takeFrom p)
    | none => .next s
  else .next s

/-- DECISION_MOMENT (R62). With nothing in hand there is no decision (log 4). -/
def execDecisionMoment (s : State) : Host.Outcome State Fault Refusal :=
  match s.engine.inHand, s.engine.entryCopy with
  | some pres, some (home, banks) => .next ((s.closeCars (s.decide pres home banks)).engineIdle).choose
  | _, _ => .next s

end Sys2Proof.Machine
end

