-- ==== Sys2Proof/Machine/Lines.lean ====
section
/-! DEFINITION. The Car Line Controllers (08_car_lines, R128 to R148): the choice and building of a transaction, its
sending, the answers, failed attempts, readback faults, and line release. -/

namespace Sys2Proof.Machine

/-! ### Line operations -/

/-- A line whose current wait has run to its end: its time has come at least that far (log 2). -/
def Line.waited (l : Line) : Line := { l with time := max l.time (l.ends.getD l.time) }

/-- The line drives the frame of the transaction in hand (R129). -/
def Line.startSending (l : Line) : Line := { l with state := .sending, pausing := false, rx := [], ends := none }

/-- The line listens for an answer for `n` ms from now (R130, R133). -/
def Line.listenFor (l : Line) (n : Nat) : Line :=
  { l with state := .awaiting, pausing := false, rx := [], ends := some (l.time + n) }

/-- Is the line listening for an answer (R131)? -/
def Line.listening (l : Line) : Bool := l.state = .awaiting && !l.pausing

/-- R132, R136: a kind enters the history, which holds the last two, newest first. -/
def Line.record (l : Line) (k : CommandKind) : Line := { l with history := (k :: l.history).take 2 }

/-- R140: at the end of a delivery the car, if still in the queue, moves to the tail. -/
def Line.rotate (l : Line) (c : CarNo) : Line :=
  if c ∈ l.queue then { l with queue := (l.queue.filter fun x => x ≠ c) ++ [c] } else l

/-- R142: at the end of a SWEEP transaction the position moves on, and becomes absent at the car count. -/
def Line.moveSweep (l : Line) (carCount : Nat) : Line :=
  { l with sweep := l.sweep.bind fun p => if p + 1 < carCount then some (p + 1) else none }

/-- R140, R142: what the end of a transaction does to the queue or to the sweep. -/
def Line.close (l : Line) (t : Transaction) (carCount : Nat) : Line :=
  match t.source with
  | .delivery => l.rotate t.car
  | .sweep => l.moveSweep carCount

/-- R132, R136, R138: the end of a transaction, less the state the line enters. -/
def Line.finish (l : Line) (t : Transaction) (carCount : Nat) : Line :=
  { (l.record t.kind).close t carCount with inHand := none, pausing := false, rx := [], ends := none }

/-! ### Choosing (R141 to R143) -/

/-- The history holds two deliveries (R141 case 1). -/
def Line.twoDeliveries (l : Line) : Bool := l.history.length = 2 && l.history.all fun k => k ≠ .poll

/-- R142: is a sweep due? -/
def Line.sweepDue (l : Line) : Bool :=
  l.sweep = none &&
    (match l.lastSweep with
     | none => true
     | some t => t + 100 ≤ l.time)

/-- R143: the command of a delivery, from the car's record. -/
def State.deliveryFrame (s : State) (l : Bank) (c : CarNo) : CommandKind × CommandBody :=
  if (s.car l c).recallDue then (.recallCar, .recallTo (s.bank l).recallFloor)
  else (.stopset, .stopset (s.car l c).gen (s.car l c).keys (s.car l c).enabled)

/-- A line begins a transaction (R129). -/
def Line.begin (l : Line) (kind : CommandKind) (c : CarNo) (frame : CommandBody) (source : Source) : Line :=
  { l with
    inHand := some { kind := kind, car := c, frame := frame, source := source, attempt := 1, holds := 0, resends := 0 }
  }.startSending

/-- A delivery to a car begins (R141 cases 1 and 3). -/
def State.beginDelivery (s : State) (l : Bank) (c : CarNo) : Line :=
  (s.line l).begin (s.deliveryFrame l c).1 c (s.deliveryFrame l c).2 .delivery

/-- A poll begins, a due sweep first (R141 case 2, R142). -/
def Line.beginPoll (l : Line) : Line :=
  match l.sweep with
  | some p => l.begin .poll (Fin.ofNat 8 p) .poll .sweep
  | none => { l with sweep := some 0, lastSweep := some l.time }.begin .poll 0 .poll .sweep

/-- R141: the line after its choice; unchanged when no case applies. -/
def State.choice (s : State) (l : Bank) : Line :=
  let r := s.line l
  match r.queue with
  | [] => if r.sweep.isSome || r.sweepDue then r.beginPoll else r
  | c :: _ =>
    if !r.twoDeliveries then s.beginDelivery l c
    else if r.sweep.isSome || r.sweepDue then r.beginPoll
    else s.beginDelivery l c

/-! ### Ends and failures (R132, R136, R138) -/

/-- R138: the fault mark is cleared, with its report, when a transaction ends while the mismatch count is 0. -/
def State.clearFault (s : State) (l : Bank) : State :=
  if (s.line l).faultMark ∧ (s.line l).mismatches = 0 then
    (s.setLine l { s.line l with faultMark := false }).post .routine (.lineState l .fault .idle)
  else s

/-- The end of a transaction that leaves the line IDLE (R132, R136). -/
def State.endTransaction (s : State) (l : Bank) (t : Transaction) : State :=
  (s.setLine l { (s.line l).finish t (s.bank l).carCount with state := .idle }).clearFault l

/-- R136: an attempt fails. -/
def State.failAttempt (s : State) (l : Bank) : State :=
  match (s.line l).inHand with
  | none => s
  | some t =>
    if t.attempt = 1 then
      s.setLine l { s.line l with inHand := some { t with attempt := 2, holds := 0, resends := 0 } }.startSending
    else s.endTransaction l t

/-- R138: the third consecutive mismatch. -/
def State.enterFault (s : State) (l : Bank) (t : Transaction) : State :=
  let r := s.line l
  let s1 :=
    s.setLine l
      { r.finish t (s.bank l).carCount with
        state := .fault, mismatches := 3, faultMark := true, ends := some (r.time + 1000) }
  if r.faultMark then s1 else s1.post .urgent (.lineState l r.state .fault)

/-- R137: a readback mismatch in the sending of a transaction. -/
def State.mismatch (s : State) (l : Bank) (t : Transaction) : State :=
  let r := s.line l
  if r.mismatches < 2 then
    s.setLine l
      { r with
        mismatches := r.mismatches + 1, state := .backoff, inHand := some { t with holds := 0, resends := 0 },
        ends := some (r.time + 20) }
  else s.enterFault l t

/-! ### Answers (R131 to R134) -/

/-- R132: a good STATUS. -/
def State.answerStatus (s : State) (l : Bank) (t : Transaction) (st : Status) : State :=
  (s.closeCars (s.takeStatus l t.car t.kind st)).endTransaction l t

/-- R133: a good HOLD. -/
def State.answerHold (s : State) (l : Bank) (t : Transaction) : State :=
  let s1 := s.setLine l ({ s.line l with inHand := some { t with holds := t.holds + 1 } }.listenFor 13)
  if t.holds + 1 < 5 then s1 else s1.failAttempt l

/-- R134: a good RESEND. -/
def State.answerResend (s : State) (l : Bank) (t : Transaction) : State :=
  let r := s.line l
  let s1 :=
    s.setLine l
      { r with
        inHand := some { t with resends := t.resends + 1 }, pausing := true, rx := [], ends := some (r.time + 5) }
  if t.resends + 1 < 4 then s1 else s1.failAttempt l

/-- A complete answer: good, or bad, when the attempt fails (R131). -/
def State.takeAnswer (s : State) (l : Bank) (t : Transaction) (a : Option CarAnswer) : State :=
  match a with
  | none => s.failAttempt l
  | some (.status st) => s.answerStatus l t st
  | some .hold => s.answerHold l t
  | some .resend => s.answerResend l t

/-- A line that listens for the answer to a transaction in hand hears something; any other line ignores it. -/
def State.hear (s : State) (l : Bank) (f : Transaction → State) : State :=
  if (s.line l).listening then
    match (s.line l).inHand with
    | some t => f t
    | none => s
  else s

/-- A complete answer is heard whose address byte is `address`; one that names another car is bad (R131). Bytes of an
answer still in progress are dropped for it (DESIGN CHOICE, log 38). -/
def State.hearAnswer (s : State) (l : Bank) (address : Byte) (a : Option CarAnswer) : State :=
  s.hear l fun t => s.takeAnswer l t (if address.toNat = t.car.val then a else none)

/-- One byte on a car line (R131, R182). -/
def State.answerByte (l : Bank) (s : State) (b : Byte) : State :=
  s.hear l fun t =>
    match answerRxByte (s.line l).rx b with
    | .partly rx => s.setLine l { s.line l with rx := rx }
    | .frame bytes => s.takeAnswer l t (parseAnswer t.car bytes)

/-- An answer that has begun and is not complete makes the attempt fail (R131). -/
def State.cutAnswer (s : State) (l : Bank) : State :=
  s.hear l fun _ => if (s.line l).rx = [] then s else s.failAttempt l

/-! ### Meanings -/

/-- TRANSACTION_CHOICE (R141). A line that is not IDLE, has no work, or is of a STARTING part begins nothing (log 4). -/
def execTransactionChoice (line : Bank) (s : State) : Host.Outcome State Fault Refusal :=
  if s.running ∧ (s.line line).state = .idle then .next (s.setLine line (s.choice line)) else .next s

/-- SWEEP_DUE (R142): 100 ms have passed since the last sweep start. -/
def execSweepDue (line : Bank) (s : State) : Host.Outcome State Fault Refusal :=
  match (s.line line).lastSweep with
  | some t => .next (s.setLine line { s.line line with time := max (s.line line).time (t + 100) })
  | none => .next s

/-- COMMAND_SENT (R130): a clean sending. -/
def execCommandSent (line : Bank) (s : State) : Host.Outcome State Fault Refusal :=
  if (s.line line).state = .sending then
    .next (s.setLine line ({ s.line line with mismatches := 0 }.listenFor 3))
  else .next s

/-- READBACK_MISMATCH (R137, R138). -/
def execReadbackMismatch (line : Bank) (s : State) : Host.Outcome State Fault Refusal :=
  if (s.line line).state = .sending then
    match (s.line line).inHand with
    | some t => .next (s.mismatch line t).choose
    | none => .next s
  else .next s

/-- BACKOFF_END (R137): the same frame is sent again. -/
def execBackoffEnd (line : Bank) (s : State) : Host.Outcome State Fault Refusal :=
  if (s.line line).state = .backoff then .next (s.setLine line (s.line line).waited.startSending) else .next s

/-- FAULT_END (R138): the line becomes IDLE; its choice is TRANSACTION_CHOICE. -/
def execFaultEnd (line : Bank) (s : State) : Host.Outcome State Fault Refusal :=
  if (s.line line).state = .fault then
    .next (s.setLine line { (s.line line).waited with state := .idle, ends := none })
  else .next s

/-- STATUS (R131, R132, R89). -/
def execStatus (line : Bank)
    (address position direction motion doors carMode load freshness held accepted : Byte) (calls : List Byte)
    (s : State) : Host.Outcome State Fault Refusal :=
  .next (s.hearAnswer line address
    ((checkStatus position direction motion doors carMode load freshness held accepted calls).map .status)).choose

/-- HOLD (R131, R133). -/
def execHold (line : Bank) (address : Byte) (s : State) : Host.Outcome State Fault Refusal :=
  .next (s.hearAnswer line address (some .hold)).choose

/-- RESEND (R131, R134). -/
def execResend (line : Bank) (address : Byte) (s : State) : Host.Outcome State Fault Refusal :=
  .next (s.hearAnswer line address (some .resend)).choose

/-- RESEND_PAUSE_END (R134): the same frame is sent again. -/
def execResendPauseEnd (line : Bank) (s : State) : Host.Outcome State Fault Refusal :=
  if (s.line line).state = .awaiting ∧ (s.line line).pausing then
    .next (s.setLine line (s.line line).waited.startSending)
  else .next s

/-- ANSWER_WINDOW_EXPIRY (R131): no answer has begun when the window closes. -/
def execAnswerWindowExpiry (line : Bank) (s : State) : Host.Outcome State Fault Refusal :=
  if (s.line line).listening ∧ (s.line line).rx = [] then
    .next ((s.setLine line (s.line line).waited).failAttempt line).choose
  else .next s

/-- ANSWER_BYTE_TIMEOUT (R131): the bytes are heard, then no further byte comes in time. -/
def execAnswerByteTimeout (line : Bank) (bytes : List Byte) (s : State) : Host.Outcome State Fault Refusal :=
  .next ((bytes.foldl (State.answerByte line) s).cutAnswer line).choose

/-- BAD_ANSWER (R131): the bytes are heard. Bytes that complete a good answer after all are taken as that answer, and
bytes that complete none leave it in progress (log 23). -/
def execBadAnswer (line : Bank) (bytes : List Byte) (s : State) : Host.Outcome State Fault Refusal :=
  .next (bytes.foldl (State.answerByte line) s).choose

/-! ### Line release (R146, R147) -/

/-- The LRQ level of a line. -/
def State.setLrq (s : State) (l : Bank) (level : Bool) : State :=
  s.setPins { s.pins with lrq := s.pins.lrq.set l level }

/-- R146: a line becomes RELEASED. -/
def Line.release (l : Line) : Line :=
  { l with
    state := .released, inHand := none, history := [], sweep := none, lastSweep := none, mismatches := 0,
    faultMark := false, pausing := false, rx := [], ends := none }

/-- LRQ_ASSERTED (R146). While STARTING the level alone changes (R128, R147). -/
def execLrqAsserted (line : Bank) (s : State) : Host.Outcome State Fault Refusal :=
  let s1 := s.setLrq line true
  if s.running ∧ (s.line line).state ≠ .released then
    .next ((s1.setLine line (s.line line).release).post .routine
      (.lineState line (s.line line).state .released)).choose
  else .next s1

/-- LRQ_DEASSERTED (R147). -/
def execLrqDeasserted (line : Bank) (s : State) : Host.Outcome State Fault Refusal :=
  let s1 := s.setLrq line false
  if s.running ∧ (s.line line).state = .released then
    .next ((s1.setLine line { s.line line with state := .idle }).post .routine
      (.lineState line .released .idle)).choose
  else .next s1

end Sys2Proof.Machine
end

