-- ==== Sys2Proof/Machine/Timers.lean ====
section
/-! DEFINITION. The part-clock timers (R96, R97, R124) and the recall inputs (R157, R158). -/

namespace Sys2Proof.Machine

/-! ### Contact timer (R96) -/

/-- R96: the status age is older than ten times the contact time; no status age, no comparison. -/
def State.contactLost (s : State) (b : Bank) (c : CarNo) : Bool :=
  match (s.car b c).age with
  | none => false
  | some a => 10 * (s.bank b).contactTime < elapsed s.now a

/-- R96: the service states that the contact timer acts on. -/
def Service.timed : Service → Bool
  | .inService | .carHeld | .frozen => true
  | .absent | .outOfContact | .withdrawn | .recalled => false

/-- R96: the expiry of a car's contact timer. -/
def State.loseContact (s : State) (b : Bank) (c : CarNo) : State :=
  (s.setService b c .outOfContact).reportService b c (s.car b c).service .outOfContact

/-- CONTACT_TIMER (R96): one comparison. -/
def execContactTimer (bank : Bank) (car : CarNo) (s : State) : Host.Outcome State Fault Refusal :=
  if s.running ∧ (s.car bank car).service.timed ∧ s.contactLost bank car then
    .next (s.closeCars (s.loseContact bank car)).choose
  else .next s

/-! ### Abandon timer (R97) -/

/-- R97: a WAITING booking older than ten times its bank's max wait. -/
def State.abandoned (s : State) (k : Booking) : Bool :=
  k.state = .waiting && 10 * (s.bank k.bank).maxWait < elapsed s.now k.created

/-- ABANDON_TIMER (R97): every booking whose timer has expired, in serial order. -/
def execAbandonTimer (s : State) : Host.Outcome State Fault Refusal :=
  if s.running then
    .next (s.closeCars (s.cancelAll .abandoned (serialOrder (s.disp.bookings.filter s.abandoned)))).choose
  else .next s

/-! ### Ticket expiry (R124) -/

/-- R124: has the part clock reached the ticket's expiry time? The difference modulo 2^32 is then below 2^31, since
a life is at most 18,000 ds (log 25). -/
def State.expired (s : State) (t : Ticket) : Bool := elapsed s.now t.expiry < 2147483648

/-- Put a ticket among others in ascending order of badge number. -/
def insertTicket (t : Ticket) : List Ticket → List Ticket
  | [] => [t]
  | x :: xs => if t.badge.toNat ≤ x.badge.toNat then t :: x :: xs else x :: insertTicket t xs

/-- Tickets in ascending order of badge number (R124). -/
def badgeOrder : List Ticket → List Ticket
  | [] => []
  | t :: ts => insertTicket t (badgeOrder ts)

/-- The TICKET_EXPIRED report of a ticket (R124). -/
def State.reportExpiry (s : State) (t : Ticket) : State :=
  s.post .routine (.ticketExpired t.badge t.transfer t.dest t.firstLeg)

/-- TICKET_EXPIRY (R124): every ticket whose timer has expired leaves together. -/
def execTicketExpiry (s : State) : Host.Outcome State Fault Refusal :=
  if s.running then
    .next ((badgeOrder (s.disp.tickets.filter s.expired)).foldl State.reportExpiry
      (s.setTickets (s.disp.tickets.filter fun t => !s.expired t))).choose
  else .next s

/-! ### Recall inputs (R157, R158) -/

/-- The level of a bank's recall input. -/
def State.setRcl (s : State) (b : Bank) (level : Bool) : State :=
  s.setPins { s.pins with rcl := s.pins.rcl.set b level }

/-- R158: a bank whose mode in force is not FIRE_RECALL enters it, cause INPUT. -/
def State.forceRecall (s : State) (b : Bank) : State :=
  if s.mode b = some .fireRecall then s else s.changeMode b .fireRecall true

/-- RECALL_INPUT_ASSERTED (R157, R158). While STARTING, and when it is no edge, the level alone is recorded. -/
def execRecallInputAsserted (bank : Bank) (s : State) : Host.Outcome State Fault Refusal :=
  let s1 := s.setRcl bank true
  if s.running ∧ s.pins.rcl.get bank = false then
    .next (s1.closeCars ((s1.post .urgent (.recallInput bank true)).forceRecall bank)).choose
  else .next s1

/-- RECALL_INPUT_DEASSERTED (R157): changes no mode. -/
def execRecallInputDeasserted (bank : Bank) (s : State) : Host.Outcome State Fault Refusal :=
  let s1 := s.setRcl bank false
  if s.running ∧ s.pins.rcl.get bank = true then .next (s1.post .urgent (.recallInput bank false)).choose
  else .next s1

end Sys2Proof.Machine
end

