-- ==== Sys2Proof/Machine/Start.lean ====
section
/-! DEFINITION. Reset and start (R13, R17, R21, R46, R80, R128, R149, R167, R168): the RESET pin, its release, the
reset of a RESTART, and the end of the start-up scan. -/

namespace Sys2Proof.Machine

/-! ### Reset (R168) -/

/-- R13, R168: the store's bytes at a reset; a program in flight is abandoned and leaves the open page (log 6). -/
def State.cellsAfterReset (s : State) : List Host.Cell :=
  match s.store.programmer with
  | some g => Store.writePage s.store.cells g.page (openPage s.freeCount g.page)
  | none => s.store.cells

/-- The number of open values used, after a reset. -/
def State.freeAfterReset (s : State) : Nat :=
  match s.store.programmer with
  | some _ => s.freeCount + 1
  | none => s.freeCount

/-- R168: every block takes its reset values; the store's bytes and the input levels stay. -/
def State.resetAll (s : State) (part : Part) : State :=
  { State.reset with
    pending := s.pending, part := part, pins := s.pins, store := StoreBlock.unscanned s.cellsAfterReset,
    freeCount := s.freeAfterReset }

/-- The part at a reset: STARTING, the part clock at 0 (R168). -/
def Part.afterReset (cause : ResetCause) (pin scanning : Bool) : Part :=
  { state := .starting, resetPin := pin, scanning := scanning, cause := cause, clock := 0 }

/-- R17 to R20: the start-up scan, done whole at its beginning (log 9). -/
def State.scan (s : State) : State :=
  (s.setStore (scanStore s.store.cells)).setPolicy (scanPolicy s.store.cells (scanBad s.store.cells))

/-- R167: the reset of a RESTART; the scan begins at once. -/
def State.restartReset (s : State) : State := (s.resetAll (Part.afterReset .restart false true)).scan

/-! ### The end of the scan (R21) -/

/-- R149: the mode a bank takes. -/
def State.startMode (s : State) (b : Bank) : BankMode :=
  if s.pins.rcl.get b then .fireRecall else (s.bank b).storedMode

/-- R80, R149, R154: the record a car takes, less its enabled set. -/
def State.startCar (s : State) (b : Bank) (c : CarNo) : Car :=
  if s.counted b c then
    if s.startMode b = .fireRecall then { Car.reset with service := .recalled, recallDue := true }
    else { Car.reset with service := .outOfContact }
  else Car.reset

/-- R84, R149: the enabled set a car takes; no booking stands. -/
def State.startEnabled (s : State) (b : Bank) (c : CarNo) : FloorSet :=
  if s.counted b c ∧ s.startMode b ≠ .fireRecall then s.openFree b else 0

/-- The bank and the car number of a car index. -/
def carOfIndex (i : Fin 32) : Bank × CarNo := (⟨i.val / 8, by omega⟩, ⟨i.val % 8, by omega⟩)

/-- R80, R149: the Dispatch Engine at the end of the scan. -/
def State.startDisp (s : State) : DispatchBlock :=
  { DispatchBlock.reset with
    cars := Vector.ofFn fun i =>
      { s.startCar (carOfIndex i).1 (carOfIndex i).2 with enabled := s.startEnabled (carOfIndex i).1 (carOfIndex i).2 },
    modes := Vector.ofFn fun b => some (s.startMode b) }

/-- R128: a Car Line Controller at the end of the scan. -/
def State.startLine (s : State) (l : Bank) : Line :=
  { Line.reset with
    state := if s.pins.lrq.get l then .released else .idle,
    queue := allCars.filter fun c => s.counted l c,
    time := (s.line l).time }

/-- R46: a port at the end of the scan: DISABLED when its entry is not enabled. -/
def State.startPort (s : State) (p : PortNo) : Port :=
  if (s.reader p).enabled then s.port p else { s.port p with state := .disabled }

/-- R21: the STORE_FAULT reports of the scan, in ascending page order. -/
def State.postScanFaults (s : State) : State :=
  (s.store.badPages.getD []).foldl (fun s p => s.post .urgent (.storeFault p false)) s

/-- The banks whose recall input is asserted (R149). -/
def State.assertedBanks (s : State) : List Bank := allBanks.filter fun b => s.pins.rcl.get b

/-- R149: the RECALL_INPUT reports of the start, in rising bank order (DESIGN CHOICE, log 39). -/
def State.postRecalls (s : State) : State :=
  s.assertedBanks.foldl (fun s b => s.post .urgent (.recallInput b true)) s

/-- R168: the two groups of reports after STARTED, in either order when both hold reports (log 7). -/
def State.postStartGroups (s : State) : State :=
  if s.store.badPages.getD [] ≠ [] ∧ s.assertedBanks ≠ [] then
    if Config.storeFaultsFirst s.freeCount then (s.setFree (s.freeCount + 1)).postScanFaults.postRecalls
    else (s.setFree (s.freeCount + 1)).postRecalls.postScanFaults
  else s.postScanFaults.postRecalls

/-- R168: the body of the STARTED report. -/
def State.startedReport (s : State) : ReportBody :=
  .started s.part.cause s.calendar.isSet s.store.badCredential s.store.badPolicy

/-- R21: the blocks begin work; the part is RUNNING. -/
def State.begun (s : State) : State :=
  ((((s.setPart { s.part with state := .running, scanning := false }).setDisp s.startDisp).setLines
    (Vector.ofFn s.startLine)).setPorts (Vector.ofFn s.startPort))

/-! ### Meanings -/

/-- RESET_PIN (R168). -/
def execResetPin (s : State) : Host.Outcome State Fault Refusal :=
  .next (s.resetAll (Part.afterReset .pin true false))

/-- RESET_PIN_RELEASE (R17): the scan begins. A release of a pin that is not asserted is none (log 4). -/
def execResetPinRelease (s : State) : Host.Outcome State Fault Refusal :=
  if s.part.resetPin then .next (s.setPart { s.part with resetPin := false, scanning := true }).scan else .next s

/-- START_UP_SCAN_END (R21, R168). Without a scan in progress there is no end of it (log 4). STARTED and the reports
after it are all posted before the transmitter chooses, so STARTED carries the gap flag when they overflow the queue
(DESIGN CHOICE, log 40). -/
def execStartUpScanEnd (s : State) : Host.Outcome State Fault Refusal :=
  if s.part.state = .starting ∧ s.part.scanning then
    .next (s.begun.post .urgent s.startedReport).postStartGroups.choose
  else .next s

end Sys2Proof.Machine
end

