-- ==== Sys2Proof/Machine/Transmitter.lean ====
section
/-! DEFINITION. The ends of what the transmitter of the Host Message Port sends (R164, R166, R167, R174, R175). -/

namespace Sys2Proof.Machine

/-- Set what the transmitter does. -/
def State.setTx (s : State) (tx : Transmitter) : State := s.setHost { s.host with tx := tx }

/-- RESTART's type (R180). -/
def restartType : Byte := 22

/-- R164, R167: the reply of the request in hand has been sent. A RESTART resets the part; its reply is always DONE. -/
def State.replyDone (s : State) (r : Reply) : State :=
  if r.type = restartType then s.restartReset
  else ((s.setRequest .idle).setTx .free).choose

/-- REPLY_SENT (R164, R166, R167). When no reply is being sent, nothing ends (log 4). -/
def execReplySent (s : State) : Host.Outcome State Fault Refusal :=
  if s.host.tx = .sendingReply then
    match s.host.request with
    | .replying r => .next (s.replyDone r)
    | .idle | .executing _ _ => .next s
  else .next s

/-- BUSY_REPLY_SENT (R166): the owed slot is empty again. -/
def execBusyReplySent (s : State) : Host.Outcome State Fault Refusal :=
  if s.host.tx = .sendingBusy then .next ((s.setHost { s.host with owedBusy := none }).setTx .free).choose
  else .next s

/-- REPORT_SENT (R174): the report leaves the queue. -/
def execReportSent (s : State) : Host.Outcome State Fault Refusal :=
  match s.host.tx with
  | .sendingReport cls =>
    .next ((s.setHost { s.host with queue := removeOldest cls s.host.queue }).setTx .free).choose
  | .free | .sendingReply | .sendingBusy | .stopIdle => .next s

/-- REPORT_STOP_IDLE_END (R175): the 12 ms idle ends and the transmitter chooses again. -/
def execReportStopIdleEnd (s : State) : Host.Outcome State Fault Refusal :=
  if s.host.tx = .stopIdle then .next (s.setTx .free).choose else .next s

end Sys2Proof.Machine
end

