-- ==== Sys2Proof/Machine/Dispatch.lean ====
section
/-! DEFINITION. One arm for each command, each one direct call of its meaning. -/

namespace Sys2Proof.Machine

/-- The effect of a command on everything but the queue. -/
def exec (i : Instr) (s : State) : Host.Outcome State Fault Refusal :=
  match i with
  | .resetPin => Sys2Proof.Machine.execResetPin s
  | .resetPinRelease => Sys2Proof.Machine.execResetPinRelease s
  | .startUpScanEnd => Sys2Proof.Machine.execStartUpScanEnd s
  | .setClock tag day weekday minute second dayType pendingType => Sys2Proof.Machine.execSetClock tag day weekday minute second dayType pendingType s
  | .setNextDay tag dayType => Sys2Proof.Machine.execSetNextDay tag dayType s
  | .loadSite tag life => Sys2Proof.Machine.execLoadSite tag life s
  | .loadFloor tag floor label0 label1 label2 kind state banks => Sys2Proof.Machine.execLoadFloor tag floor label0 label1 label2 kind state banks s
  | .loadBank tag bank carCount capacity floorTime stopTime loadBias tripCap maxWait contactTime fullThreshold recallFloor => Sys2Proof.Machine.execLoadBank tag bank carCount capacity floorTime stopTime loadBias tripCap maxWait contactTime fullThreshold recallFloor s
  | .loadReader tag reader enabled home banks kind holdTime => Sys2Proof.Machine.execLoadReader tag reader enabled home banks kind holdTime s
  | .loadGroup tag group floors profile flags => Sys2Proof.Machine.execLoadGroup tag group floors profile flags s
  | .loadProfile tag profile intervals => Sys2Proof.Machine.execLoadProfile tag profile intervals s
  | .loadTenant tag tenant floors state => Sys2Proof.Machine.execLoadTenant tag tenant floors state s
  | .enroll tag badge state tenant units groups defaultFloor personal validFrom hasUntil validUntil => Sys2Proof.Machine.execEnroll tag badge state tenant units groups defaultFloor personal validFrom hasUntil validUntil s
  | .revoke tag badge => Sys2Proof.Machine.execRevoke tag badge s
  | .setBadgeState tag badge state => Sys2Proof.Machine.execSetBadgeState tag badge state s
  | .erasePage tag page => Sys2Proof.Machine.execErasePage tag page s
  | .setBankMode tag bank mode => Sys2Proof.Machine.execSetBankMode tag bank mode s
  | .setCarService tag bank car action => Sys2Proof.Machine.execSetCarService tag bank car action s
  | .setFloorState tag floor state => Sys2Proof.Machine.execSetFloorState tag floor state s
  | .setReports tag kinds => Sys2Proof.Machine.execSetReports tag kinds s
  | .queryBadge tag badge => Sys2Proof.Machine.execQueryBadge tag badge s
  | .queryCar tag bank car => Sys2Proof.Machine.execQueryCar tag bank car s
  | .queryBookings tag bank car start => Sys2Proof.Machine.execQueryBookings tag bank car start s
  | .queryPart tag => Sys2Proof.Machine.execQueryPart tag s
  | .restart tag => Sys2Proof.Machine.execRestart tag s
  | .undefinedRequestType type tag => Sys2Proof.Machine.execUndefinedRequestType type tag s
  | .hostPartialFrameTimeout bytes => Sys2Proof.Machine.execHostPartialFrameTimeout bytes s
  | .verifyMatch => Sys2Proof.Machine.execVerifyMatch s
  | .verifyMismatch => Sys2Proof.Machine.execVerifyMismatch s
  | .recallInputAsserted bank => Sys2Proof.Machine.execRecallInputAsserted bank s
  | .recallInputDeasserted bank => Sys2Proof.Machine.execRecallInputDeasserted bank s
  | .lrqAsserted line => Sys2Proof.Machine.execLrqAsserted line s
  | .lrqDeasserted line => Sys2Proof.Machine.execLrqDeasserted line s
  | .present port badge floor kind => Sys2Proof.Machine.execPresent port badge floor kind s
  | .ping port => Sys2Proof.Machine.execPing port s
  | .readerPartialFrameTimeout port bytes => Sys2Proof.Machine.execReaderPartialFrameTimeout port bytes s
  | .replyShifterDone port => Sys2Proof.Machine.execReplyShifterDone port s
  | .presentationTaking => Sys2Proof.Machine.execPresentationTaking s
  | .decisionMoment => Sys2Proof.Machine.execDecisionMoment s
  | .transactionChoice line => Sys2Proof.Machine.execTransactionChoice line s
  | .sweepDue line => Sys2Proof.Machine.execSweepDue line s
  | .commandSent line => Sys2Proof.Machine.execCommandSent line s
  | .readbackMismatch line => Sys2Proof.Machine.execReadbackMismatch line s
  | .backoffEnd line => Sys2Proof.Machine.execBackoffEnd line s
  | .faultEnd line => Sys2Proof.Machine.execFaultEnd line s
  | .status line address position direction motion doors carMode load freshness held accepted calls => Sys2Proof.Machine.execStatus line address position direction motion doors carMode load freshness held accepted calls s
  | .hold line address => Sys2Proof.Machine.execHold line address s
  | .resend line address => Sys2Proof.Machine.execResend line address s
  | .resendPauseEnd line => Sys2Proof.Machine.execResendPauseEnd line s
  | .answerWindowExpiry line => Sys2Proof.Machine.execAnswerWindowExpiry line s
  | .answerByteTimeout line bytes => Sys2Proof.Machine.execAnswerByteTimeout line bytes s
  | .badAnswer line bytes => Sys2Proof.Machine.execBadAnswer line bytes s
  | .contactTimer bank car => Sys2Proof.Machine.execContactTimer bank car s
  | .abandonTimer => Sys2Proof.Machine.execAbandonTimer s
  | .ticketExpiry => Sys2Proof.Machine.execTicketExpiry s
  | .calendarSecondAdvance => Sys2Proof.Machine.execCalendarSecondAdvance s
  | .replySent => Sys2Proof.Machine.execReplySent s
  | .busyReplySent => Sys2Proof.Machine.execBusyReplySent s
  | .reportSent => Sys2Proof.Machine.execReportSent s
  | .reportStopIdleEnd => Sys2Proof.Machine.execReportStopIdleEnd s

end Sys2Proof.Machine
end

