-- ==== Sys2Proof/Machine/Step.lean ====
section
/-! DEFINITION. The step: the command at the front of the queue, or, on an empty queue, one tick of the part clock. -/

namespace Sys2Proof.Machine

/-- One tick: a tenth of a second on the part clock and 100 ms on every line's own count, and nothing else (log 1).
While the RESET pin is held nothing passes (log 12). -/
def State.tick (s : State) : State :=
  if s.part.resetPin then s
  else
    (s.setPart { s.part with clock := s.part.clock + 1 }).setLines
      (s.lines.map fun l => { l with time := l.time + 100 })

/-- One step of the part. -/
def step (s : State) : Host.Outcome State Fault Refusal :=
  match s.pending with
  | c :: rest => exec c (s.setPending rest)
  | [] => .next s.tick

/-- The state with the command that a word spells put at the front of its queue; no word spells one (log 35). -/
def State.withFetchWord (s : State) (nbits w : Nat) : State :=
  match decodeTableWord nbits w with
  | some c => s.setPending (c :: s.pending)
  | none => s

end Sys2Proof.Machine
end

