-- ==== Sys2Proof/Machine/Frames.lean ====
section
/-! DEFINITION. The bytes of the frames the part sends (R178, R180 to R182), and the frame now on each line as a view
of the state. Fields without a stated width take the least number of bytes their range needs (log 24). -/

namespace Sys2Proof.Machine

/-! ### Common encodings (R178) -/

/-- A flag byte: 0 for clear, 1 for set. -/
def flagByte (b : Bool) : Byte := if b then 1 else 0

/-- An optional field of `n` bytes after a presence byte (R178); absent, its bytes are 0. R178 lets the presence byte
of a present field be any nonzero value: here it is 1 (DESIGN CHOICE, log 41). -/
def optField (n : Nat) : Option (List Byte) → List Byte
  | none => 0 :: List.replicate n 0
  | some bs => 1 :: bs

/-- An optional booking id, 65535 when absent. -/
def optId (i : Option Nat) : List Byte := toLE 2 (i.getD 65535)

/-- A label. -/
def Label.bytes (l : Label) : List Byte := [l.c0, l.c1, l.c2]

/-- A floor set. -/
def floorSetBytes (f : FloorSet) : List Byte := toLE 16 f.toNat

/-- A list after its count byte. -/
def counted (items : List (List Byte)) : List Byte := byte items.length :: items.flatten

/-- A car's hall name: the bank letter and the digit car + 1 (00_scope). -/
def hallName (b : Bank) (c : CarNo) : List Byte := [byte (65 + b.val), byte (49 + c.val)]

/-- A message framed by a lead byte, the payload's length and the check byte. -/
def framed (lead : Byte) (payload : List Byte) : List Byte :=
  let all := lead :: byte payload.length :: payload
  all ++ [checkByte all]

/-- Booking state codes. -/
def BookingState.code : BookingState → Byte
  | .waiting => 0
  | .riding => 1

/-- Leg codes. -/
def Leg.code : Leg → Byte
  | .direct => 0
  | .firstLeg => 1
  | .secondLeg => 2

/-- Service state codes. -/
def Service.code : Service → Byte
  | .absent => 0
  | .inService => 1
  | .carHeld => 2
  | .outOfContact => 3
  | .frozen => 4
  | .withdrawn => 5
  | .recalled => 6

/-- Cancellation reason codes. -/
def CancelReason.code : CancelReason → Byte
  | .abandoned => 1
  | .floorClosed => 2
  | .noCar => 3
  | .bankOut => 4
  | .recalled => 5
  | .superseded => 6

/-- DENY reason codes, 1 to 17 in the order of the deny reason table. -/
def DenyReason.code : DenyReason → Byte
  | .unknown => 1
  | .storeFault => 2
  | .lost => 3
  | .suspended => 4
  | .expired => 5
  | .tenantLocked => 6
  | .noDestination => 7
  | .sameFloor => 8
  | .floorClosed => 9
  | .notPermitted => 10
  | .noRoute => 11
  | .emergency => 12
  | .lockdown => 13
  | .noService => 14
  | .full => 15
  | .noCar => 16
  | .badRequest => 17

/-- Reply status codes. -/
def ReplyStatus.code : ReplyStatus → Byte
  | .done => 0
  | .busy => 1
  | .badValue => 2
  | .noSuch => 3
  | .noRoom => 4
  | .bankActive => 5
  | .inputAsserted => 6
  | .storeFault => 7

/-- Report class codes. -/
def ReportClass.code : ReportClass → Byte
  | .routine => 0
  | .urgent => 1

/-- Line state codes. -/
def LineState.code : LineState → Byte
  | .idle => 0
  | .sending => 1
  | .awaiting => 2
  | .backoff => 3
  | .released => 4
  | .fault => 5

/-- Part state codes. -/
def PartState.code : PartState → Byte
  | .starting => 0
  | .running => 1

/-- Reset cause codes. -/
def ResetCause.code : ResetCause → Byte
  | .pin => 0
  | .restart => 1

/-! ### Reader lines (R181) -/

/-- The payload of an answer. -/
def Answer.payload : Answer → List Byte
  | .grant b c label rep transfer =>
    [3, byte b.val, byte c.val] ++ hallName b c ++ label.bytes ++
      [byte (rep.toNat + 2 * transfer.isSome.toNat)] ++
      (match transfer with
       | some t => t.bytes
       | none => [32, 32, 32])
  | .deny r => [4, r.code]
  | .retry => [5]
  | .pong st => [6, st.code]

/-- The frame of an answer. -/
def Answer.frame (a : Answer) : List Byte := framed 0x5A a.payload

/-- The frame that a port's shifter drives, none when it is empty. -/
def State.readerLine (s : State) (p : PortNo) : Option (List Byte) := (s.port p).shifter.map Answer.frame

/-! ### Car lines (R182) -/

/-- An entry byte: the floor in bits 0 to 6, the direction in bit 7, set for DOWN. -/
def Key.entry (k : Key) : Byte :=
  match k.dir with
  | .up => byte k.floor.val
  | .down => byte (128 + k.floor.val)

/-- A command's kind byte. -/
def CommandBody.kind : CommandBody → Byte
  | .poll => 1
  | .stopset .. => 2
  | .recallTo _ => 3

/-- A command's body. -/
def CommandBody.bytes : CommandBody → List Byte
  | .poll => []
  | .stopset gen entries enabled => [gen, byte entries.length] ++ entries.map Key.entry ++ floorSetBytes enabled
  | .recallTo f => [byte f.val]

/-- The frame of a command to a car. -/
def commandFrame (c : CarNo) (b : CommandBody) : List Byte :=
  let all := [0x96, byte c.val, b.kind, byte b.bytes.length] ++ b.bytes
  all ++ [checkByte all]

/-- The frame that a line drives while SENDING. -/
def State.carLine (s : State) (l : Bank) : Option (List Byte) :=
  if (s.line l).state = .sending then (s.line l).inHand.map fun t => commandFrame t.car t.frame else none

/-! ### Reports (R180) -/

/-- The floors of a DENY report. R50, by which a port posts BAD_REQUEST, lists none; R77, by which the engine posts every
other reason, lists the requested floor and d, each 255 when not given (R180). -/
def denyFloors (reason : DenyReason) (floor dest : Option Floor) : List Byte :=
  if reason = .badRequest then [] else [optFloorByte floor, optFloorByte dest]

/-- A report's body: the fields that its posting rule lists, in that order (R180). -/
def ReportBody.bytes : ReportBody → List Byte
  | .started cause isSet badCredential badPolicy =>
    [cause.code, flagByte isSet] ++ toLE 2 badCredential ++ [byte badPolicy]
  | .storeFault page verify => toLE 2 page ++ [flagByte verify]
  | .grant port badge booking bank car origin dest leg transfer cancelled =>
    [byte port.val] ++ toLE 4 badge.toNat ++ toLE 2 booking ++
      [byte bank.val, byte car.val, byte origin.val, byte dest.val, leg.code, optFloorByte transfer] ++ optId cancelled
  | .deny port badge reason floor dest =>
    [byte port.val] ++ toLE 4 badge.toNat ++ [reason.code] ++ denyFloors reason floor dest
  | .bookingCancelled booking badge port bank car origin dest leg state reason =>
    toLE 2 booking ++ toLE 4 badge.toNat ++
      [byte port.val, byte bank.val, byte car.val, byte origin.val, byte dest.val, leg.code, state.code, reason.code]
  | .carService bank car old new => [byte bank.val, byte car.val, old.code, new.code]
  | .lineState line old new => [byte line.val, old.code, new.code]
  | .bankMode bank old new byInput bookings tickets =>
    [byte bank.val, old.code, new.code, flagByte byInput] ++ toLE 2 bookings ++ toLE 2 tickets
  | .recallInput bank asserted => [byte bank.val, flagByte asserted]
  | .ticketExpired badge transfer dest firstLeg =>
    toLE 4 badge.toNat ++ [byte transfer.val, byte dest.val] ++ optId firstLeg

/-- The frame of a report. -/
def Report.frame (r : Report) : List Byte :=
  framed 0xC5 ([byte r.body.kind, r.cls.code, flagByte r.gap] ++ toLE 4 r.clock.toNat ++ r.body.bytes)

/-! ### Replies (R165, R169 to R172, R180) -/

/-- A ticket's fields in a QUERY-BADGE reply (R169). An absent first-leg id is 65535, without a presence byte (DEDUCED, log
45). -/
def Ticket.bytes (t : Ticket) : List Byte :=
  [byte t.transfer.val, byte t.dest.val, byte t.firstBank.val, t.onward.setWidth 8] ++ optId t.firstLeg ++
    toLE 4 t.expiry.toNat

/-- The body of a QUERY-BADGE reply (R169). An absent default floor is 255, without a presence byte (DEDUCED, log 45). -/
def BadgeView.bytes (v : BadgeView) : List Byte :=
  [v.record.state.code, byte v.record.tenant.val, byte v.record.units] ++ counted (v.record.groups.map fun g => [g]) ++
    [optFloorByte v.record.defaultFloor] ++ counted (v.record.personal.map fun f => [byte f.val]) ++
    toLE 2 v.record.validFrom.toNat ++ optField 2 (v.record.validUntil.map fun d => toLE 2 d.toNat) ++ toLE 2 v.page ++
    [byte v.slot] ++ floorSetBytes v.permitted ++ [flagByte v.override] ++ optField 10 (v.ticket.map Ticket.bytes)

/-- A reported status in a QUERY-CAR reply (R80, R170); the car-call list is counted. R80 calls freshness a flag and R178
lists codes for it; the codes FRESH 1 and STALE 2 are sent (DESIGN CHOICE, log 24). -/
def Status.bytes (st : Status) : List Byte :=
  [byte st.position.val, directionCode st.direction, st.motion.code, st.doors.code, st.carMode.code, byte st.load] ++
    optField 1 (st.accepted.map fun g => [g]) ++ [if st.fresh then 1 else 2] ++
    counted (st.calls.map fun f => [byte f.val])

/-- A stop-list entry in a QUERY-CAR reply (R170): its three duties are three flag bytes (DESIGN CHOICE, log 24). -/
def Stop.bytes (e : Stop) : List Byte :=
  [byte e.key.floor.val, directionCode (some e.key.dir), flagByte e.pickup, flagByte e.drop, flagByte e.call]

/-- The body of a QUERY-CAR reply (R170). An absent last reported status keeps the 10 bytes of one with an empty
car-call list (DESIGN CHOICE, log 24). -/
def CarView.bytes (v : CarView) : List Byte :=
  [v.car.service.code] ++ optField 10 (v.car.status.map Status.bytes) ++
    optField 4 (v.car.age.map fun a => toLE 4 a.toNat) ++ [byte v.car.stale] ++
    optField 1 (v.car.planned.map fun d => [directionCode (some d)]) ++ counted (v.car.stops.map Stop.bytes) ++
    counted (v.pendingDrops.map fun k => [byte k.floor.val, directionCode (some k.dir)]) ++
    floorSetBytes v.car.enabled ++ [v.car.gen] ++ optField 1 (v.car.confirmed.map fun g => [g]) ++
    [flagByte v.car.recallDue, flagByte v.car.full, byte v.committed] ++ optField 1 (v.queuePlace.map fun n => [byte n])

/-- The 21 bytes of a booking in a QUERY-BOOKINGS reply (R171, R180). -/
def Booking.bytes (k : Booking) : List Byte :=
  toLE 2 k.id ++ toLE 4 k.serial.toNat ++ toLE 4 k.badge.toNat ++
    [byte k.port.val, byte k.origin.val, byte k.dest.val, directionCode (some k.dir), byte k.units, k.state.code,
     k.leg.code] ++ toLE 4 k.created.toNat

/-- A bank's fields in a QUERY-PART reply (R172). -/
def bankBytes (x : Option BankMode × BankRec × Bool) : List Byte :=
  [(x.1.map BankMode.code).getD 0, x.2.1.storedMode.code, byte x.2.1.carCount, byte x.2.1.capacity,
   byte x.2.1.floorTime] ++ toLE 2 x.2.1.stopTime ++ [byte x.2.1.loadBias, byte x.2.1.tripCap] ++
    toLE 2 x.2.1.maxWait ++
    [byte x.2.1.contactTime, byte x.2.1.fullThreshold, byte x.2.1.recallFloor.val, x.2.1.withdrawn, flagByte x.2.2]

/-- A line's fields in a QUERY-PART reply (R172). -/
def lineBytes (x : LineState × Bool × Nat × Bool) : List Byte :=
  [x.1.code, flagByte x.2.1, byte x.2.2.1, flagByte x.2.2.2]

/-- A calendar's fields in a QUERY-PART reply (R35, R172). An absent pending day type is 255, without a presence byte
(DEDUCED, log 45). -/
def Calendar.bytes (c : Calendar) : List Byte :=
  [flagByte c.isSet] ++ toLE 2 c.day.toNat ++ [byte c.weekday.val] ++ toLE 2 c.minute.val ++
    [byte c.second.val, c.dayType.code, (c.pendingType.map DayType.code).getD 255]

/-- The body of a QUERY-PART reply (R172). The four banks and the four lines are fields of a fixed number, not lists, and
no count byte precedes them; the report enables stand as one kind set in two bytes, bit k for kind code k, as in
SET-REPORTS (DESIGN CHOICE, log 24). -/
def PartView.bytes (v : PartView) : List Byte :=
  [v.part.code] ++ toLE 4 v.clock.toNat ++ v.calendar.bytes ++ toLE 2 v.slotsInUse ++ toLE 2 v.badCredential ++
    [byte v.badPolicy] ++ toLE 2 v.bookings ++ toLE 2 v.tickets ++ [byte v.reports] ++ toLE 2 v.enables.toNat ++
    v.banks.flatMap bankBytes ++ v.lines.flatMap lineBytes

/-- A reply's body. The total of a QUERY-BOOKINGS stands for its list's count, so that ten entries make a payload of
214 bytes (R180; log 24). -/
def ReplyBody.bytes : ReplyBody → List Byte
  | .empty => []
  | .badge v => v.bytes
  | .car v => v.bytes
  | .bookings total listed => byte total :: listed.flatMap Booking.bytes
  | .part v => v.bytes

/-- The frame of a reply (R165, R180). -/
def Reply.frame (r : Reply) : List Byte := framed 0xC3 ([r.type, r.tag, r.status.code] ++ r.body.bytes)

/-- The frame of a BUSY reply (R163). -/
def busyFrame (x : Byte × Byte) : List Byte := framed 0xC3 [x.1, x.2, ReplyStatus.busy.code]

/-- The frame that the transmitter sends on the host line, none when it sends none (R166, R174). -/
def HostPort.line (h : HostPort) : Option (List Byte) :=
  match h.tx with
  | .free | .stopIdle => none
  | .sendingReply =>
    match h.request with
    | .replying r => some r.frame
    | .idle | .executing .. => none
  | .sendingBusy => h.owedBusy.map busyFrame
  | .sendingReport cls => (oldestOf cls h.queue).map Report.frame

end Sys2Proof.Machine
end

