-- ==== Sys2Proof/Safety.lean ====
section
/-! DEFINITION. The terms that statements use: the blocks a command may change, the request a command carries, the
states a request leads to, and the invariants. -/

namespace Sys2Proof.Machine

/-! ### Frames -/

/-- The blocks of the state. -/
inductive Block where
  | pending | part | pins | store | policy | calendar | ports | engine | disp | lines | host | freeCount
  deriving DecidableEq, Repr

/-- Two states hold the same in one block. -/
def State.agrees (s t : State) : Block → Prop
  | .pending => t.pending = s.pending
  | .part => t.part = s.part
  | .pins => t.pins = s.pins
  | .store => t.store = s.store
  | .policy => t.policy = s.policy
  | .calendar => t.calendar = s.calendar
  | .ports => t.ports = s.ports
  | .engine => t.engine = s.engine
  | .disp => t.disp = s.disp
  | .lines => t.lines = s.lines
  | .host => t.host = s.host
  | .freeCount => t.freeCount = s.freeCount

/-- From `s` to `t` nothing changes but in the listed blocks. -/
def State.changesOnly (s : State) (bs : List Block) (t : State) : Prop := ∀ b, b ∉ bs → s.agrees t b

/-- The blocks that an event of the Dispatch Engine reaches: its tables, the dirty queues, the ports' memories and the
Report Queue. -/
def dispatchBlocks : List Block := [.ports, .disp, .lines, .host]

/-- The blocks that each command may change. -/
def blocksOf : Instr → List Block
  | .resetPin | .replySent =>
    [.part, .store, .policy, .calendar, .ports, .engine, .disp, .lines, .host, .freeCount]
  | .resetPinRelease => [.part, .store, .policy]
  | .startUpScanEnd => [.part, .ports, .disp, .lines, .host, .freeCount]
  | .setClock .. | .setNextDay .. => [.calendar, .host]
  | .loadSite .. | .loadFloor .. | .loadBank .. | .loadReader .. | .loadGroup .. | .loadProfile .. | .loadTenant ..
  | .enroll .. | .revoke .. | .setBadgeState .. | .erasePage .. | .setBankMode .. | .setCarService ..
  | .setFloorState .. => [.store, .host]
  | .setReports .. | .queryBadge .. | .queryCar .. | .queryBookings .. | .queryPart .. | .restart ..
  | .undefinedRequestType .. => [.host]
  | .hostPartialFrameTimeout .. => [.store, .calendar, .host]
  | .verifyMatch => [.store, .policy, .ports, .disp, .lines, .host]
  | .verifyMismatch => [.store, .ports, .host, .freeCount]
  | .recallInputAsserted .. => [.pins, .ports, .disp, .lines, .host]
  | .recallInputDeasserted .. => [.pins, .host]
  | .lrqAsserted .. | .lrqDeasserted .. => [.pins, .lines, .host]
  | .present .. | .ping .. | .readerPartialFrameTimeout .. => [.ports, .host]
  | .replyShifterDone .. => [.ports]
  | .presentationTaking => [.ports, .engine]
  | .decisionMoment => [.ports, .engine, .disp, .lines, .host]
  | .transactionChoice .. | .sweepDue .. | .commandSent .. | .backoffEnd .. | .faultEnd .. | .resendPauseEnd .. =>
    [.lines]
  | .readbackMismatch .. | .hold .. | .resend .. | .answerWindowExpiry .. => [.lines, .host]
  | .status .. | .answerByteTimeout .. | .badAnswer .. | .contactTimer .. | .abandonTimer => dispatchBlocks
  | .ticketExpiry => [.disp, .host]
  | .calendarSecondAdvance => [.calendar]
  | .busyReplySent | .reportSent | .reportStopIdleEnd => [.host]

/-! ### Requests -/

/-- The tag and the request that a request command carries. -/
def requestOf : Instr → Option (Byte × Request)
  | .setClock tag day weekday minute second dayType pendingType =>
    some (tag, .setClock day weekday minute second dayType pendingType)
  | .setNextDay tag dayType => some (tag, .setNextDay dayType)
  | .loadSite tag life => some (tag, .loadSite life)
  | .loadFloor tag floor c0 c1 c2 kind state banks => some (tag, .loadFloor floor c0 c1 c2 kind state banks)
  | .loadBank tag bank carCount capacity floorTime stopTime loadBias tripCap maxWait contactTime fullThreshold
      recallFloor =>
    some (tag, .loadBank bank carCount capacity floorTime stopTime loadBias tripCap maxWait contactTime fullThreshold
      recallFloor)
  | .loadReader tag reader enabled home banks kind holdTime =>
    some (tag, .loadReader reader enabled home banks kind holdTime)
  | .loadGroup tag group floors profile flags => some (tag, .loadGroup group floors profile flags)
  | .loadProfile tag profile intervals => some (tag, .loadProfile profile intervals)
  | .loadTenant tag tenant floors state => some (tag, .loadTenant tenant floors state)
  | .enroll tag badge state tenant units groups defaultFloor personal validFrom hasUntil validUntil =>
    some (tag, .enroll badge state tenant units groups defaultFloor personal validFrom hasUntil validUntil)
  | .revoke tag badge => some (tag, .revoke badge)
  | .setBadgeState tag badge state => some (tag, .setBadgeState badge state)
  | .erasePage tag page => some (tag, .erasePage page)
  | .setBankMode tag bank mode => some (tag, .setBankMode bank mode)
  | .setCarService tag bank car action => some (tag, .setCarService bank car action)
  | .setFloorState tag floor state => some (tag, .setFloorState floor state)
  | .setReports tag kinds => some (tag, .setReports kinds)
  | .queryBadge tag badge => some (tag, .queryBadge badge)
  | .queryCar tag bank car => some (tag, .queryCar bank car)
  | .queryBookings tag bank car start => some (tag, .queryBookings bank car start)
  | .queryPart tag => some (tag, .queryPart)
  | .restart tag => some (tag, .restart)
  | .undefinedRequestType type tag => some (tag, .undefinedType type)
  | _ => none

/-- May the port take a request now: RUNNING with the request state IDLE (R163)? -/
def State.canTake (s : State) : Prop := s.part.state = .running ∧ s.host.request = .idle

/-- The state after a request is answered at its taking: the receiver hunts again, the reply is built, and the
transmitter, if it was free, sends it (R164, R166). -/
def State.replied (s : State) (type tag : Byte) (status : ReplyStatus) (body : ReplyBody) : State :=
  s.setHost
    { s.host with
      rx := [], request := .replying { type := type, tag := tag, status := status, body := body },
      tx := if s.host.tx = .free then .sendingReply else s.host.tx }

/-- The state after a request begins a WRITE program (R13, R164): the page's image takes the stamp, the counter goes
up by one and stays at its end, and nothing else but the request state changes. -/
def State.writing (s : State) (type tag : Byte) (page stamp : Nat) (slots : List (List Byte)) (job : Job) : State :=
  ((s.setStore
      { s.store with
        programmer := some { page := page, image := writeImage page stamp slots, erase := false, job := job },
        stamp := some (min 4294967294 (stamp + 1)) }).setHost
    { s.host with rx := [], request := .executing type tag }).choose

/-- The state after a policy request begins the program of its item's page, built from the working copies with the one
item changed (R11). -/
def State.writingItem (s : State) (type tag : Byte) (stamp : Nat) (job : Job) : State :=
  s.writing type tag job.page stamp ((s.policy.apply job).pageSlots job.page) job

/-- R18, spelled out: the three conditions of a GOOD page. -/
def pageGood (m : List Host.Cell) (p : Nat) : Prop :=
  byteSum (pageRead m p 0 512) % 256 = 0 ∧ (pageMarker m p = 65535 ∨ pageMarker m p = p) ∧
    (pageMarker m p = 65535 → ∀ i < 512, Store.read m (512 * p + i) = 255)

/-! ### What a policy slot's bytes load (R20, R178, R179)

A byte beyond the end of a list reads as 0; the slots that the scan reads have all their 28 bytes. -/

/-- Byte `i` as a number. -/
def numAt (bs : List Byte) (i : Nat) : Nat := (bs.getD i 0).toNat

/-- R178: sixteen bytes hold a floor set: floor f at bit f mod 8 of byte f div 8. -/
def floorsHeld (bs : List Byte) (set : FloorSet) : Prop :=
  ∀ f : Floor, set.has f = (bs.getD (f.val / 8) 0).getLsbD (f.val % 8)

/-- R20, R23: a group slot's profile of 64 or above loads the erased default. Bits 2 to 7 of the flags are not read (DESIGN
CHOICE, log 27). -/
def groupLoads (bs : List Byte) (g : Group) : Prop :=
  (64 ≤ numAt bs 16 → g = Group.erased) ∧
    (numAt bs 16 < 64 →
      floorsHeld bs g.floors ∧ g.profile.val = numAt bs 16 ∧ g.enabled = (bs.getD 17 0).getLsbD 0 ∧
        g.override = (bs.getD 17 0).getLsbD 1)

/-- R20, R24, R179: a profile slot with a count above 6, a minute out of range or an undefined day type loads the erased
default. -/
def profileLoads (bs : List Byte) (p : List Interval) : Prop :=
  let word : Nat → Nat := fun i =>
    numAt bs (1 + 4 * i) + 256 * numAt bs (2 + 4 * i) + 65536 * numAt bs (3 + 4 * i) + 16777216 * numAt bs (4 + 4 * i)
  let start : Nat → Nat := fun i => word i % 2048
  let stop : Nat → Nat := fun i => word i / 2048 % 2048
  let refused : Prop :=
    6 < numAt bs 0 ∨ ∃ i < numAt bs 0, 1440 ≤ start i ∨ stop i = 0 ∨ 1440 < stop i ∨ 67108864 ≤ word i
  (refused → p = []) ∧
    (¬ refused →
      p.length = numAt bs 0 ∧
        ∀ i < numAt bs 0, ∃ x, p[i]? = some x ∧ x.start = start i ∧ x.stop = stop i ∧ x.days.toNat = word i / 4194304)

/-- R20, R26: an undefined state code loads the erased default. -/
def tenantLoads (bs : List Byte) (t : Tenant) : Prop :=
  (2 ≤ numAt bs 16 → t = Tenant.erased) ∧
    (numAt bs 16 < 2 → floorsHeld bs t.floors ∧ t.state = if numAt bs 16 = 0 then .normal else .locked)

/-- R20, R27: a label code outside 32 to 126, an undefined kind or state code or a bank of 4 or above loads the erased
default. -/
def floorLoads (bs : List Byte) (f : FloorRec) : Prop :=
  let refused : Prop :=
    (∃ i < 3, numAt bs i < 32 ∨ 126 < numAt bs i) ∨ 4 ≤ numAt bs 3 ∨ 2 ≤ numAt bs 4 ∨ 16 ≤ numAt bs 5
  (refused → f = FloorRec.erased) ∧
    (¬ refused →
      f.label = { c0 := bs.getD 0 0, c1 := bs.getD 1 0, c2 := bs.getD 2 0 } ∧
        f.kind =
          (match numAt bs 3 with
           | 0 => .ordinary
           | 1 => .lobby
           | 2 => .skyLobby
           | _ => .amenity) ∧
        f.state = (if numAt bs 4 = 0 then .isOpen else .isClosed) ∧ f.banks.toNat = numAt bs 5)

/-- R20, R30: a recall floor of 128 or above or an undefined stored mode loads the erased default, and the nine settings are
clamped. -/
def bankLoads (bs : List Byte) (b : BankRec) : Prop :=
  let clamp : Nat → Nat → Nat → Nat := fun low high n => max low (min high n)
  let refused : Prop := 128 ≤ numAt bs 11 ∨ 5 ≤ numAt bs 13
  (refused → b = BankRec.erased) ∧
    (¬ refused →
      b.carCount = clamp 1 8 (numAt bs 0) ∧ b.capacity = clamp 1 32 (numAt bs 1) ∧
        b.floorTime = clamp 5 100 (numAt bs 2) ∧ b.stopTime = clamp 20 300 (numAt bs 3 + 256 * numAt bs 4) ∧
        b.loadBias = clamp 0 50 (numAt bs 5) ∧ b.tripCap = clamp 2 8 (numAt bs 6) ∧
        b.maxWait = clamp 60 900 (numAt bs 7 + 256 * numAt bs 8) ∧ b.contactTime = clamp 1 10 (numAt bs 9) ∧
        b.fullThreshold = clamp 50 100 (numAt bs 10) ∧ b.recallFloor.val = numAt bs 11 ∧ b.withdrawn = bs.getD 12 0 ∧
        b.storedMode =
          (match numAt bs 13 with
           | 0 => .out
           | 1 => .normal
           | 2 => .upPeak
           | 3 => .lockdown
           | _ => .fireRecall))

/-- R20, R32: a home floor of 128 or above, a bank of 4 or above or an undefined kind loads the erased default, and the hold
time is clamped. -/
def readerLoads (bs : List Byte) (r : ReaderRec) : Prop :=
  let refused : Prop := 128 ≤ numAt bs 1 ∨ 16 ≤ numAt bs 2 ∨ (numAt bs 3 ≠ 1 ∧ numAt bs 3 ≠ 2)
  (refused → r = ReaderRec.erased) ∧
    (¬ refused →
      (r.enabled = true ↔ numAt bs 0 ≠ 0) ∧ r.home.val = numAt bs 1 ∧ r.banks.toNat = numAt bs 2 ∧
        r.kind = (if numAt bs 3 = 1 then .kiosk else .gate) ∧ r.holdTime = max 2 (min 30 (numAt bs 4)))

/-- R7 to R9: the sixteen slots of a credential page's image with one slot changed. Every other slot holds its record as it
is read, clamped (log 10), and a free slot is all 255. -/
def StoreBlock.imageSlots (st : StoreBlock) (p k : Nat) (new : List Byte) (slots : List (List Byte)) : Prop :=
  slots.length = 16 ∧
    ∀ j < 16, slots[j]? = some
      (if j = k then new
       else
         match st.record p j with
         | some r => encodeCredential r
         | none => List.replicate 28 255)

/-! ### Reports and completions -/

/-- R173: reports posted one after another. -/
def HostPort.posts (h : HostPort) (rs : List Report) : HostPort := rs.foldl HostPort.post h

/-- R164: the reply of this status is built for the request that was executing, and the transmitter makes its choice. -/
def HostPort.replies (h : HostPort) (status : ReplyStatus) : HostPort :=
  (match h.request with
   | .executing type tag => h.reply type tag status .empty
   | .idle | .replying _ => h).choose

/-- R14, R164: the reply DONE of a completion. -/
def HostPort.repliesDone (h : HostPort) : HostPort := h.replies .done

/-- The store's bytes are in their canonical form. -/
def State.storeOk (s : State) : Prop := Store.wf s.store.cells = true

/-- R14, R164: what a verify match of the program `g` leaves in the store, and the reply DONE. The canonical form of the
bytes is the model's (log 11). -/
def State.stores (s : State) (g : Program) (t : State) : Prop :=
  t.store.programmer = none ∧ t.store.stamp = s.store.stamp ∧
    (s.storeOk → g.image.length = 512 → ∀ i < 512, Store.read t.store.cells (512 * g.page + i) = g.image.getD i 255) ∧
    (∀ a, (a < 512 * g.page ∨ 512 * g.page + 512 ≤ a) →
      Store.read t.store.cells a = Store.read s.store.cells a) ∧
    (s.store.badPages ≠ none → t.store.bad g.page = false) ∧
    (∀ p, p ≠ g.page → t.store.bad p = s.store.bad p) ∧
    (2048 ≤ g.page → t.store.slotsInUse = s.store.slotsInUse) ∧
    ∀ type tag, s.host.request = .executing type tag →
      t.host.request = .replying { type := type, tag := tag, status := .done, body := .empty }

/-! ### Events of the Dispatch Engine -/

/-- R87, R121: the tickets that stay when bookings are cancelled: all but those that name one of them as first leg. -/
def State.ticketsWithout (s : State) (gone : Booking → Bool) : List Ticket :=
  s.disp.tickets.filter fun y =>
    !s.disp.bookings.any fun k => gone k && k.leg = .firstLeg && k.badge = y.badge && y.firstLeg = some k.id

/-- R87, R53: a port's memory when bookings are cancelled: empty when it holds a cancelled booking that was WAITING and of
the port, else as it was. -/
def State.memoryWithout (s : State) (gone : Booking → Bool) (q : PortNo) : Option GrantMemory :=
  (s.port q).memory.filter fun m =>
    !s.disp.bookings.any fun k => gone k && k.state = .waiting && k.port = q && k.id = m.booking

/-- R87: the BOOKING_CANCELLED reports of cancelled bookings, one each, in serial order. -/
def State.cancelReports (s : State) (reason : CancelReason) (gone : Booking → Bool) : List Report :=
  (serialOrder (s.disp.bookings.filter gone)).map fun k =>
    { cls := .routine, clock := s.part.clock, gap := false,
      body := .bookingCancelled k.id k.badge k.port k.bank k.car k.origin k.dest k.leg k.state reason }

/-- R98, R99, R115, R53: one WAITING booking of a lost car is moved, from `s` to `v`. It is taken off its car first. With
no winner it is cancelled NO_CAR. Else it goes to the car whose lane is the lowest, the lowest number among equals, which
gains its stop, and a memory of its port that holds its id takes the new hall name. -/
def State.moves (s : State) (k : Booking) (v : State) : Prop :=
  let off := (s.removeBooking k.id).resyncKeep k.bank k.car
  ((∀ h, off.lane k.bank k.trip h = 65535) → v = s.cancel .noCar k) ∧
    ∀ c, off.lane k.bank k.trip c ≠ 65535 → (∀ h, off.lane k.bank k.trip c ≤ off.lane k.bank k.trip h) →
      (∀ h < c, off.lane k.bank k.trip c < off.lane k.bank k.trip h) →
      v = ((off.setBookings (s.disp.bookings.map fun x => if x.id = k.id then { x with car := c } else x)).resyncKeep
        k.bank c).announceMoved k.port k.id k.bank c

/-- R98: bookings moved one after another, each read against what the one before left. -/
def State.movesAll : State → List Booking → State → Prop
  | s, [], u => u = s
  | s, k :: ks, u => ∃ v, s.moves k v ∧ v.movesAll ks u

/-! ### Answers of cars -/

/-- R131: a STATUS body is bad. -/
def statusBad (position direction motion doors carMode freshness : Byte) (calls : List Byte) : Prop :=
  128 ≤ position.toNat ∨ 3 ≤ direction.toNat ∨ 2 ≤ motion.toNat ∨ 4 ≤ doors.toNat ∨ 4 ≤ carMode.toNat ∨
    (freshness ≠ 1 ∧ freshness ≠ 2) ∨ 4 < calls.length ∨ ∃ f ∈ calls, 128 ≤ f.toNat

/-- R131, R182: a complete answer to the car in hand is bad: its sum, its address, its kind, its length, or a field of its
STATUS. -/
def answerBad (car : CarNo) (address kind len : Byte) (body : List Byte) (check : Byte) : Prop :=
  byteSum ([0x69, address, kind, len] ++ body ++ [check]) % 256 ≠ 0 ∨ address.toNat ≠ car.val ∨
    (kind ≠ 1 ∧ kind ≠ 2 ∧ kind ≠ 3) ∨ ((kind = 2 ∨ kind = 3) ∧ body ≠ []) ∨
    (kind = 1 ∧
      ((∀ position direction motion doors carMode load freshness held accepted count : Byte, ∀ calls : List Byte,
          body = [position, direction, motion, doors, carMode, load, freshness, held, accepted, count] ++ calls →
          calls.length ≠ count.toNat) ∨
        ∃ position direction motion doors carMode load freshness held accepted count : Byte, ∃ calls : List Byte,
          body = [position, direction, motion, doors, carMode, load, freshness, held, accepted, count] ++ calls ∧
            statusBad position direction motion doors carMode freshness calls))

/-! ### Decisions -/

/-- R66: the ticket of the presentation's badge for its home floor. -/
def State.ticketHeld (s : State) (x : Presentation) (home : Floor) (k : Ticket) : Prop :=
  k ∈ s.disp.tickets ∧ k.badge = x.badge ∧ k.transfer = home

/-- R66: that ticket is used. -/
def State.ticketUsed (s : State) (x : Presentation) (home : Floor) (k : Ticket) : Prop :=
  s.ticketHeld x home k ∧ (x.floor = none ∨ x.floor = some k.dest)

/-- R33: a bank of the effective bank set. -/
def State.enters (s : State) (home : Floor) (banks : BankSet) (b : Bank) : Prop :=
  banks.has b = true ∧ s.serves b home = true

/-- R69: a direct candidate. -/
def State.direct (s : State) (home : Floor) (banks : BankSet) (d : Floor) (b : Bank) : Prop :=
  s.enters home banks b ∧ s.serves b d = true

/-- R70: an onward bank of a transfer floor. -/
def State.onwardTo (s : State) (t d : Floor) (b : Bank) : Prop := s.serves b t = true ∧ s.serves b d = true

/-- R70: a transfer candidate. -/
def State.transferPair (s : State) (home : Floor) (banks : BankSet) (d : Floor) (b : Bank) (t : Floor) : Prop :=
  s.enters home banks b ∧ (s.floor t).kind = .skyLobby ∧ (s.floor t).state = .isOpen ∧ t ≠ home ∧
    s.serves b t = true ∧ ∃ h, s.onwardTo t d h

/-- R67, R69, R70: step 10 finds a candidate. -/
def State.reaches (s : State) (home : Floor) (banks : BankSet) (d : Floor) : Prop :=
  (∃ b, s.direct home banks d b) ∨ ∃ b t, s.transferPair home banks d b t

/-- R67 item 3: a candidate floor. -/
def State.candidateFloor (s : State) (r : Credential) (home : Floor) (banks : BankSet) (f : Floor) : Prop :=
  (s.permitted r).has f = true ∧ (s.floor f).kind = .ordinary ∧ f ≠ home ∧ s.reaches home banks f

/-- R67 items 2 and 3: the floor that is taken for a presentation that carries none. -/
def State.favours (s : State) (r : Credential) (home : Floor) (banks : BankSet) : Option Floor → Prop
  | some d =>
    (r.defaultFloor = some d ∧ (s.permitted r).has d = true) ∨
      ((∀ f, r.defaultFloor = some f → (s.permitted r).has f = false) ∧
        ∀ f, s.candidateFloor r home banks f ↔ f = d)
  | none =>
    (∀ f, r.defaultFloor = some f → (s.permitted r).has f = false) ∧
      ¬ ∃ d, ∀ f, s.candidateFloor r home banks f ↔ f = d

/-- R66, R67: what step 6 resolves the destination to, `none` for no destination. -/
def State.resolves (s : State) (x : Presentation) (r : Credential) (home : Floor) (banks : BankSet) :
    Option Floor → Prop
  | some d =>
    (∃ k, s.ticketUsed x home k ∧ d = k.dest) ∨
      ((∀ k, ¬ s.ticketUsed x home k) ∧
        (x.floor = some d ∨ (x.floor = none ∧ s.favours r home banks (some d))))
  | none => (∀ k, ¬ s.ticketUsed x home k) ∧ x.floor = none ∧ s.favours r home banks none

/-- R71: a bank passes the mode filter. -/
def State.bankPasses (s : State) (r : Credential) (b : Bank) : Prop :=
  s.mode b = some .normal ∨ s.mode b = some .upPeak ∨ (s.mode b = some .lockdown ∧ s.overrideFlag r = true)

/-- R71: a transfer pair remains. -/
def State.pairRemains (s : State) (r : Credential) (home : Floor) (banks : BankSet) (d : Floor) (b : Bank) (t : Floor) :
    Prop :=
  s.transferPair home banks d b t ∧ s.bankPasses r b ∧ ∃ h, s.onwardTo t d h ∧ s.bankPasses r h

/-- R71: a bank dropped in forming the filter. -/
def State.bankDropped (s : State) (r : Credential) (home : Floor) (banks : BankSet) (d : Floor) (b : Bank) : Prop :=
  ¬ s.bankPasses r b ∧
    (s.direct home banks d b ∨
      ((∀ h, ¬ s.direct home banks d h) ∧
        ∃ t, s.transferPair home banks d b t ∨ ∃ h, s.transferPair home banks d h t ∧ s.onwardTo t d b))

/-- R71: the reason of step 11 when nothing remains. -/
def State.filterReason (s : State) (r : Credential) (home : Floor) (banks : BankSet) (d : Floor) (e : DenyReason) :
    Prop :=
  let fire : Prop := ∃ b, s.bankDropped r home banks d b ∧ s.mode b = some .fireRecall
  let locked : Prop := ∃ b, s.bankDropped r home banks d b ∧ s.mode b = some .lockdown
  (fire ∧ e = .emergency) ∨ (¬ fire ∧ locked ∧ e = .lockdown) ∨ (¬ fire ∧ ¬ locked ∧ e = .noService)

/-- R72: step 12 finds no room. -/
def State.noRoom (s : State) (r : Credential) (home : Floor) (banks : BankSet) (d : Floor) : Prop :=
  (∀ i < 512, ∃ k ∈ s.disp.bookings, k.id = i) ∨
    ((∀ b, ¬ s.direct home banks d b) ∧ 256 ≤ s.disp.tickets.length ∧ ∀ t ∈ s.disp.tickets, t.badge ≠ r.badge)

/-- R73: every lane of every candidate that remains is EXCLUDED. -/
def State.noCar (s : State) (r : Credential) (home : Floor) (banks : BankSet) (d : Floor) : Prop :=
  (∀ b, s.direct home banks d b → s.bankPasses r b →
    ∀ c, s.lane b { origin := home, dest := d, units := r.units } c = 65535) ∧
  ((∀ b, ¬ s.direct home banks d b) →
    ∀ b t, s.pairRemains r home banks d b t →
      ∀ c, s.lane b { origin := home, dest := t, units := r.units } c = 65535)

/-- R68 to R73: the reason of the first of steps 7 to 13 that fails for a resolved destination. -/
def State.refuses (s : State) (r : Credential) (home : Floor) (banks : BankSet) (d : Floor) (e : DenyReason) : Prop :=
  let remains : Prop :=
    (∃ b, s.direct home banks d b ∧ s.bankPasses r b) ∨
      ((∀ b, ¬ s.direct home banks d b) ∧ ∃ b t, s.pairRemains r home banks d b t)
  (d = home ∧ e = .sameFloor) ∨
    (d ≠ home ∧
      (((s.floor d).state = .isClosed ∧ e = .floorClosed) ∨
        ((s.floor d).state = .isOpen ∧
          (((s.permitted r).has d = false ∧ e = .notPermitted) ∨
            ((s.permitted r).has d = true ∧
              ((¬ s.reaches home banks d ∧ e = .noRoute) ∨
                (s.reaches home banks d ∧
                  ((¬ remains ∧ s.filterReason r home banks d e) ∨
                    (remains ∧
                      ((s.noRoom r home banks d ∧ e = .full) ∨
                        (¬ s.noRoom r home banks d ∧ s.noCar r home banks d ∧ e = .noCar)))))))))))

/-! ### Invariants -/

/-- The Report Queue holds at most 32 reports (R176). -/
def State.queueOk (s : State) : Prop := s.host.queue.length ≤ 32

/-- R166, R174, R175: what the transmitter sends is there to be sent, nothing waits while it is free, and no ROUTINE
report is sent while an URGENT one is queued. -/
def State.transmitterOk (s : State) : Prop :=
  match s.host.tx with
  | .free => (∀ r, s.host.request ≠ .replying r) ∧ s.host.owedBusy = none ∧ s.host.queue = []
  | .sendingReply => ∃ r, s.host.request = .replying r
  | .sendingBusy => s.host.owedBusy ≠ none
  | .sendingReport .urgent => ∃ r ∈ s.host.queue, r.cls = .urgent
  | .sendingReport .routine => (∃ r ∈ s.host.queue, r.cls = .routine) ∧ ∀ r ∈ s.host.queue, r.cls ≠ .urgent
  | .stopIdle => True

/-- R139: each line's dirty queue holds exactly the dirty cars of its bank, none twice. -/
def State.dirtyOk (s : State) : Prop :=
  ∀ l, (s.line l).queue.Nodup ∧ ∀ c, c ∈ (s.line l).queue ↔ (s.car l c).dirty = true

/-- R83, R139, R140: the order in which an event that leads from `s` to `t` leaves a dirty queue: the cars that stay dirty
as they stood, then those that became dirty, in car order. -/
def State.dirtyOrder (s t : State) (l : Bank) : List CarNo :=
  (s.line l).queue.filter (fun c => (t.car l c).dirty) ++
    (List.finRange 8).filter fun c => (t.car l c).dirty && !(s.car l c).dirty

/-- R140: the queue after the end of a delivery to `c`: a car that is still in it moves to the tail. -/
def deliveredOrder (q : List CarNo) (c : CarNo) : List CarNo :=
  if c ∈ q then q.filter (fun x => x ≠ c) ++ [c] else q

/-- R79: booking ids lie below 512 and are used once, a trip's ends differ, and a rider takes 1 or 4 units. -/
def State.bookingsOk (s : State) : Prop :=
  (s.disp.bookings.map fun k => k.id).Nodup ∧
    ∀ k ∈ s.disp.bookings, k.id < 512 ∧ k.origin ≠ k.dest ∧ (k.units = 1 ∨ k.units = 4)

/-- R118: at most 256 tickets, at most one for a badge, each with its two floors different. -/
def State.ticketsOk (s : State) : Prop :=
  s.disp.tickets.length ≤ 256 ∧ (s.disp.tickets.map fun t => t.badge).Nodup ∧
    ∀ t ∈ s.disp.tickets, t.transfer ≠ t.dest

/-- R168 and the chapters' reset values: while STARTING nothing is in hand, nothing is posted and every table is
empty. -/
def State.startingOk (s : State) : Prop :=
  (s.part.resetPin = true → s.part.state = .starting ∧ s.part.scanning = false) ∧
  (s.part.state = .starting →
    s.store.programmer = none ∧ s.host.request = .idle ∧ s.host.queue = [] ∧ s.engine.inHand = none ∧
      s.disp.bookings = [] ∧ s.disp.tickets = [] ∧ (∀ b, s.mode b = none) ∧
      (∀ b c, (s.car b c).service = .absent) ∧
      (∀ l, (s.line l).state = .idle ∧ (s.line l).inHand = none ∧ (s.line l).queue = []) ∧
      ∀ p, (s.port p).state = .idle ∧ (s.port p).memory = none)

/-- R46, R47, R58, R59: what a port may hold in each of its states. A reload clears the memory, and no grant writes it
while the reload mark names DISABLED. -/
def Port.ok (p : Port) : Prop :=
  (p.reload = some false → p.memory = none) ∧
    match p.state with
    | .disabled => p.slot = none ∧ p.buffer = none ∧ p.memory = none ∧ p.reload = none
    | .idle => p.slot = none ∧ p.buffer = none ∧ p.reload = none
    | .pending => p.slot ≠ none ∧ p.buffer = none ∧ (p.reload ≠ none → p.isTaken = true)
    | .deferred => p.slot ≠ none ∧ p.isTaken = false ∧ p.buffer = none ∧ p.reload = none
    | .answering => p.slot = none ∧ p.shifter ≠ none

/-- R46 to R61: every port holds what its state allows, and a presentation is marked taken in a slot exactly when it is
the one that the engine has in hand. -/
def State.portsOk (s : State) : Prop :=
  (∀ p, (s.port p).ok) ∧
    (∀ p x, (s.port p).slot = some x → x.pres.port = p ∧ (x.taken = true → s.engine.inHand = some x.pres)) ∧
    ∀ x, s.engine.inHand = some x →
      (s.port x.port).state = .pending ∧ (s.port x.port).slot = some { pres := x, taken := true }

/-- A bank that carries nobody: OUT, FIRE_RECALL, or no mode yet. -/
def State.quiet (s : State) (b : Bank) : Prop :=
  s.mode b = some .out ∨ s.mode b = some .fireRecall ∨ s.mode b = none

/-- R120: a bank in OUT or FIRE_RECALL has no bookings and is named by no ticket. -/
def State.quietOk (s : State) : Prop :=
  ∀ b, s.quiet b → (∀ k ∈ s.disp.bookings, k.bank ≠ b) ∧ ∀ t ∈ s.disp.tickets, t.names b = false

/-- R19, R7: no two slots in use hold one badge number. -/
def StoreBlock.badgesOnce (st : StoreBlock) : Prop :=
  ∀ p k q j r x, k < 16 → j < 16 → st.record p k = some r → st.record q j = some x → r.badge = x.badge →
    p = q ∧ k = j

/-- R19, R7: no two slots in use hold one badge number, now or when the program in flight completes. -/
def State.badgesOk (s : State) : Prop :=
  s.store.badgesOnce ∧ ∀ g, s.store.programmer = some g → (s.store.complete g).badgesOnce

/-- R30, R16: a LOAD-BANK in flight is for a bank that carries nobody, and an ERASE-PAGE of page 2084 finds every bank so:
the guards of their takings still hold. -/
def State.programOk (s : State) : Prop :=
  ∀ g, s.store.programmer = some g →
    (∀ b r, g.job = .bank b r → s.quiet b) ∧ (g.job = .erase → g.page = 2084 → ∀ b, s.quiet b)

/-- R82: the phase of a key in the sweep from `p` in direction `r`. -/
def sweepPhase (r : Dir) (p : Floor) (k : Key) : Nat :=
  if k.dir ≠ r then 1
  else if (r = .up ∧ p ≤ k.floor) ∨ (r = .down ∧ k.floor ≤ p) then 0
  else 2

/-- R82: sweep order: by phase, and within a phase UP entries rising and DOWN entries falling. -/
abbrev sweepBefore (r : Dir) (p : Floor) (d e : Key) : Prop :=
  sweepPhase r p d < sweepPhase r p e ∨
    (sweepPhase r p d = sweepPhase r p e ∧ if d.dir = .up then d.floor < e.floor else e.floor < d.floor)

/-- R81, R82: a stop list in step with its car's bookings: each entry's pickup and drop duties follow the bookings and it
has a duty, every booking has its entry, keys are distinct and in sweep order, and a planned direction is held exactly
while there are entries. -/
def Car.listOk (c : Car) (bs : List Booking) : Prop :=
  (∀ e ∈ c.stops,
    (e.pickup = true ↔ ∃ k ∈ bs, k.state = .waiting ∧ k.pickupKey = e.key) ∧
    (e.drop = true ↔ ∃ k ∈ bs, k.state = .riding ∧ k.dropKey = e.key) ∧
    (e.pickup = true ∨ e.drop = true ∨ e.call = true)) ∧
  (∀ k ∈ bs, (if k.state = .waiting then k.pickupKey else k.dropKey) ∈ c.keys) ∧
  c.keys.Nodup ∧ c.keys.Pairwise (sweepBefore c.refDir c.refPos) ∧ (c.planned = none ↔ c.stops = [])

/-- R84: the enabled floors of a configured car: none in FIRE_RECALL, else the OPEN free floors that its bank serves and
the destinations of its RIDING bookings. -/
def State.enabledAt (s : State) (b : Bank) (c : CarNo) (f : Floor) : Prop :=
  s.mode b ≠ some .fireRecall ∧
    (((s.floor f).state = .isOpen ∧ (s.floor f).kind ≠ .ordinary ∧ s.serves b f = true) ∨
      ∃ k ∈ s.disp.bookings, k.bank = b ∧ k.car = c ∧ k.state = .riding ∧ k.dest = f)

/-- R81 to R85, R98: a car in step with the Booking Table: its list, its enabled set, car calls only at enabled floors, no
more committed units than the capacity, at most 24 projected stops, WAITING bookings only IN_SERVICE, and nothing at all
on an ABSENT car. -/
def State.carOk (s : State) (b : Bank) (c : CarNo) : Prop :=
  let car := s.car b c
  let bs := s.carBookings b c
  car.listOk bs ∧
    (∀ f, car.enabled.has f = true ↔ car.service ≠ .absent ∧ s.enabledAt b c f) ∧
    (∀ e ∈ car.stops, e.call = true → car.enabled.has e.key.floor = true) ∧
    unitsOf bs ≤ (s.bank b).capacity ∧
    (car.keys ++ (bs.filter fun k => k.state = .waiting).map Booking.dropKey).dedup.length ≤ 24 ∧
    (car.service ≠ .inService → ∀ k ∈ bs, k.state ≠ .waiting) ∧ (car.service = .absent → bs = [] ∧ car.stops = [])

/-- R81 to R85, R98: every car is in step with the Booking Table. -/
def State.carsOk (s : State) : Prop := ∀ b c, s.carOk b c

end Sys2Proof.Machine
end

