-- ==== Sys2Proof/Certificates/Slice0/Obligations.lean ====
section
/-! DEFINITION. The statements for the provers, in the order of OBLIGATIONS.json. A statement that rests on a choice of
the model says so and names the log entry. -/

open Sys2Proof Sys2Proof.Machine

/-! ### The step -/

/-- Step takes the command at the front of the queue and runs it with the rest of the queue. The model's choice (log
1, log 12): on an empty queue a tenth of a second passes, and nothing while the RESET pin is held. -/
def Obligations.StepRunsTheFrontCommandOrTicks : Prop :=
  (∀ (s : State) (c : Instr) (rest : List Instr), s.pending = c :: rest → step s = exec c (s.setPending rest)) ∧
  (∀ s : State, s.pending = [] →
    (s.part.resetPin = true → step s = .next s) ∧
    (s.part.resetPin = false →
      ∃ t, step s = .next t ∧ t.part = { s.part with clock := s.part.clock + 1 } ∧
        (∀ l, t.line l = { s.line l with time := (s.line l).time + 100 }) ∧ s.changesOnly [.part, .lines] t))

/-- No command changes a block that it does not reach, and every command completes. -/
def Obligations.CommandsCompleteAndChangeOnlyTheirBlocks : Prop :=
  ∀ (c : Instr) (s : State), ∃ t, exec c s = .next t ∧ s.changesOnly (blocksOf c) t

/-! ### Reset, scan and start -/

/-- R168 with the reset values of R17, R20, R22, R35, R46, R60, R79, R80, R118, R128, R149, R164, R173, R177: the
RESET pin gives every block its reset values, whatever they held; the store's bytes and the input levels stay, but for
a page whose program it interrupts. The model's choices: the line values while STARTING (log 21), the receivers (log
37), the moment of the last advance (log 26) and the count of open values (log 29). -/
def Obligations.ResetPinGivesTheResetValues : Prop :=
  ∀ s : State, ∃ t, exec .resetPin s = .next t ∧ t.pending = s.pending ∧ t.pins = s.pins ∧
    t.part = { state := .starting, resetPin := true, scanning := false, cause := .pin, clock := 0 } ∧
    t.store.badPages = none ∧ t.store.freed = [] ∧ t.store.stamp = none ∧ t.store.programmer = none ∧
    t.store.slotsInUse = 0 ∧ (s.store.programmer = none → t.store.cells = s.store.cells) ∧
    (∀ g, s.store.programmer = some g → ∀ a, (a < 512 * g.page ∨ 512 * g.page + 512 ≤ a) →
      Store.read t.store.cells a = Store.read s.store.cells a) ∧
    (∀ n, t.group n = { floors := 0, profile := 0, enabled := false, override := false }) ∧
    (∀ n, t.policy.profiles.get n = []) ∧ (∀ n, t.policy.tenants.get n = { floors := 0, state := .normal }) ∧
    (∀ f, t.floor f =
      { label := { c0 := 45, c1 := 45, c2 := 45 }, kind := .ordinary, state := .isClosed, banks := 0 }) ∧
    (∀ b, t.bank b =
      { carCount := 1, capacity := 16, floorTime := 15, stopTime := 80, loadBias := 10, tripCap := 4, maxWait := 300,
        contactTime := 3, fullThreshold := 90, recallFloor := 0, withdrawn := 0, storedMode := .out }) ∧
    (∀ p, t.reader p = { enabled := false, home := 0, banks := 0, kind := .kiosk, holdTime := 8 }) ∧
    t.policy.ticketLife = 600 ∧
    t.calendar =
      { isSet := false, day := 0, weekday := 0, minute := 0, second := 0, dayType := .workday, pendingType := none,
        lastAdvance := 0 } ∧
    (∀ p, t.port p =
      { state := .idle, slot := none, shifter := none, buffer := none, memory := none, reload := none, rx := [] }) ∧
    t.engine = { inHand := none, entryCopy := none, pointer := 15 } ∧
    t.disp.bookings = [] ∧ t.disp.serial = 0 ∧ t.disp.tickets = [] ∧ (∀ b, t.mode b = none) ∧
    (∀ b c, t.car b c =
      { service := .absent, status := none, age := none, stale := 0, planned := none, stops := [], enabled := 0,
        gen := 0, confirmed := none, recallDue := false, full := false }) ∧
    (∀ l, t.line l =
      { state := .idle, inHand := none, queue := [], sweep := none, lastSweep := none, history := [], mismatches := 0,
        faultMark := false, pausing := false, rx := [], time := 0, ends := none }) ∧
    t.host.rx = [] ∧ t.host.request = .idle ∧ t.host.owedBusy = none ∧ t.host.tx = .free ∧ t.host.queue = [] ∧
    t.host.gap = false ∧ (∀ k < 10, t.host.enables.getLsbD k = true ↔ k ≠ 2) ∧
    t.freeCount = s.freeCount + (if s.store.programmer = none then 0 else 1)

/-- R18, R20, R2, R22, R179: the scan that begins at the release of the RESET pin judges every page by its three
conditions, lists the BAD ones in ascending order and sets the write stamp counter; an item on a BAD page, and an item
whose slot is erased, takes the erased default; every other item takes what its slot's bytes hold: the erased default
where a field would be refused, else the fields, clamped where its request clamps. The spare flag bits of a group are the
model's (DESIGN CHOICE, log 27); that the scan is done whole at its beginning is too (log 9). -/
def Obligations.ScanJudgesPagesAndLoadsItems : Prop :=
  (∀ s : State, s.part.resetPin = true →
    ∃ t, exec .resetPinRelease s = .next t ∧ t.store.cells = s.store.cells ∧
      t.part = { s.part with resetPin := false, scanning := true } ∧ s.changesOnly [.part, .store, .policy] t ∧
      (∀ p < 2112, t.store.bad p = false ↔ pageGood s.store.cells p) ∧
      ∃ n, t.store.stamp = some n ∧
        (∀ p < 2112, ∀ m, pageGood s.store.cells p → pageStamp s.store.cells p = some m →
          m ≤ n ∧ (m < n ∨ n = 4294967294)) ∧
        (n = 1 ∨ ∃ p < 2112, ∃ m, pageGood s.store.cells p ∧ pageStamp s.store.cells p = some m ∧
          n = min 4294967294 (m + 1)) ∧
        ∃ pages, t.store.badPages = some pages ∧ pages.Pairwise (· < ·) ∧
          ∀ p, p ∈ pages ↔ p < 2112 ∧ ¬ pageGood s.store.cells p) ∧
  (∀ s : State, s.part.resetPin = true →
    ∃ t, exec .resetPinRelease s = .next t ∧
      (∀ n : Fin 256, let p := 2048 + n.val / 16
        (¬ pageGood s.store.cells p ∨ slotRead s.store.cells p (n.val % 16) = freeSlot) →
          t.policy.groups.get n = Group.erased) ∧
      (∀ n : Fin 64, let p := 2064 + n.val / 16
        (¬ pageGood s.store.cells p ∨ slotRead s.store.cells p (n.val % 16) = freeSlot) →
          t.policy.profiles.get n = []) ∧
      (∀ n : Fin 128, let p := 2068 + n.val / 16
        (¬ pageGood s.store.cells p ∨ slotRead s.store.cells p (n.val % 16) = freeSlot) →
          t.policy.tenants.get n = Tenant.erased) ∧
      (∀ f : Floor, let p := 2076 + f.val / 16
        (¬ pageGood s.store.cells p ∨ slotRead s.store.cells p (f.val % 16) = freeSlot) →
          t.floor f = FloorRec.erased) ∧
      (∀ b : Bank, (¬ pageGood s.store.cells 2084 ∨ slotRead s.store.cells 2084 b.val = freeSlot) →
        t.bank b = BankRec.erased) ∧
      (∀ r : PortNo, (¬ pageGood s.store.cells 2085 ∨ slotRead s.store.cells 2085 r.val = freeSlot) →
        t.reader r = ReaderRec.erased) ∧
      ((¬ pageGood s.store.cells 2084 ∨ slotRead s.store.cells 2084 4 = freeSlot) → t.policy.ticketLife = 600)) ∧
  (∀ s : State, s.part.resetPin = true →
    let holds : Nat → Nat → List Byte → Prop := fun p k bs =>
      pageGood s.store.cells p ∧ bs = slotRead s.store.cells p k ∧ bs ≠ freeSlot
    ∃ t, exec .resetPinRelease s = .next t ∧
      (∀ (n : Fin 256) (bs : List Byte), holds (2048 + n.val / 16) (n.val % 16) bs →
        groupLoads bs (t.policy.groups.get n)) ∧
      (∀ (n : Fin 64) (bs : List Byte), n ≠ 0 → holds (2064 + n.val / 16) (n.val % 16) bs →
        profileLoads bs (t.policy.profiles.get n)) ∧
      (∀ (n : Fin 128) (bs : List Byte), holds (2068 + n.val / 16) (n.val % 16) bs →
        tenantLoads bs (t.policy.tenants.get n)) ∧
      (∀ (f : Floor) (bs : List Byte), holds (2076 + f.val / 16) (f.val % 16) bs → floorLoads bs (t.floor f)) ∧
      (∀ (b : Bank) (bs : List Byte), holds 2084 b.val bs → bankLoads bs (t.bank b)) ∧
      (∀ (r : PortNo) (bs : List Byte), holds 2085 r.val bs → readerLoads bs (t.reader r)) ∧
      ∀ bs : List Byte, holds 2084 4 bs →
        t.policy.ticketLife = max 60 (min 1800 (numAt bs 0 + 256 * numAt bs 1)))

/-- R19 (a page without a stamp in range counts as bearing the lowest, log 8): after the scan a slot is in use exactly
when its GOOD page lies in the probe range of the record that its bytes hold, and no other such slot with that badge
lies on a page of a greater stamp, or of the same stamp and earlier in probe order; the count is of the slots kept.
R3, R4, R19: when the 28 bytes of a slot hold no record, and the record they hold, read clamped. -/
def Obligations.ScanKeepsOneSlotForABadge : Prop :=
  (∀ s : State, s.part.resetPin = true →
    ∃ t, exec .resetPinRelease s = .next t ∧
      (let m := s.store.cells
       let holds : Nat → Nat → Credential → Prop := fun p k r =>
         pageGood m p ∧ decodeCredential (slotRead m p k) = some r ∧ p ∈ probeRange r.badge
       let stamp : Nat → Nat := fun p => (pageStamp m p).getD 0
       ∀ p k r, k < 16 →
         (t.store.record p k = some r ↔
           holds p k r ∧ ∀ q j x, j < 16 → holds q j x → x.badge = r.badge → (q, j) ≠ (p, k) →
             stamp q < stamp p ∨
               (stamp q = stamp p ∧ ∃ i i' : Nat, i < i' ∧ (probeSlots r.badge)[i]? = some (p, k) ∧
                 (probeSlots r.badge)[i']? = some (q, j)))) ∧
      t.store.slotsInUse =
        ((List.range 2048).map fun p => ((List.range 16).filter fun k => (t.store.record p k).isSome).length).sum) ∧
  ∀ bs : List Byte, bs.length = 28 →
    let n : Nat → Nat := fun i => (bs.getD i 0).toNat
    let badge := n 0 + 256 * n 1 + 65536 * n 2 + 16777216 * n 3
    (decodeCredential bs = none ↔
      badge = 0 ∨ badge = 4294967295 ∨ n 4 = 0 ∨ 3 < n 4 ∨ 128 ≤ n 5 ∨ n 7 = 0 ∨ 4 < n 7 ∨ 2 < n 13 ∨
        (n 18 ≠ 0 ∧ n 19 + 256 * n 20 < n 16 + 256 * n 17)) ∧
    ∀ r, decodeCredential bs = some r →
      r.badge.toNat = badge ∧ r.state.code.toNat = n 4 ∧ r.tenant.val = n 5 ∧
      r.units = (if n 6 ≤ 1 then 1 else 4) ∧ r.groups = (bs.drop 8).take (n 7) ∧
      r.defaultFloor.map (fun f => f.val) = (if n 12 < 128 then some (n 12) else none) ∧
      r.personal.map (fun f => f.val) =
        (((bs.drop 14).take (n 13)).map fun b => b.toNat).filter (fun m => m < 128) ∧
      r.validFrom.toNat = n 16 + 256 * n 17 ∧
      r.validUntil.map (fun d => d.toNat) = (if n 18 = 0 then none else some (n 19 + 256 * n 20))

/-- R21, R46, R80, R128, R149, R168: what the end of the scan leaves, and its reports: URGENT STARTED, then a STORE_FAULT
with cause SCAN for each BAD page (listed in ascending order by ScanJudgesPagesAndLoadsItems) and a RECALL_INPUT
ASSERTED for each bank whose recall input is asserted, each posted as PostedReportJoinsOrIsLost says. Which of the two
groups comes first is free (DESIGN CHOICE, log 7). The order of the banks (DESIGN CHOICE, log 39) and the transmitter's
one choice after all of them (DESIGN CHOICE, log 40) are the model's; so is each line's own count of milliseconds, which
goes on (DESIGN CHOICE, log 2). -/
def Obligations.ScanEndStartsEveryBlock : Prop :=
  ∀ s : State, s.part.state = .starting → s.part.scanning = true →
    let faults := (s.store.badPages.getD []).map fun p => ReportBody.storeFault p false
    let recalls := ((List.finRange 4).filter fun b => s.pins.rcl.get b).map fun b => ReportBody.recallInput b true
    let started := ReportBody.started s.part.cause s.calendar.isSet s.store.badCredential s.store.badPolicy
    let posted : List ReportBody → HostPort := fun bodies =>
      (bodies.foldl
        (fun h x => h.post { cls := .urgent, clock := s.part.clock, body := x, gap := false }) s.host).choose
    ∃ t, exec .startUpScanEnd s = .next t ∧ t.part = { s.part with state := .running, scanning := false } ∧
      (∀ b, t.mode b = some (if s.pins.rcl.get b then .fireRecall else (s.bank b).storedMode)) ∧
      (∀ b c, (t.car b c).stops = [] ∧ (t.car b c).status = none ∧ (t.car b c).confirmed = none ∧
        (t.car b c).gen = 0 ∧ (t.car b c).age = none ∧ (t.car b c).stale = 0 ∧ (t.car b c).planned = none ∧
        (t.car b c).full = false ∧
        ((s.bank b).carCount ≤ c.val →
          (t.car b c).service = .absent ∧ (t.car b c).enabled = 0 ∧ (t.car b c).recallDue = false) ∧
        (c.val < (s.bank b).carCount → t.mode b = some .fireRecall →
          (t.car b c).service = .recalled ∧ (t.car b c).enabled = 0 ∧ (t.car b c).recallDue = true) ∧
        (c.val < (s.bank b).carCount → t.mode b ≠ some .fireRecall →
          (t.car b c).service = .outOfContact ∧ (t.car b c).recallDue = false ∧
          ∀ f, (t.car b c).enabled.has f = true ↔
            (s.floor f).state = .isOpen ∧ (s.floor f).kind ≠ .ordinary ∧ s.serves b f = true)) ∧
      (∀ l, (t.line l).state = (if s.pins.lrq.get l then .released else .idle) ∧ (t.line l).inHand = none ∧
        (t.line l).queue = (List.finRange 8).filter (fun c => c.val < (s.bank l).carCount) ∧
        (t.line l).sweep = none ∧ (t.line l).lastSweep = none ∧ (t.line l).history = [] ∧
        (t.line l).mismatches = 0 ∧ (t.line l).faultMark = false ∧ (t.line l).pausing = false ∧ (t.line l).rx = [] ∧
        (t.line l).ends = none ∧ (t.line l).time = (s.line l).time) ∧
      (∀ p, t.port p = if (s.reader p).enabled then s.port p else { s.port p with state := .disabled }) ∧
      t.disp.bookings = [] ∧ t.disp.tickets = [] ∧ t.disp.serial = 0 ∧
      (t.host = posted (started :: faults ++ recalls) ∨ t.host = posted (started :: recalls ++ faults)) ∧
      (s.host.queue = [] → s.host.enables = HostPort.resetEnables →
        (t.host.queue.head?.map fun r => (r.cls, r.clock, r.body)) = some (.urgent, s.part.clock, started)) ∧
      s.changesOnly [.part, .ports, .disp, .lines, .host, .freeCount] t

/-! ### Requests -/

/-- R162, R163: a good frame of an undefined type is taken and answered BAD_VALUE; a good frame that is not taken
makes one BUSY owed, or, when one is owed, leaves nothing, and has no other effect but that a free transmitter
chooses. A frame cut before its last byte changes nothing while the receiver is hunting. -/
def Obligations.FramesAreTakenOrAnsweredBusy : Prop :=
  (∀ (s : State) (type tag : Byte), s.canTake →
    exec (.undefinedRequestType type tag) s = .next (s.replied type tag .badValue .empty)) ∧
  (∀ (s : State) (c : Instr) (tag : Byte) (r : Request), requestOf c = some (tag, r) → ¬ s.canTake →
    (s.host.owedBusy = none →
      exec c s = .next (s.setHost { s.host with rx := [], owedBusy := some (r.type, tag) }).choose) ∧
    (s.host.owedBusy ≠ none → exec c s = .next (s.setHost { s.host with rx := [] }).choose)) ∧
  ∀ (s : State) (len : Byte) (rest : List Byte), s.transmitterOk → rest.length ≤ len.toNat → s.host.rx = [] →
    1 ≤ len.toNat → len.toNat ≤ 250 → exec (.hostPartialFrameTimeout (0xC3 :: len :: rest)) s = .next s

/-- R36, R37: SET-CLOCK sets every field, or is refused BAD_VALUE and leaves the calendar; SET-NEXT-DAY sets the
pending type in either calendar state, or is refused; neither changes anything else but the reply. The next second
advance falls 10 ds after a SET-CLOCK, and there is none, hence no rollover, while UNSET; an advance without rollover
leaves the day type and the pending type. -/
def Obligations.CalendarRequestsSetTheCalendar : Prop :=
  (∀ (s : State) (tag : Byte) (day : BitVec 16) (weekday : Byte) (minute : BitVec 16) (second dayType pend : Byte),
    s.canTake →
    (∀ (w : Fin 7) (m : Fin 1440) (x : Fin 60) (d : DayType) (p : Option DayType),
      weekday.toNat = w.val → minute.toNat = m.val → second.toNat = x.val → dayType = d.code →
      pend = (p.map DayType.code).getD 255 →
      exec (.setClock tag day weekday minute second dayType pend) s =
        .next ((s.setCalendar
          { isSet := true, day := day, weekday := w, minute := m, second := x, dayType := d, pendingType := p,
            lastAdvance := s.part.clock }).replied 1 tag .done .empty)) ∧
    ((7 ≤ weekday.toNat ∨ 1440 ≤ minute.toNat ∨ 60 ≤ second.toNat ∨ 4 ≤ dayType.toNat ∨
        (4 ≤ pend.toNat ∧ pend ≠ 255)) →
      exec (.setClock tag day weekday minute second dayType pend) s = .next (s.replied 1 tag .badValue .empty))) ∧
  (∀ (s : State) (tag dayType : Byte), s.canTake →
    (∀ d : DayType, dayType = d.code →
      exec (.setNextDay tag dayType) s =
        .next ((s.setCalendar { s.calendar with pendingType := some d }).replied 2 tag .done .empty)) ∧
    (4 ≤ dayType.toNat → exec (.setNextDay tag dayType) s = .next (s.replied 2 tag .badValue .empty))) ∧
  (∀ s : State, s.calendar.isSet = false → exec .calendarSecondAdvance s = .next s) ∧
  (∀ s : State, s.calendar.isSet = true →
    ((s.part.clock - s.calendar.lastAdvance).toNat < 10 → exec .calendarSecondAdvance s = .next s) ∧
    (10 ≤ (s.part.clock - s.calendar.lastAdvance).toNat →
      ∃ c, exec .calendarSecondAdvance s = .next (s.setCalendar c) ∧
        c.second.val = (s.calendar.second.val + 1) % 60 ∧
        (¬ (s.calendar.minute = 1439 ∧ s.calendar.second = 59) →
          c.dayType = s.calendar.dayType ∧ c.pendingType = s.calendar.pendingType)))

/-- R169 to R172, R79: the four outcomes of QUERY-BADGE; QUERY-CAR and QUERY-BOOKINGS answer the car's record with its
pending drops, each key once, and its bookings in serial order, at most ten from the start index, and refuse an index out
of range; QUERY-PART is never refused and answers the part as it stands. A query changes nothing but the port's reply. A
pending drop that several bookings share stands at the oldest of them (DESIGN CHOICE, log 44). Serial order keeps the
bookings and runs from the oldest to the newest, while their serials lie within half the range of one another. -/
def Obligations.QueriesReadTheState : Prop :=
  (∀ (s : State) (tag : Byte) (badge : Badge), s.canTake →
     ((badge = 0 ∨ badge = 4294967295) → exec (.queryBadge tag badge) s = .next (s.replied 18 tag .badValue .empty)) ∧
     (badge ≠ 0 → badge ≠ 4294967295 →
       (s.store.answer badge = .missing → exec (.queryBadge tag badge) s = .next (s.replied 18 tag .noSuch .empty)) ∧
       (s.store.answer badge = .missingBad →
         exec (.queryBadge tag badge) s = .next (s.replied 18 tag .storeFault .empty)) ∧
       ∀ r p k, s.store.answer badge = .found r p k →
         exec (.queryBadge tag badge) s =
           .next (s.replied 18 tag .done
             (.badge { record := r, page := p, slot := k, permitted := s.permitted r, override := s.overrideFlag r,
                       ticket := s.disp.tickets.find? fun t => t.badge = badge })))) ∧
  (∀ (s : State) (tag bank car start : Byte), s.canTake →
    ((4 ≤ bank.toNat ∨ 8 ≤ car.toNat) →
      exec (.queryCar tag bank car) s = .next (s.replied 19 tag .badValue .empty) ∧
      exec (.queryBookings tag bank car start) s = .next (s.replied 20 tag .badValue .empty)) ∧
    ∀ (b : Bank) (c : CarNo), bank.toNat = b.val → car.toNat = c.val →
      (∃ v, exec (.queryCar tag bank car) s = .next (s.replied 19 tag .done (.car v)) ∧ v.car = s.car b c ∧
        v.committed = unitsOf (s.carBookings b c) ∧ v.pendingDrops = s.pendingDrops b c ∧
        (let drops : List Key :=
           (serialOrder ((s.carBookings b c).filter fun k => k.state = .waiting)).map fun k =>
             { floor := k.dest, dir := if k.origin < k.dest then .up else .down }
         v.pendingDrops.Nodup ∧ (∀ x, x ∈ v.pendingDrops ↔ x ∈ drops) ∧
           v.pendingDrops.Pairwise fun x y => drops.idxOf x < drops.idxOf y) ∧
        (v.queuePlace = none ↔ c ∉ (s.line b).queue) ∧
        ∀ n, v.queuePlace = some n → 1 ≤ n ∧ (s.line b).queue[n - 1]? = some c) ∧
      exec (.queryBookings tag bank car start) s =
        .next (s.replied 20 tag .done
          (.bookings (serialOrder (s.carBookings b c)).length
            (((serialOrder (s.carBookings b c)).drop start.toNat).take 10)))) ∧
  (∀ ks : List Booking, (serialOrder ks).Perm ks ∧
    ∀ base : BitVec 32, (∀ k ∈ ks, (k.serial - base).toNat < 2147483648) →
      (serialOrder ks).Pairwise fun x y => (x.serial - base).toNat ≤ (y.serial - base).toNat) ∧
  (∀ (s : State) (tag : Byte), s.canTake →
    ∃ v, exec (.queryPart tag) s = .next (s.replied 21 tag .done (.part v)) ∧ v.part = .running ∧
      v.clock = s.part.clock ∧ v.calendar = s.calendar ∧ v.slotsInUse = s.store.slotsInUse ∧
      v.badCredential = s.store.badCredential ∧ v.badPolicy = s.store.badPolicy ∧
      v.bookings = s.disp.bookings.length ∧ v.tickets = s.disp.tickets.length ∧ v.reports = s.host.queue.length ∧
      v.enables = s.host.enables ∧
      (∀ b : Bank, v.banks[b.val]? = some (s.mode b, s.bank b, s.pins.rcl.get b)) ∧
      ∀ l : Bank, v.lines[l.val]? =
        some ((s.line l).state, (s.line l).faultMark, (s.line l).queue.length, s.pins.lrq.get l))

/-- R167, R168: a RESTART is answered DONE and changes nothing until the reply's last byte; then the part stands as
the RESET pin and its release leave it (ResetPinGivesTheResetValues, ScanJudgesPagesAndLoadsItems,
ScanKeepsOneSlotForABadge say how, for every block), but that the cause is RESTART. -/
def Obligations.RestartResetsAfterItsReply : Prop :=
  (∀ (s : State) (tag : Byte), s.canTake → exec (.restart tag) s = .next (s.replied 22 tag .done .empty)) ∧
  ∀ (s : State) (r : Reply), s.host.tx = .sendingReply → s.host.request = .replying r → r.type = 22 →
    ∃ t u v, exec .replySent s = .next t ∧ exec .resetPin s = .next u ∧ exec .resetPinRelease u = .next v ∧
      t = v.setPart { v.part with cause := .restart } ∧
      t.part = { state := .starting, resetPin := false, scanning := true, cause := .restart, clock := 0 } ∧
      t.host = HostPort.reset ∧ t.engine = Engine.reset ∧ t.disp = DispatchBlock.reset ∧ t.calendar = Calendar.reset ∧
      (∀ p, t.port p = Port.reset) ∧ (∀ l, t.line l = Line.reset) ∧ t.pins = s.pins ∧ t.pending = s.pending ∧
      t.store.programmer = none ∧ t.store = v.store ∧ t.policy = v.policy ∧ t.store.cells = u.store.cells ∧
      (s.store.programmer = none → t.store.cells = s.store.cells)

/-- R23, R24, R26, R32, R34: LOAD-GROUP, LOAD-PROFILE, LOAD-TENANT, LOAD-SITE and LOAD-READER begin the program of
their item's page with the item clamped where the rule clamps, or are refused. A profile's words hold the start in
bits 0 to 10, the end in 11 to 21 and the day types in 22 to 25 (R178, R179). -/
def Obligations.TableLoadsBeginTheirPrograms : Prop :=
  (∀ (s : State) (tag : Byte) (group : BitVec 16) (floors : FloorSet) (profile flags : Byte) (n : Nat),
    s.canTake → s.store.stamp = some n →
    ((256 ≤ group.toNat ∨ 64 ≤ profile.toNat) →
      exec (.loadGroup tag group floors profile flags) s = .next (s.replied 7 tag .badValue .empty)) ∧
    ∀ (g : Fin 256) (p : Fin 64), group.toNat = g.val → profile.toNat = p.val →
      exec (.loadGroup tag group floors profile flags) s =
        .next (s.writingItem 7 tag n
          (.group g { floors := floors, profile := p, enabled := flags.getLsbD 0, override := flags.getLsbD 1 }))) ∧
  (∀ (s : State) (tag profile : Byte) (w : List (BitVec 32)) (n : Nat), s.canTake → s.store.stamp = some n →
    ((profile = 0 ∨ 64 ≤ profile.toNat ∨ 6 < w.length ∨
        ∃ x ∈ w, 1440 ≤ (x.extractLsb' 0 11).toNat ∨ (x.extractLsb' 11 11).toNat = 0 ∨
          1440 < (x.extractLsb' 11 11).toNat ∨ x.extractLsb' 26 6 ≠ 0) →
      exec (.loadProfile tag profile w) s = .next (s.replied 8 tag .badValue .empty)) ∧
    ((profile ≠ 0 ∧ w.length ≤ 6 ∧
        ∀ x ∈ w, (x.extractLsb' 0 11).toNat < 1440 ∧ 0 < (x.extractLsb' 11 11).toNat ∧
          (x.extractLsb' 11 11).toNat ≤ 1440 ∧ x.extractLsb' 26 6 = 0) →
      ∀ p : Fin 64, profile.toNat = p.val →
        exec (.loadProfile tag profile w) s =
          .next (s.writingItem 8 tag n
            (.profile p (w.map fun x =>
              { days := x.extractLsb' 22 4, start := (x.extractLsb' 0 11).toNat,
                stop := (x.extractLsb' 11 11).toNat }))))) ∧
  (∀ (s : State) (tag tenant : Byte) (floors : FloorSet) (state : Byte) (life : BitVec 16) (n : Nat),
    s.canTake → s.store.stamp = some n →
    ((128 ≤ tenant.toNat ∨ 2 ≤ state.toNat) →
      exec (.loadTenant tag tenant floors state) s = .next (s.replied 9 tag .badValue .empty)) ∧
    (∀ (t : Fin 128) (st : TenantState), tenant.toNat = t.val → state = st.code →
      exec (.loadTenant tag tenant floors state) s =
        .next (s.writingItem 9 tag n (.tenant t { floors := floors, state := st }))) ∧
    exec (.loadSite tag life) s = .next (s.writingItem 3 tag n (.site (max 60 (min 1800 life.toNat))))) ∧
  (∀ (s : State) (tag reader enabled home banks kind hold : Byte) (n : Nat), s.canTake → s.store.stamp = some n →
    ((16 ≤ reader.toNat ∨ 128 ≤ home.toNat ∨ 16 ≤ banks.toNat ∨ (kind ≠ 1 ∧ kind ≠ 2)) →
      exec (.loadReader tag reader enabled home banks kind hold) s = .next (s.replied 6 tag .badValue .empty)) ∧
    ∀ (p : PortNo) (h : Floor) (bs : BankSet) (k : ReaderKind), reader.toNat = p.val → home.toNat = h.val →
      banks.toNat = bs.toNat → kind = k.code →
      exec (.loadReader tag reader enabled home banks kind hold) s =
        .next (s.writingItem 6 tag n
          (.reader p { enabled := enabled != 0, home := h, banks := bs, kind := k,
                       holdTime := max 2 (min 30 hold.toNat) })))

/-- R27, R30, R29, R150, R160: LOAD-FLOOR needs every bank it adds or removes to be OUT; LOAD-BANK clamps its nine
settings, keeps the withdrawn-car set and the stored mode, and needs the bank OUT; SET-FLOOR-STATE, SET-CAR-SERVICE
and SET-BANK-MODE begin their programs whatever the mode of the bank, but that a mode other than FIRE_RECALL is
refused INPUT_ASSERTED while the bank's recall input is asserted. Where two refusals apply at once BAD_VALUE is
answered; R27 states it for LOAD-FLOOR, for LOAD-BANK and SET-BANK-MODE it is the model's (DESIGN CHOICE, log 42). -/
def Obligations.GuardedRequestsBeginTheirPrograms : Prop :=
  (∀ (s : State) (tag floor c0 c1 c2 kind state banks : Byte) (n : Nat), s.canTake → s.store.stamp = some n →
     ((128 ≤ floor.toNat ∨ (∃ x ∈ [c0, c1, c2], x.toNat < 32 ∨ 126 < x.toNat) ∨ 4 ≤ kind.toNat ∨ 2 ≤ state.toNat ∨
         16 ≤ banks.toNat) →
       exec (.loadFloor tag floor c0 c1 c2 kind state banks) s = .next (s.replied 4 tag .badValue .empty)) ∧
     ∀ (f : Floor) (k : FloorKind) (st : FloorState) (bs : BankSet), floor.toNat = f.val → kind = k.code →
       state = st.code → banks.toNat = bs.toNat → (∀ x ∈ [c0, c1, c2], 32 ≤ x.toNat ∧ x.toNat ≤ 126) →
       ((∃ b, (s.floor f).banks.has b ≠ bs.has b ∧ s.mode b ≠ some .out) →
         exec (.loadFloor tag floor c0 c1 c2 kind state banks) s = .next (s.replied 4 tag .bankActive .empty)) ∧
       ((∀ b, (s.floor f).banks.has b ≠ bs.has b → s.mode b = some .out) →
         exec (.loadFloor tag floor c0 c1 c2 kind state banks) s =
           .next (s.writingItem 4 tag n
             (.floor f { label := { c0 := c0, c1 := c1, c2 := c2 }, kind := k, state := st, banks := bs })))) ∧
  (∀ (s : State) (tag bank cc cap ft : Byte) (st : BitVec 16) (lb cp : Byte) (mw : BitVec 16) (ct ful rf : Byte)
     (n : Nat), s.canTake → s.store.stamp = some n →
     ((4 ≤ bank.toNat ∨ 128 ≤ rf.toNat) →
       exec (.loadBank tag bank cc cap ft st lb cp mw ct ful rf) s = .next (s.replied 5 tag .badValue .empty)) ∧
     ∀ (b : Bank) (f : Floor), bank.toNat = b.val → rf.toNat = f.val →
       (s.mode b ≠ some .out →
         exec (.loadBank tag bank cc cap ft st lb cp mw ct ful rf) s = .next (s.replied 5 tag .bankActive .empty)) ∧
       (s.mode b = some .out →
         exec (.loadBank tag bank cc cap ft st lb cp mw ct ful rf) s =
           .next (s.writingItem 5 tag n
             (.bank b
               { carCount := max 1 (min 8 cc.toNat), capacity := max 1 (min 32 cap.toNat),
                 floorTime := max 5 (min 100 ft.toNat), stopTime := max 20 (min 300 st.toNat),
                 loadBias := min 50 lb.toNat, tripCap := max 2 (min 8 cp.toNat),
                 maxWait := max 60 (min 900 mw.toNat), contactTime := max 1 (min 10 ct.toNat),
                 fullThreshold := max 50 (min 100 ful.toNat), recallFloor := f,
                 withdrawn := (s.bank b).withdrawn, storedMode := (s.bank b).storedMode })))) ∧
  (∀ (s : State) (tag floor state bank car action : Byte) (n : Nat), s.canTake → s.store.stamp = some n →
    ((128 ≤ floor.toNat ∨ 2 ≤ state.toNat) →
      exec (.setFloorState tag floor state) s = .next (s.replied 16 tag .badValue .empty)) ∧
    (∀ (f : Floor) (st : FloorState), floor.toNat = f.val → state = st.code →
      exec (.setFloorState tag floor state) s =
        .next (s.writingItem 16 tag n (.floor f { s.floor f with state := st }))) ∧
    ((4 ≤ bank.toNat ∨ 8 ≤ car.toNat ∨ (action ≠ 1 ∧ action ≠ 2)) →
      exec (.setCarService tag bank car action) s = .next (s.replied 15 tag .badValue .empty)) ∧
    ∀ (b : Bank) (c : CarNo), bank.toNat = b.val → car.toNat = c.val → (action = 1 ∨ action = 2) →
      exec (.setCarService tag bank car action) s = .next (s.writingItem 15 tag n (.carService b c (action == 1)))) ∧
  (∀ (s : State) (tag bank mode : Byte) (n : Nat), s.canTake → s.store.stamp = some n →
    ((4 ≤ bank.toNat ∨ 5 ≤ mode.toNat) →
      exec (.setBankMode tag bank mode) s = .next (s.replied 14 tag .badValue .empty)) ∧
    ∀ (b : Bank) (m : BankMode), bank.toNat = b.val → mode = m.code →
      ((m ≠ .fireRecall ∧ s.pins.rcl.get b = true) →
        exec (.setBankMode tag bank mode) s = .next (s.replied 14 tag .inputAsserted .empty)) ∧
      ((m = .fireRecall ∨ s.pins.rcl.get b = false) →
        exec (.setBankMode tag bank mode) s = .next (s.writingItem 14 tag n (.bankMode b m))))

/-- R10, R11: the slots of a policy item's program hold the item's new value in its own slot and every other item of
the page as its working copy stands; the slots that hold no item, and profile 0's, are all 255. The program is of the page
at which R10's table puts the item, and its image is made of the sixteen slots of that page in order. -/
def Obligations.PolicyImageChangesOneItem : Prop :=
  (∀ (t : Policy) (k : Nat), k < 16 →
    (∀ (n : Fin 256) (g : Group), (t.apply (.group n g)).slot (2048 + n.val / 16) k =
      if k = n.val % 16 then encodeGroup g else t.slot (2048 + n.val / 16) k) ∧
    (∀ (n : Fin 64) (p : List Interval), n ≠ 0 → (t.apply (.profile n p)).slot (2064 + n.val / 16) k =
      if k = n.val % 16 then encodeProfile p else t.slot (2064 + n.val / 16) k) ∧
    (∀ (n : Fin 128) (x : Tenant), (t.apply (.tenant n x)).slot (2068 + n.val / 16) k =
      if k = n.val % 16 then encodeTenant x else t.slot (2068 + n.val / 16) k) ∧
    (∀ (f : Floor) (r : FloorRec), (t.apply (.floor f r)).slot (2076 + f.val / 16) k =
      if k = f.val % 16 then encodeFloor r else t.slot (2076 + f.val / 16) k) ∧
    (∀ (b : Bank) (r : BankRec), (t.apply (.bank b r)).slot 2084 k =
      if k = b.val then encodeBank r else t.slot 2084 k) ∧
    (∀ (b : Bank) (m : BankMode), (t.apply (.bankMode b m)).slot 2084 k =
      if k = b.val then encodeBank { t.banks.get b with storedMode := m } else t.slot 2084 k) ∧
    (∀ (b : Bank) (c : CarNo) (w : Bool), ∃ ws : CarSet,
      (∀ h, ws.has h = if h = c then w else (t.banks.get b).withdrawn.has h) ∧
      (t.apply (.carService b c w)).slot 2084 k =
        if k = b.val then encodeBank { t.banks.get b with withdrawn := ws } else t.slot 2084 k) ∧
    (∀ life : Nat, (t.apply (.site life)).slot 2084 k = if k = 4 then encodeSite life else t.slot 2084 k) ∧
    (∀ (p : PortNo) (r : ReaderRec), (t.apply (.reader p r)).slot 2085 k =
      if k = p.val then encodeReader r else t.slot 2085 k) ∧
    ∀ p, ((p = 2064 ∧ k = 0) ∨ (p = 2084 ∧ 5 ≤ k) ∨ 2086 ≤ p) → t.slot p k = List.replicate 28 255) ∧
  ∀ t : Policy,
    (∀ n : Fin 256, t.slot (2048 + n.val / 16) (n.val % 16) = encodeGroup (t.groups.get n)) ∧
    (∀ n : Fin 64, n ≠ 0 → t.slot (2064 + n.val / 16) (n.val % 16) = encodeProfile (t.profiles.get n)) ∧
    (∀ n : Fin 128, t.slot (2068 + n.val / 16) (n.val % 16) = encodeTenant (t.tenants.get n)) ∧
    (∀ f : Floor, t.slot (2076 + f.val / 16) (f.val % 16) = encodeFloor (t.floors.get f)) ∧
    (∀ b : Bank, t.slot 2084 b.val = encodeBank (t.banks.get b)) ∧ t.slot 2084 4 = encodeSite t.ticketLife ∧
    (∀ p : PortNo, t.slot 2085 p.val = encodeReader (t.readers.get p)) ∧
    (∀ p, (t.pageSlots p).length = 16 ∧ ∀ k < 16, (t.pageSlots p)[k]? = some (t.slot p k)) ∧
    (∀ n g, (Job.group n g).page = 2048 + n.val / 16) ∧ (∀ n p, (Job.profile n p).page = 2064 + n.val / 16) ∧
    (∀ n x, (Job.tenant n x).page = 2068 + n.val / 16) ∧ (∀ f r, (Job.floor f r).page = 2076 + f.val / 16) ∧
    (∀ b r, (Job.bank b r).page = 2084) ∧ (∀ b m, (Job.bankMode b m).page = 2084) ∧
    (∀ b c w, (Job.carService b c w).page = 2084) ∧ (∀ life, (Job.site life).page = 2084) ∧
    ∀ p r, (Job.reader p r).page = 2085

/-! ### Credentials -/

/-- R4: the checks of one credential record and its clamping. -/
def Obligations.CredentialCheckRefusesAndClamps : Prop :=
  ∀ (badge : Badge) (state tenant units : Byte) (groups : List Byte) (defaultFloor : Byte) (personal : List Byte)
    (validFrom : BitVec 16) (hasUntil : Byte) (validUntil : BitVec 16),
    (checkCredential badge state tenant units groups defaultFloor personal validFrom hasUntil validUntil = none ↔
      badge = 0 ∨ badge = 4294967295 ∨ (state ≠ 1 ∧ state ≠ 2 ∧ state ≠ 3) ∨ groups.length = 0 ∨ 4 < groups.length ∨
        2 < personal.length ∨ 128 ≤ tenant.toNat ∨ (hasUntil ≠ 0 ∧ validUntil.toNat < validFrom.toNat)) ∧
    ∀ r, checkCredential badge state tenant units groups defaultFloor personal validFrom hasUntil validUntil = some r →
      r.badge = badge ∧ r.state.code = state ∧ r.tenant.val = tenant.toNat ∧ r.groups = groups ∧
      r.units = (if units.toNat ≤ 1 then 1 else 4) ∧
      r.defaultFloor.map (fun f => f.val) = (if defaultFloor.toNat < 128 then some defaultFloor.toNat else none) ∧
      r.personal.map (fun f => f.val) = (personal.map fun b => b.toNat).filter (fun n => n < 128) ∧
      r.validFrom = validFrom ∧ r.validUntil = (if hasUntil = 0 then none else some validUntil)

/-- R5, R6: the home page and the probe range: four distinct credential pages in order, counted round, 64 slots; every
slot in use lies in its badge's probe range; a lookup passes over BAD pages and free slots and stops at the first
match. -/
def Obligations.LookupSearchesFourPagesFromHome : Prop :=
  (∀ badge : Badge,
    homePage badge = (badge.toNat % 2048) ^^^ (badge.toNat / 2048 % 2048) ^^^ (badge.toNat / 4194304) ∧
    homePage badge < 2048 ∧ probeRange badge = [homePage badge, (homePage badge + 1) % 2048,
      (homePage badge + 2) % 2048, (homePage badge + 3) % 2048] ∧ (probeRange badge).Nodup ∧
    (probeSlots badge).length = 64 ∧
    ∀ i < 64, (probeSlots badge)[i]? = some ((homePage badge + i / 16) % 2048, i % 16)) ∧
  (∀ (st : StoreBlock) (p k : Nat) (r : Credential), st.record p k = some r →
    st.bad p = false ∧ p ∈ probeRange r.badge) ∧
  ∀ (st : StoreBlock) (badge : Badge),
    (st.lookup badge = .inProgram ↔ ∃ p ∈ probeRange badge, ∃ g, st.programmer = some g ∧ g.page = p) ∧
    (st.lookup badge ≠ .inProgram →
      let mismatch : Nat → Prop := fun i =>
        ∀ p k r, (probeSlots badge)[i]? = some (p, k) → st.record p k = some r → r.badge ≠ badge
      (∀ r p k, st.lookup badge = .found r p k ↔
        ∃ i, (probeSlots badge)[i]? = some (p, k) ∧ st.record p k = some r ∧ r.badge = badge ∧ ∀ j < i, mismatch j) ∧
      (st.lookup badge = .missingBad ↔ (∀ i, mismatch i) ∧ ∃ p ∈ probeRange badge, st.bad p = true) ∧
      (st.lookup badge = .missing ↔ (∀ i, mismatch i) ∧ ∀ p ∈ probeRange badge, st.bad p = false))

/-- R7: ENROLL refuses a bad record, rewrites a found badge in its place, else takes the first free slot in probe
order on a GOOD page, and is refused NO_ROOM when there is none. The image holds the new record in its slot and every
other record of the page as it is read, clamped (DEDUCED, log 10), with the presence byte of the model (DESIGN CHOICE,
log 41). -/
def Obligations.EnrollPlacesTheRecord : Prop :=
  ∀ (s : State) (tag : Byte) (badge : Badge) (state tenant units : Byte) (groups : List Byte) (defaultFloor : Byte)
    (personal : List Byte) (validFrom : BitVec 16) (hasUntil : Byte) (validUntil : BitVec 16) (n : Nat),
    s.canTake → s.store.stamp = some n →
    let c := Instr.enroll tag badge state tenant units groups defaultFloor personal validFrom hasUntil validUntil
    let checked :=
      checkCredential badge state tenant units groups defaultFloor personal validFrom hasUntil validUntil
    (checked = none → exec c s = .next (s.replied 10 tag .badValue .empty)) ∧
    ∀ r, checked = some r →
      (∀ old p k, s.store.search badge = some (old, p, k) →
        ∃ slots, s.store.imageSlots p k (encodeCredential r) slots ∧
          exec c s = .next (s.writing 10 tag p n slots .credential)) ∧
      (s.store.search badge = none →
        (∀ (i : Nat) (x : Nat × Nat), (probeSlots badge)[i]? = some x → s.store.bad x.1 = false →
          s.store.record x.1 x.2 = none →
          (∀ (j : Nat) (y : Nat × Nat), j < i → (probeSlots badge)[j]? = some y →
            s.store.bad y.1 = true ∨ s.store.record y.1 y.2 ≠ none) →
          ∃ slots, s.store.imageSlots x.1 x.2 (encodeCredential r) slots ∧
            exec c s = .next (s.writing 10 tag x.1 n slots .credential)) ∧
        ((∀ x ∈ probeSlots badge, s.store.bad x.1 = true ∨ s.store.record x.1 x.2 ≠ none) →
          exec c s = .next (s.replied 10 tag .noRoom .empty)))

/-- R8, R9, R6: REVOKE and SET-BADGE-STATE rewrite the found slot, free it or give it the new state, with every other
record of the page as it is read, clamped (DEDUCED, log 10), with the presence byte of the model (DESIGN CHOICE,
log 41); or answer their lookup; an undefined state is refused BAD_VALUE, whatever the lookup would answer (DESIGN
CHOICE, log 42). -/
def Obligations.RevokeAndSetStateRewriteTheFoundSlot : Prop :=
  (∀ (s : State) (tag : Byte) (badge : Badge) (state : Byte), s.canTake → state ≠ 1 → state ≠ 2 → state ≠ 3 →
    exec (.setBadgeState tag badge state) s = .next (s.replied 12 tag .badValue .empty)) ∧
  ∀ (s : State) (tag : Byte) (badge : Badge) (state : Byte) (st : BadgeState) (n : Nat), s.canTake →
    s.store.stamp = some n → state = st.code →
    ((badge = 0 ∨ badge = 4294967295) →
      exec (.revoke tag badge) s = .next (s.replied 11 tag .badValue .empty) ∧
      exec (.setBadgeState tag badge state) s = .next (s.replied 12 tag .badValue .empty)) ∧
    (badge ≠ 0 → badge ≠ 4294967295 →
      (∀ (r : Credential) (p k : Nat), s.store.search badge = some (r, p, k) →
        (∃ slots, s.store.imageSlots p k (List.replicate 28 255) slots ∧
          exec (.revoke tag badge) s = .next (s.writing 11 tag p n slots .credential)) ∧
        ∃ slots, s.store.imageSlots p k (encodeCredential { r with state := st }) slots ∧
          exec (.setBadgeState tag badge state) s = .next (s.writing 12 tag p n slots .credential)) ∧
      (s.store.search badge = none →
        ((∃ p ∈ probeRange badge, s.store.bad p = true) →
          exec (.revoke tag badge) s = .next (s.replied 11 tag .storeFault .empty) ∧
          exec (.setBadgeState tag badge state) s = .next (s.replied 12 tag .storeFault .empty)) ∧
        ((∀ p ∈ probeRange badge, s.store.bad p = false) →
          exec (.revoke tag badge) s = .next (s.replied 11 tag .noSuch .empty) ∧
          exec (.setBadgeState tag badge state) s = .next (s.replied 12 tag .noSuch .empty))))

/-- R16: ERASE-PAGE refuses page 2112 and above, refuses a guarded policy page BANK_ACTIVE, and otherwise begins an
ERASE program of all 255 that takes no stamp. -/
def Obligations.ErasePageIsGuarded : Prop :=
  ∀ (s : State) (tag : Byte) (page : BitVec 16), s.canTake →
    let guarded : Prop :=
      (page.toNat = 2084 ∧ ∃ b, s.mode b ≠ some .out) ∨
        ∃ (f : Floor) (b : Bank), page.toNat = 2076 + f.val / 16 ∧ s.serves b f = true ∧ s.mode b ≠ some .out
    (2112 ≤ page.toNat → exec (.erasePage tag page) s = .next (s.replied 13 tag .badValue .empty)) ∧
    (guarded → exec (.erasePage tag page) s = .next (s.replied 13 tag .bankActive .empty)) ∧
    (page.toNat < 2112 → ¬ guarded →
      exec (.erasePage tag page) s =
        .next ((s.setStore
            { s.store with
              programmer := some { page := page.toNat, image := List.replicate 512 255, erase := true,
                                   job := .erase } }).setHost
          { s.host with rx := [], request := .executing 13 tag }).choose)

/-! ### Completions of page programs -/

/-- R14 for a credential page, with R56: at a verify match the page holds the image and is GOOD, every other byte of
the store stays, the count of slots in use follows, DEFERRED ports become PENDING, and the reply DONE is built. -/
def Obligations.CredentialVerifyMatchStoresThePage : Prop :=
  ∀ (s : State) (g : Program) (type tag : Byte), s.storeOk → s.store.programmer = some g → g.job = .credential →
    g.image.length = 512 → s.host.request = .executing type tag →
    ∃ t, exec .verifyMatch s = .next t ∧ s.changesOnly [.store, .ports, .host] t ∧ t.store.programmer = none ∧
      t.store.stamp = s.store.stamp ∧
      (∀ i < 512, Store.read t.store.cells (512 * g.page + i) = g.image.getD i 255) ∧
      (∀ a, (a < 512 * g.page ∨ 512 * g.page + 512 ≤ a) →
        Store.read t.store.cells a = Store.read s.store.cells a) ∧
      (s.store.badPages ≠ none → t.store.bad g.page = false) ∧
      (∀ p, p ≠ g.page → t.store.bad p = s.store.bad p) ∧
      (g.page < 2048 → s.store.pageInUse g.page ≤ s.store.slotsInUse →
        t.store.slotsInUse + s.store.pageInUse g.page = s.store.slotsInUse + t.store.pageInUse g.page) ∧
      (∀ p, t.port p = if (s.port p).state = .deferred then { s.port p with state := .pending } else s.port p) ∧
      t.host =
        { s.host with
          request := .replying { type := type, tag := tag, status := .done, body := .empty },
          tx := if s.host.tx = .free then .sendingReply else s.host.tx }

/-- R12, R14, R22, R32, R58, R59: at a verify match of a policy program the page holds the image and is GOOD, every other
byte of the store stays, and the reply DONE is built (State.stores; the canonical form of the bytes is the model's, log
11). Of a group, profile, tenant or site program that item's working copy takes its new value and nothing else of the
tables, the bookings or the lines changes; of a reader program the reader's port is reloaded too. No other port changes
but that a DEFERRED one becomes PENDING. -/
def Obligations.PolicyVerifyMatchTakesEffect : Prop :=
  (∀ (s : State) (g : Program), s.store.programmer = some g →
    let leaves : Policy → Prop := fun new =>
      ∃ t, exec .verifyMatch s = .next t ∧ s.changesOnly [.store, .policy, .ports, .host] t ∧ s.stores g t ∧
        t.policy = new ∧
        ∀ q, t.port q = if (s.port q).state = .deferred then { s.port q with state := .pending } else s.port q
    (∀ (n : Fin 256) (x : Group), g.job = .group n x →
      leaves { s.policy with groups := s.policy.groups.set n x }) ∧
    (∀ (n : Fin 64) (x : List Interval), g.job = .profile n x →
      leaves { s.policy with profiles := s.policy.profiles.set n x }) ∧
    (∀ (n : Fin 128) (x : Tenant), g.job = .tenant n x →
      leaves { s.policy with tenants := s.policy.tenants.set n x }) ∧
    (∀ life, g.job = .site life → leaves { s.policy with ticketLife := life })) ∧
  (∀ (s : State) (g : Program) (p : PortNo) (r : ReaderRec), s.store.programmer = some g → g.job = .reader p r →
    ∃ t, exec .verifyMatch s = .next t ∧ s.changesOnly [.store, .policy, .ports, .host] t ∧ s.stores g t ∧
      t.policy = { s.policy with readers := s.policy.readers.set p r } ∧
      (t.port p).memory = none ∧ (t.port p).shifter = (s.port p).shifter ∧ (t.port p).buffer = (s.port p).buffer ∧
      (((s.port p).state = .disabled ∨ (s.port p).state = .idle ∨ (s.port p).state = .deferred ∨
          ((s.port p).state = .pending ∧ (s.port p).isTaken = false)) →
        (t.port p).slot = none ∧ (t.port p).state = (if r.enabled then .idle else .disabled)) ∧
      ((((s.port p).state = .pending ∧ (s.port p).isTaken = true) ∨ (s.port p).state = .answering) →
        (t.port p).slot = (s.port p).slot ∧ (t.port p).state = (s.port p).state ∧
          (t.port p).reload = some r.enabled) ∧
      ∀ q, q ≠ p →
        t.port q = if (s.port q).state = .deferred then { s.port q with state := .pending } else s.port q)

/-- R14, R28, R100, R127, R84: at the completion of a floor's program the page is stored and the reply DONE is built (the
canonical form of the bytes is the model's, log 11), its working copy takes the new fields, and no other floor's. A floor
that goes from OPEN to CLOSED loses every WAITING booking from or to it, and every RIDING one stays; the tickets that name
a cancelled first leg go, and every other ticket stays; R87, R53: the memories that hold a cancelled booking become empty,
and each cancellation posts its FLOOR_CLOSED report, in serial order, with one choice of the transmitter after the reports
and the reply (DESIGN CHOICE, log 40); any other change cancels nothing. Every configured
car of a bank in the old or new served-bank set has its enabled set formed afresh, no other car's changes, and no car keeps
a car call at a floor that left its set. -/
def Obligations.FloorVerifyMatchTakesEffect : Prop :=
  ∀ (s : State) (g : Program) (f : Floor) (r : FloorRec), s.bookingsOk → s.store.programmer = some g →
    g.job = .floor f r →
    let shut : Prop := (s.floor f).state = .isOpen ∧ r.state = .isClosed
    let gone : Booking → Bool := fun k => k.state = .waiting && (k.origin = f || k.dest = f)
    ∃ t, exec .verifyMatch s = .next t ∧ s.stores g t ∧ t.floor f = r ∧ (∀ h, h ≠ f → t.floor h = s.floor h) ∧
      t.disp.modes = s.disp.modes ∧
      (shut →
        t.disp.bookings = s.disp.bookings.filter (fun k => !gone k) ∧ t.disp.tickets = s.ticketsWithout gone ∧
        (∀ q, (t.port q).memory = s.memoryWithout gone q) ∧
        t.host = (s.host.posts (s.cancelReports .floorClosed gone)).repliesDone) ∧
      (¬ shut →
        t.disp.bookings = s.disp.bookings ∧ t.disp.tickets = s.disp.tickets ∧
        (∀ q, (t.port q).memory = (s.port q).memory) ∧ t.host = s.host.repliesDone) ∧
      ∀ b c, (t.car b c).service = (s.car b c).service ∧
        (((s.floor f).banks.has b = true ∨ r.banks.has b = true) → (s.car b c).service ≠ .absent →
          ∀ h, (t.car b c).enabled.has h = true ↔ t.enabledAt b c h) ∧
        ((s.floor f).banks.has b = false → r.banks.has b = false → (t.car b c).enabled = (s.car b c).enabled) ∧
        ∀ e ∈ (t.car b c).stops, e.call = true → (s.car b c).enabled.has e.key.floor = true →
          (t.car b c).enabled.has e.key.floor = true

/-- R14: at the completion of a LOAD-BANK or a SET-CAR-SERVICE the page is stored and the reply DONE is built (the
canonical form of the bytes is the model's, log 11). R31: at that of a LOAD-BANK the bank's working copy takes the new
settings; a car at or beyond the new
count becomes ABSENT with an empty list and no enabled floor, one newly within it takes the values of a configured car
after reset, or RECALLED with recall pending in FIRE_RECALL, and every other car stays. R159 to R161, R98: at the
completion of a SET-CAR-SERVICE the withdrawn-car set takes or loses the car, and the car takes the state of R161's
table, unless the set already stood so (log 19); a car that leaves IN_SERVICE keeps no WAITING booking: they are moved in
serial order, or cancelled NO_CAR with their reports (R98, R99, State.moves), and the URGENT CAR_SERVICE report follows
them (DEDUCED, log 16), with one choice of the transmitter after the reports and the reply (DESIGN CHOICE, log 40); no
RIDING booking goes, and in every other case no booking, ticket or memory changes. -/
def Obligations.BankAndCarVerifyMatchTakeEffect : Prop :=
  (∀ (s : State) (g : Program) (b : Bank) (r : BankRec), s.store.programmer = some g → g.job = .bank b r →
    (∀ k ∈ s.disp.bookings, k.bank ≠ b) →
    ∃ t, exec .verifyMatch s = .next t ∧ s.changesOnly [.store, .policy, .ports, .disp, .lines, .host] t ∧
      s.stores g t ∧ t.policy = { s.policy with banks := s.policy.banks.set b r } ∧ t.disp.bookings = s.disp.bookings ∧
      t.disp.serial = s.disp.serial ∧ t.disp.tickets = s.disp.tickets ∧ t.disp.modes = s.disp.modes ∧
      (∀ h c, h ≠ b → t.car h c = s.car h c) ∧
      ∀ c, let old := s.car b c
        let new := t.car b c
        (c.val < r.carCount → old.service ≠ .absent → new = old) ∧
        (c.val < r.carCount → old.service = .absent →
          new.status = none ∧ new.age = none ∧ new.stale = 0 ∧ new.full = false ∧ new.planned = none ∧
            new.stops = [] ∧ new.gen = 0 ∧ new.confirmed = none ∧
            (s.mode b = some .fireRecall → new.service = .recalled ∧ new.recallDue = true ∧ new.enabled = 0) ∧
            (s.mode b ≠ some .fireRecall →
              new.service = .outOfContact ∧ new.recallDue = false ∧
              ∀ f, new.enabled.has f = true ↔
                (s.floor f).state = .isOpen ∧ (s.floor f).kind ≠ .ordinary ∧ s.serves b f = true)) ∧
        (r.carCount ≤ c.val →
          new =
            if old.service = .absent then old
            else { old with service := .absent, stops := [], planned := none, enabled := 0 })) ∧
  (∀ (s : State) (g : Program) (b : Bank) (c : CarNo) (w : Bool), s.bookingsOk → s.store.programmer = some g →
    g.job = .carService b c w →
    let old := s.car b c
    let silent : Prop :=
      old.age = none ∨ ∃ a, old.age = some a ∧ 10 * (s.bank b).contactTime < (s.part.clock - a).toNat
    ∃ (t : State) (ws : CarSet), exec .verifyMatch s = .next t ∧
      s.changesOnly [.store, .policy, .ports, .disp, .lines, .host] t ∧ s.stores g t ∧
      (∀ h, ws.has h = if h = c then w else (s.bank b).withdrawn.has h) ∧
      t.policy = { s.policy with banks := s.policy.banks.set b { s.bank b with withdrawn := ws } } ∧
      t.disp.modes = s.disp.modes ∧ (∀ h d, (h, d) ≠ (b, c) → (t.car h d).service = (s.car h d).service) ∧
      (∀ k ∈ s.disp.bookings, k.state = .riding → k ∈ t.disp.bookings) ∧
      ((s.bank b).withdrawn.has c = w → t.disp = s.disp) ∧
      ((w = false ∨ old.service ≠ .inService) →
        t.disp.bookings = s.disp.bookings ∧ t.disp.tickets = s.disp.tickets ∧
          ∀ q, (t.port q).memory = (s.port q).memory) ∧
      ((s.bank b).withdrawn.has c ≠ w →
        (w = true →
          ((old.service = .inService ∨ old.service = .carHeld ∨ old.service = .outOfContact ∨ old.service = .frozen) →
            (t.car b c).service = .withdrawn ∧
              (old.service = .inService →
                (∀ k ∈ t.disp.bookings, k.bank = b → k.car = c → k.state ≠ .waiting) ∧
                ∃ v, (((s.setStore t.store).setPolicy t.policy).setCar b c { old with service := .withdrawn }).movesAll
                    (s.waitingOn b c) v ∧
                  t.disp.bookings = v.disp.bookings ∧ t.disp.tickets = v.disp.tickets ∧
                  (∀ q, (t.port q).memory = (v.port q).memory) ∧
                  t.host =
                    (v.host.post
                      { cls := .urgent, clock := s.part.clock, gap := false,
                        body := .carService b c .inService .withdrawn }).repliesDone)) ∧
          ((old.service = .absent ∨ old.service = .recalled ∨ old.service = .withdrawn) →
            (t.car b c).service = old.service)) ∧
        (w = false →
          (old.service ≠ .withdrawn → (t.car b c).service = old.service) ∧
          (old.service = .withdrawn →
            (silent → (t.car b c).service = .outOfContact) ∧
            (¬ silent → ∀ st, old.status = some st →
              (t.car b c).service =
                if old.stale = 10 then .frozen else if st.carMode = .normal then .inService else .carHeld))) ∧
        (s.host.enables.getLsbD 5 = true → s.host.queue = [] → old.service ≠ .inService →
          (t.car b c).service ≠ old.service →
          ∃ x ∈ t.host.queue,
            x.cls =
                (if (t.car b c).service = .outOfContact ∨ (t.car b c).service = .frozen then .urgent else .routine) ∧
              x.clock = s.part.clock ∧ x.body = .carService b c old.service (t.car b c).service)))

/-- R16, R14, R28, R31, R58, R161: at the verify match of an ERASE the page is GOOD, reads 255 throughout and holds no
record, the reply DONE is built, and the modes in force stay. The items of an erased policy page take their erased defaults
with the effects of their loads: a floor that was OPEN loses its WAITING bookings, with the memories that hold them and a
FLOOR_CLOSED report for each and one choice of the transmitter after them and the reply (DESIGN CHOICE, log 40), page 2084 restores the WITHDRAWN cars and leaves one
car to a bank (in which order among banks and cars, log 18), page 2085 reloads all sixteen ports as disabled. Any
other page changes no working copy and no table. The canonical form of the bytes is the model's (log 11). -/
def Obligations.ErasedPageTakesItsDefaults : Prop :=
  ∀ (s : State) (g : Program) (pages : List Nat), s.storeOk → s.store.badPages = some pages →
    s.store.programmer = some g → g.job = .erase → g.image = List.replicate 512 255 →
    ∃ t, exec .verifyMatch s = .next t ∧ s.changesOnly [.store, .policy, .ports, .disp, .lines, .host] t ∧
      s.stores g t ∧ t.store.bad g.page = false ∧ (∀ i < 512, Store.read t.store.cells (512 * g.page + i) = 255) ∧
      (∀ k < 16, t.store.record g.page k = none) ∧ t.disp.modes = s.disp.modes ∧
      ((g.page < 2048 ∨ 2086 ≤ g.page) → t.policy = s.policy ∧ t.disp = s.disp) ∧
      (2048 ≤ g.page → g.page < 2076 →
        t.disp = s.disp ∧
        (∀ n : Fin 256, t.policy.groups.get n =
          if 2048 + n.val / 16 = g.page then Group.erased else s.policy.groups.get n) ∧
        (∀ n : Fin 64, t.policy.profiles.get n =
          if 2064 + n.val / 16 = g.page then [] else s.policy.profiles.get n) ∧
        (∀ n : Fin 128, t.policy.tenants.get n =
          if 2068 + n.val / 16 = g.page then Tenant.erased else s.policy.tenants.get n) ∧
        t.policy.floors = s.policy.floors ∧ t.policy.banks = s.policy.banks ∧ t.policy.readers = s.policy.readers ∧
        t.policy.ticketLife = s.policy.ticketLife) ∧
      (2076 ≤ g.page → g.page < 2084 → s.bookingsOk →
        let shut : Floor → Bool := fun f => 2076 + f.val / 16 = g.page && (s.floor f).state = .isOpen
        let gone : Booking → Bool := fun k => k.state = .waiting && (shut k.origin || shut k.dest)
        (∀ f, t.floor f = if 2076 + f.val / 16 = g.page then FloorRec.erased else s.floor f) ∧
        t.disp.tickets = s.ticketsWithout gone ∧ t.disp.bookings = s.disp.bookings.filter (fun k => !gone k) ∧
        (∀ q, (t.port q).memory = s.memoryWithout gone q) ∧
        t.host = (s.host.posts (s.cancelReports .floorClosed gone)).repliesDone) ∧
      (g.page = 2084 → s.disp.bookings = [] →
        (∀ b, t.bank b = BankRec.erased) ∧ t.policy.ticketLife = 600 ∧ t.policy.floors = s.policy.floors ∧
        t.policy.readers = s.policy.readers ∧ t.disp.bookings = [] ∧ t.disp.tickets = s.disp.tickets ∧
        ∀ b c, let old := s.car b c
          let new := t.car b c
          let silent : Prop := old.age = none ∨ ∃ a, old.age = some a ∧ 30 < (s.part.clock - a).toNat
          (c ≠ 0 → new.service = .absent ∧ (old.service ≠ .absent → new.stops = [] ∧ new.enabled = 0)) ∧
          (c = 0 →
            (old.service = .absent →
              new.service = if s.mode b = some .fireRecall then .recalled else .outOfContact) ∧
            (old.service = .withdrawn →
              (silent → new.service = .outOfContact) ∧
              (¬ silent → ∀ st, old.status = some st →
                new.service =
                  if old.stale = 10 then .frozen else if st.carMode = .normal then .inService else .carHeld)) ∧
            (old.service ≠ .absent → old.service ≠ .withdrawn → new = old))) ∧
      (g.page = 2085 →
        t.disp = s.disp ∧
        ∀ p, t.reader p = ReaderRec.erased ∧ (t.port p).memory = none ∧
          (((s.port p).state = .disabled ∨ (s.port p).state = .idle ∨ (s.port p).state = .deferred ∨
              ((s.port p).state = .pending ∧ (s.port p).isTaken = false)) →
            (t.port p).slot = none ∧ (t.port p).state = .disabled) ∧
          ((((s.port p).state = .pending ∧ (s.port p).isTaken = true) ∨ (s.port p).state = .answering) →
            (t.port p).slot = (s.port p).slot ∧ (t.port p).state = (s.port p).state ∧
              (t.port p).reload = some false))

/-- R15, R2, R56, R164: at a verify mismatch the page is BAD and joins the list of BAD pages once, every byte of the other
pages stays, the working copies and the tables keep their values, every DEFERRED port is PENDING, one URGENT STORE_FAULT
report with cause VERIFY is posted and the reply STORE_FAULT is built, with one choice of the transmitter after both (DESIGN
CHOICE, log 40). What the page's bytes are is open (log 6) and is not stated; one open value is used (log 29). -/
def Obligations.VerifyMismatchMakesThePageBad : Prop :=
  ∀ (s : State) (g : Program) (type tag : Byte), s.store.programmer = some g →
    s.host.request = .executing type tag →
    ∃ t, exec .verifyMismatch s = .next t ∧ s.changesOnly [.store, .ports, .host, .freeCount] t ∧
      t.freeCount = s.freeCount + 1 ∧
      t.store =
        { s.store with
          cells := t.store.cells, badPages := t.store.badPages, slotsInUse := t.store.slotsInUse, programmer := none } ∧
      t.store.bad g.page = true ∧ (∀ p, p ≠ g.page → t.store.bad p = s.store.bad p) ∧
      (∀ pages, s.store.badPages = some pages → pages.Pairwise (· < ·) →
        ∃ new, t.store.badPages = some new ∧ new.Pairwise (· < ·) ∧ ∀ p, p ∈ new ↔ p ∈ pages ∨ p = g.page) ∧
      (∀ a, (a < 512 * g.page ∨ 512 * g.page + 512 ≤ a) →
        Store.read t.store.cells a = Store.read s.store.cells a) ∧
      (g.page < 2048 → t.store.slotsInUse = s.store.slotsInUse - s.store.pageInUse g.page) ∧
      (2048 ≤ g.page → t.store.slotsInUse = s.store.slotsInUse) ∧
      (∀ p, t.port p = if (s.port p).state = .deferred then { s.port p with state := .pending } else s.port p) ∧
      t.host.request = .replying { type := type, tag := tag, status := .storeFault, body := .empty } ∧
      t.host =
        (s.host.post { cls := .urgent, clock := s.part.clock, body := .storeFault g.page true, gap := false }).replies
          .storeFault ∧
      (s.host.enables.getLsbD 1 = true → s.host.queue.length < 32 →
        ∃ r ∈ t.host.queue, r.cls = .urgent ∧ r.clock = s.part.clock ∧ r.body = .storeFault g.page true)

/-- R7 to R9, R13, R14, R6: what the program of an ENROLL, a SET-BADGE-STATE or a REVOKE leaves once it matches: the
badge enrolled is found with its record in the slot it took; the badge whose state was set is found there with that
state and every other field; the badge revoked is MISSING, or MISSING_BAD with a BAD page in its range; and every
other record of the store is as it was. Until then the badge is IN_PROGRAM. The store's bytes are in their canonical
form (the model's, log 11). -/
def Obligations.CredentialProgramsReachTheLookups : Prop :=
  ∀ (s : State) (tag : Byte) (badge : Badge) (n : Nat) (pages : List Nat), s.canTake → s.storeOk →
    s.store.stamp = some n → s.store.badPages = some pages → s.store.programmer = none →
    let leads : Instr → Nat → Nat → (Lookup → Prop) → Prop := fun c p k answer =>
      ∃ t u, exec c s = .next t ∧ exec .verifyMatch t = .next u ∧ t.store.lookup badge = .inProgram ∧
        answer (u.store.lookup badge) ∧
        ∀ q j, j < 16 → (q, j) ≠ (p, k) → u.store.record q j = s.store.record q j
    (∀ (state tenant units : Byte) (groups : List Byte) (defaultFloor : Byte) (personal : List Byte)
        (validFrom : BitVec 16) (hasUntil : Byte) (validUntil : BitVec 16) (r : Credential) (p k : Nat),
      checkCredential badge state tenant units groups defaultFloor personal validFrom hasUntil validUntil = some r →
      ((∃ old, s.store.search badge = some (old, p, k)) ∨
        (s.store.search badge = none ∧ s.store.firstFree badge = some (p, k))) →
      leads (.enroll tag badge state tenant units groups defaultFloor personal validFrom hasUntil validUntil) p k
        fun a => a = .found r p k) ∧
    ∀ (old : Credential) (p k : Nat), s.store.search badge = some (old, p, k) →
      (∀ st : BadgeState,
        leads (.setBadgeState tag badge st.code) p k fun a => a = .found { old with state := st } p k) ∧
      (s.badgesOk →
        leads (.revoke tag badge) p k fun a =>
          ((∃ q ∈ probeRange badge, s.store.bad q = true) → a = .missingBad) ∧
            ((∀ q ∈ probeRange badge, s.store.bad q = false) → a = .missing))

/-! ### Bank modes and recall inputs -/

/-- R151 to R154, R157, R158, R120, R126: an assertion edge takes a bank into FIRE_RECALL and a completed SET-BANK-MODE
OUT takes it OUT: it keeps no booking; the tickets that name it or a cancelled first leg go, and every other ticket
stays; its stop lists are empty; in recall every configured car is RECALLED with its recall pending and no live button.
in either mode every other field of its cars stays but what the stop set's generation tells; entering OUT from FIRE_RECALL
first leaves it (R155). R87, R53: the memories that hold a cancelled WAITING booking become empty. The edge posts one URGENT
RECALL_INPUT report (that it comes first is DEDUCED, log 17), then each cancellation its RECALL or BANK_OUT report in serial
order, then the change one URGENT BANK_MODE report with cause INPUT or REQUEST; the transmitter chooses once, after all of
them and the reply (DESIGN CHOICE, log 40). An ABSENT car in step with the Booking Table (State.carOk, which
StepKeepsCarsInStep keeps) stays as it is. At a bank already in FIRE_RECALL an assertion edge posts its RECALL_INPUT report and changes nothing else, and a deassertion edge
does so in any mode. A level that is no edge changes nothing, and while STARTING the level alone changes. -/
def Obligations.EnteringOutOrRecallClearsTheBank : Prop :=
  (∀ (s : State) (b : Bank) (m : BankMode), s.part.state = .running → s.pins.rcl.get b = false → s.mode b = some m →
    m ≠ .fireRecall → s.bookingsOk →
    ∃ t, exec (.recallInputAsserted b) s = .next t ∧ s.changesOnly [.pins, .ports, .disp, .lines, .host] t ∧
      t.pins = { s.pins with rcl := s.pins.rcl.set b true } ∧ t.mode b = some .fireRecall ∧
      t.disp.bookings = s.disp.bookings.filter (fun k => k.bank ≠ b) ∧
      t.disp.tickets = ((s.ticketsWithout fun k => k.bank = b).filter fun x => !x.names b) ∧
      (∀ q, (t.port q).memory = s.memoryWithout (fun k => k.bank = b) q) ∧
      (let urgent : ReportBody → Report := fun x => { cls := .urgent, clock := s.part.clock, body := x, gap := false }
       t.host =
         (s.host.posts
           (urgent (.recallInput b true) :: s.cancelReports .recalled (fun k => k.bank = b) ++
             [urgent (.bankMode b m .fireRecall true (s.disp.bookings.length - t.disp.bookings.length)
               (s.disp.tickets.length - t.disp.tickets.length))])).choose) ∧
      (s.host.queue = [] →
        (s.host.enables.getLsbD 8 = true →
          ∃ x ∈ t.host.queue, x.cls = .urgent ∧ x.clock = s.part.clock ∧ x.body = .recallInput b true) ∧
        (s.host.enables.getLsbD 7 = true →
          ∃ x ∈ t.host.queue, x.cls = .urgent ∧ x.clock = s.part.clock ∧
            x.body = .bankMode b m .fireRecall true (s.disp.bookings.length - t.disp.bookings.length)
              (s.disp.tickets.length - t.disp.tickets.length))) ∧
      (∀ c, (s.car b c).service ≠ .absent →
        (t.car b c).service = .recalled ∧ (t.car b c).recallDue = true ∧ (t.car b c).enabled = 0 ∧
          (t.car b c).stops = [] ∧ (t.car b c).planned = none ∧
          t.car b c =
            { s.car b c with
              service := .recalled, recallDue := true, enabled := 0, stops := [], planned := none,
              gen := (t.car b c).gen, confirmed := (t.car b c).confirmed }) ∧
      (∀ c, s.carOk b c → (s.car b c).service = .absent → t.car b c = s.car b c) ∧
      ∀ h, h ≠ b → t.mode h = s.mode h ∧ ∀ c, t.car h c = s.car h c) ∧
  (∀ (s : State) (b : Bank),
    let level : Bool → State := fun x => s.setPins { s.pins with rcl := s.pins.rcl.set b x }
    let posted : Bool → State := fun x =>
      ((level x).setHost
        (s.host.post { cls := .urgent, clock := s.part.clock, body := .recallInput b x, gap := false })).choose
    (s.part.state = .running →
      (s.pins.rcl.get b = false → s.mode b = some .fireRecall →
        exec (.recallInputAsserted b) s = .next (posted true)) ∧
      (s.pins.rcl.get b = true →
        exec (.recallInputDeasserted b) s = .next (posted false) ∧ exec (.recallInputAsserted b) s = .next s) ∧
      (s.pins.rcl.get b = false → exec (.recallInputDeasserted b) s = .next s)) ∧
    (s.part.state = .starting →
      exec (.recallInputAsserted b) s = .next (level true) ∧
        exec (.recallInputDeasserted b) s = .next (level false))) ∧
  (∀ (s : State) (g : Program) (b : Bank) (m : BankMode), s.bookingsOk → s.store.programmer = some g →
    g.job = .bankMode b .out → s.pins.rcl.get b = false → s.mode b = some m → m ≠ .out →
    ∃ t, exec .verifyMatch s = .next t ∧ s.stores g t ∧ t.mode b = some .out ∧ (t.bank b).storedMode = .out ∧
      t.disp.bookings = s.disp.bookings.filter (fun k => k.bank ≠ b) ∧
      t.disp.tickets = ((s.ticketsWithout fun k => k.bank = b).filter fun x => !x.names b) ∧
      (∀ q, (t.port q).memory = s.memoryWithout (fun k => k.bank = b) q) ∧
      t.host =
        (s.host.posts
          (s.cancelReports .bankOut (fun k => k.bank = b) ++
            [{ cls := .urgent, clock := s.part.clock, gap := false,
               body := .bankMode b m .out false (s.disp.bookings.length - t.disp.bookings.length)
                 (s.disp.tickets.length - t.disp.tickets.length) }])).repliesDone ∧
      (∀ c, s.carOk b c → (s.car b c).service = .absent → t.car b c = s.car b c) ∧
      ∀ c, (s.car b c).service ≠ .absent →
        (t.car b c).stops = [] ∧ (t.car b c).planned = none ∧
        (∀ f, (t.car b c).enabled.has f = true ↔
          (s.floor f).state = .isOpen ∧ (s.floor f).kind ≠ .ordinary ∧ s.serves b f = true) ∧
        ∃ (service : Service) (due : Bool),
          t.car b c =
            { s.car b c with
              service := service, recallDue := due, stops := [], planned := none, enabled := (t.car b c).enabled,
              gen := (t.car b c).gen, confirmed := (t.car b c).confirmed } ∧
          (m ≠ .fireRecall → service = (s.car b c).service ∧ due = (s.car b c).recallDue) ∧
          (m = .fireRecall →
            let silent : Prop := (s.car b c).age = none ∨
              ∃ a, (s.car b c).age = some a ∧ 10 * (s.bank b).contactTime < (s.part.clock - a).toNat
            due = false ∧
            ((s.car b c).service = .recalled ∧ silent → service = .outOfContact) ∧
            (¬ ((s.car b c).service = .recalled ∧ silent) → service = (s.car b c).service)))

/-- R14, R149, R151 to R156, R126: at the completion of a SET-BANK-MODE the page is stored, the reply DONE is built (the
canonical form of the bytes is the model's, log 11) and the stored mode takes the requested one. The mode in
force stays when the recall input stands against it or when it is the same, with no effect. Otherwise the bank takes
the requested mode: entering OUT or FIRE_RECALL it loses every booking and the tickets that name it or a cancelled first
leg, every other ticket staying, and in recall
every configured car is RECALLED, empty and owes a recall; leaving FIRE_RECALL every recall pending is cleared and a
RECALLED car that is silent becomes OUT_OF_CONTACT; NORMAL, UP_PEAK and LOCKDOWN cancel nothing, and change no car
unless the bank was recalled. R87, R53: the memories that hold a cancelled WAITING booking become empty, each cancellation
posts its BANK_OUT or RECALL report in serial order, and one URGENT BANK_MODE report then names the modes and counts what
went; the transmitter chooses once, after the reports and the reply (DESIGN CHOICE, log 40). Every other field of a car
stays, but what its stop set's generation tells, when the bank enters OUT or FIRE_RECALL from a mode other than
FIRE_RECALL; an ABSENT car in step with the Booking Table (State.carOk, which StepKeepsCarsInStep keeps) stays as it is. -/
def Obligations.CompletedModeRequestsTakeEffect : Prop :=
  ∀ (s : State) (g : Program) (b : Bank) (m old : BankMode), s.bookingsOk → s.store.programmer = some g →
    g.job = .bankMode b m → s.mode b = some old →
    let stays : Prop := (s.pins.rcl.get b = true ∧ m ≠ .fireRecall) ∨ m = old
    let clears : Prop := m = .out ∨ m = .fireRecall
    ∃ t, exec .verifyMatch s = .next t ∧ s.changesOnly [.store, .policy, .ports, .disp, .lines, .host] t ∧
      s.stores g t ∧ t.policy = { s.policy with banks := s.policy.banks.set b { s.bank b with storedMode := m } } ∧
      (∀ h, h ≠ b → t.mode h = s.mode h ∧ ∀ c, t.car h c = s.car h c) ∧ (stays → t.disp = s.disp) ∧
      ((stays ∨ ¬ clears) → ∀ q, (t.port q).memory = (s.port q).memory) ∧ (stays → t.host = s.host.repliesDone) ∧
      (¬ stays →
        t.mode b = some m ∧
        (clears → ∀ q, (t.port q).memory = s.memoryWithout (fun k => k.bank = b) q) ∧
        (∀ cancelled : List Report,
          (m = .out → cancelled = s.cancelReports .bankOut fun k => k.bank = b) →
          (m = .fireRecall → cancelled = s.cancelReports .recalled fun k => k.bank = b) →
          (¬ clears → cancelled = []) →
          t.host =
            (s.host.posts
              (cancelled ++
                [{ cls := .urgent, clock := s.part.clock, gap := false,
                   body := .bankMode b old m false (s.disp.bookings.length - t.disp.bookings.length)
                     (s.disp.tickets.length - t.disp.tickets.length) }])).repliesDone) ∧
        (clears →
          t.disp.bookings = s.disp.bookings.filter (fun k => k.bank ≠ b) ∧
          t.disp.tickets = ((s.ticketsWithout fun k => k.bank = b).filter fun x => !x.names b) ∧
          ∀ c, (s.car b c).service ≠ .absent → (t.car b c).stops = [] ∧ (t.car b c).planned = none) ∧
        (∀ c, s.carOk b c → (s.car b c).service = .absent → t.car b c = s.car b c) ∧
        (m = .out → old ≠ .fireRecall → ∀ c, (s.car b c).service ≠ .absent →
          t.car b c =
            { s.car b c with
              stops := [], planned := none, enabled := (t.car b c).enabled, gen := (t.car b c).gen,
              confirmed := (t.car b c).confirmed }) ∧
        (m = .fireRecall → ∀ c, (s.car b c).service ≠ .absent →
          t.car b c =
            { s.car b c with
              service := .recalled, recallDue := true, enabled := 0, stops := [], planned := none,
              gen := (t.car b c).gen, confirmed := (t.car b c).confirmed }) ∧
        (m = .fireRecall → ∀ c, (s.car b c).service ≠ .absent →
          (t.car b c).service = .recalled ∧ (t.car b c).recallDue = true ∧ (t.car b c).enabled = 0) ∧
        (m ≠ .fireRecall → ∀ c, (s.car b c).service ≠ .absent →
          ((m = .out ∨ old = .fireRecall) → ∀ f, (t.car b c).enabled.has f = true ↔ t.enabledAt b c f) ∧
          (old = .fireRecall →
            let silent : Prop := (s.car b c).age = none ∨
              ∃ a, (s.car b c).age = some a ∧ 10 * (s.bank b).contactTime < (s.part.clock - a).toNat
            (t.car b c).recallDue = false ∧
            ((s.car b c).service = .recalled ∧ silent → (t.car b c).service = .outOfContact) ∧
            (¬ ((s.car b c).service = .recalled ∧ silent) → (t.car b c).service = (s.car b c).service))) ∧
        ((m = .normal ∨ m = .upPeak ∨ m = .lockdown) →
          t.disp.bookings = s.disp.bookings ∧ t.disp.tickets = s.disp.tickets ∧
            (old ≠ .fireRecall → ∀ c, t.car b c = s.car b c)) ∧
        (s.host.enables.getLsbD 7 = true → s.host.queue = [] →
          ∃ x ∈ t.host.queue, x.cls = .urgent ∧ x.clock = s.part.clock ∧
            x.body = .bankMode b old m false (s.disp.bookings.length - t.disp.bookings.length)
              (s.disp.tickets.length - t.disp.tickets.length)))

/-! ### Line release -/

/-- R146, R147: the LRQ input takes a line into RELEASED from any state and back to IDLE; the queue stays. R128, R147:
while STARTING the level alone changes. A deassertion at a line that is not RELEASED, which is no change of the level in
any run, changes the level alone (DESIGN CHOICE, log 4). -/
def Obligations.LineReleaseAndReturn : Prop :=
  (∀ (s : State) (l : Bank),
    let level : Bool → State := fun x => s.setPins { s.pins with lrq := s.pins.lrq.set l x }
    (s.part.state = .starting →
      exec (.lrqAsserted l) s = .next (level true) ∧ exec (.lrqDeasserted l) s = .next (level false)) ∧
    (s.part.state = .running → (s.line l).state ≠ .released →
      exec (.lrqDeasserted l) s = .next (level false))) ∧
  ∀ (s : State) (l : Bank), s.part.state = .running →
    ((s.line l).state ≠ .released →
      ∃ t, exec (.lrqAsserted l) s = .next t ∧
        t = (((s.setPins { s.pins with lrq := s.pins.lrq.set l true }).setLine l (t.line l)).setHost
          (s.host.post { cls := .routine, clock := s.part.clock,
                         body := .lineState l (s.line l).state .released, gap := false })).choose ∧
        (t.line l).state = .released ∧ (t.line l).inHand = none ∧ (t.line l).history = [] ∧ (t.line l).sweep = none ∧
        (t.line l).lastSweep = none ∧ (t.line l).mismatches = 0 ∧ (t.line l).faultMark = false ∧
        (t.line l).queue = (s.line l).queue) ∧
    ((s.line l).state = .released →
      exec (.lrqAsserted l) s = .next (s.setPins { s.pins with lrq := s.pins.lrq.set l true }) ∧
      exec (.lrqDeasserted l) s =
        .next ((((s.setPins { s.pins with lrq := s.pins.lrq.set l false }).setLine l
          { s.line l with state := .idle }).setHost
          (s.host.post { cls := .routine, clock := s.part.clock, body := .lineState l .released .idle,
                         gap := false })).choose))

/-! ### Reader Ports -/

/-- R47, R49, R50, R43: what a port settles alone. While STARTING a good frame is answered PONG or RETRY. While
RUNNING a DISABLED port ignores it, a PING is answered PONG, a PRESENT at a PENDING or DEFERRED port is answered
RETRY, a frame that meets a sending shifter is lost, and a tap that fails the checks of an IDLE port is answered DENY
BAD_REQUEST with one ROUTINE report. A frame cut before its last byte changes nothing while the receiver is hunting.
-/
def Obligations.PortAnswersAtOnce : Prop :=
  (∀ (s : State) (p : PortNo) (badge : Badge) (floor kind : Byte), s.part.state = .starting → s.transmitterOk →
    (s.port p).shifter = none → (kind = 1 ∨ kind = 2) →
    exec (.ping p) s = .next (s.setPort p { s.port p with rx := [], shifter := some (.pong .starting) }) ∧
    exec (.present p badge floor kind) s = .next (s.setPort p { s.port p with rx := [], shifter := some .retry })) ∧
  (∀ (s : State) (p : PortNo) (badge : Badge) (floor kind : Byte), s.part.state = .running → s.transmitterOk →
    (kind = 1 ∨ kind = 2) →
    (((s.port p).shifter ≠ none ∨ (s.port p).state = .disabled) →
      exec (.ping p) s = .next (s.setPort p { s.port p with rx := [] }) ∧
      exec (.present p badge floor kind) s = .next (s.setPort p { s.port p with rx := [] })) ∧
    ((s.port p).shifter = none →
      ((s.port p).state ≠ .disabled →
        exec (.ping p) s = .next (s.setPort p { s.port p with rx := [], shifter := some (.pong .running) })) ∧
      (((s.port p).state = .pending ∨ (s.port p).state = .deferred) →
        exec (.present p badge floor kind) s =
          .next (s.setPort p { s.port p with rx := [], shifter := some .retry })))) ∧
  ((∀ (s : State) (p : PortNo) (badge : Badge) (floor kind : Byte) (k : ReaderKind), s.part.state = .running →
     (s.port p).shifter = none → (s.port p).state = .idle → kind = k.code →
     (badge = 0 ∨ badge = 4294967295 ∨ k ≠ (s.reader p).kind ∨
       ((s.reader p).kind = .kiosk ∧ 128 ≤ floor.toNat ∧ floor ≠ 255)) →
     exec (.present p badge floor kind) s =
       .next (((s.setPort p
         { s.port p with rx := [], state := .answering, shifter := some (.deny .badRequest) }).setHost
         (s.host.post { cls := .routine, clock := s.part.clock, body := .deny p badge .badRequest none none,
                        gap := false })).choose))) ∧
  ∀ (s : State) (p : PortNo) (len : Byte) (rest : List Byte), s.transmitterOk → rest.length ≤ len.toNat →
    (s.port p).rx = [] → exec (.readerPartialFrameTimeout p (0x5A :: len :: rest)) s = .next s

/-- R50 step 4, R51, R54, R55: what the repeat filter does with a tap that passed the checks: a repeat GRANT in the
quiet span, and in the hold for the same or no floor; else the presentation enters the slot, marked as superseding in
the hold for another floor. `want` is the floor as step 3 leaves it. -/
def Obligations.RepeatFilterDecidesTheTap : Prop :=
  ∀ (s : State) (p : PortNo) (badge : Badge) (floor kind : Byte) (want : Option Floor), s.part.state = .running →
    s.transmitterOk → (s.port p).shifter = none → (s.port p).state = .idle → kind = (s.reader p).kind.code →
    badge ≠ 0 → badge ≠ 4294967295 →
    (want = none ↔ (s.reader p).kind = .gate ∨ floor = 255) → (∀ f, want = some f → f.val = floor.toNat) →
    let grantAgain : GrantMemory → State := fun m =>
      s.setPort p
        { s.port p with
          rx := [], state := .answering,
          shifter :=
            some (.grant m.bank m.car (s.floor m.dest).label true (m.transfer.map fun t => (s.floor t).label)) }
    let enter : Option Nat → State := fun sup =>
      s.setPort p
        { s.port p with
          rx := [], state := .pending,
          slot := some { pres := { port := p, badge := badge, floor := want, supersedes := sup,
                                   arrival := s.part.clock }, taken := false } }
    ((s.port p).memory = none → exec (.present p badge floor kind) s = .next (enter none)) ∧
    ∀ m, (s.port p).memory = some m →
      let e := (s.part.clock - m.time).toNat
      (m.badge ≠ badge → exec (.present p badge floor kind) s = .next (enter none)) ∧
      (m.badge = badge → e < 10 → exec (.present p badge floor kind) s = .next (grantAgain m)) ∧
      (m.badge = badge → 10 ≤ e → e < 10 * (s.reader p).holdTime → (want = none ∨ want = some m.dest) →
        exec (.present p badge floor kind) s = .next (grantAgain m)) ∧
      (m.badge = badge → 10 ≤ e → e < 10 * (s.reader p).holdTime → want ≠ none → want ≠ some m.dest →
        exec (.present p badge floor kind) s = .next (enter (some m.booking))) ∧
      (m.badge = badge → 10 ≤ e → 10 * (s.reader p).holdTime ≤ e →
        exec (.present p badge floor kind) s = .next (enter none))

/-- R47, R48: at the last byte of an answer the buffer moves into the shifter; an ANSWERING port with nothing left
becomes IDLE, or takes the state that its reload mark holds; any other port state stays. -/
def Obligations.ShifterDoneMovesTheBufferUp : Prop :=
  ∀ (s : State) (p : PortNo), (s.port p).shifter ≠ none →
    ((s.port p).state = .answering → (s.port p).buffer = none → (s.port p).reload = none →
      exec (.replyShifterDone p) s = .next (s.setPort p { s.port p with shifter := none, state := .idle })) ∧
    (∀ e, (s.port p).state = .answering → (s.port p).buffer = none → (s.port p).reload = some e →
      exec (.replyShifterDone p) s =
        .next (s.setPort p
          { s.port p with shifter := none, reload := none, state := if e then .idle else .disabled })) ∧
    (((s.port p).state ≠ .answering ∨ (s.port p).buffer ≠ none) →
      exec (.replyShifterDone p) s =
        .next (s.setPort p { s.port p with shifter := (s.port p).buffer, buffer := none }))

/-! ### Access policy -/

/-- R25, R41, R42: when a profile admits a minute of a day type; the override flag; the validity test. -/
def Obligations.ProfilesOverrideAndValidity : Prop :=
  (∀ (t : Policy) (n : Fin 64) (d : DayType) (m : Nat),
    t.profileAdmits n d m = true ↔
      n = 0 ∨ ∃ i ∈ t.profiles.get n, i.days.getLsbD d.code.toNat = true ∧
        ((i.start < i.stop ∧ i.start ≤ m ∧ m < i.stop) ∨ (i.stop < i.start ∧ (i.start ≤ m ∨ m < i.stop)) ∨
          i.start = i.stop)) ∧
  (∀ (s : State) (r : Credential),
    (s.overrideFlag r = true ↔ ∃ n ∈ r.groups, (s.group n).override = true ∧ (s.group n).enabled = true ∧
      (s.calendar.isSet = true →
        s.policy.profileAdmits (s.group n).profile s.calendar.dayType s.calendar.minute.val = true) ∧
      (s.calendar.isSet = false → (s.group n).profile = 0)) ∧
    (s.valid r = true ↔ s.calendar.isSet = false ∨
      (r.validFrom.toNat ≤ s.calendar.day.toNat ∧ ∀ d, r.validUntil = some d → s.calendar.day.toNat ≤ d.toNat)))

/-- R39, R40: the permitted set: the floors of the admitted groups within the tenant's lease, the personal floors and
the free floors, less the CLOSED ones. -/
def Obligations.PermittedSetOfACredential : Prop :=
  ∀ (s : State) (r : Credential) (f : Floor),
    (s.permitted r).has f = true ↔
      (s.floor f).state = .isOpen ∧
        (((∃ n ∈ r.groups, (s.group n).enabled = true ∧
              (if s.calendar.isSet then
                  s.policy.profileAdmits (s.group n).profile s.calendar.dayType s.calendar.minute.val = true
                else (s.group n).profile = 0) ∧
              (s.group n).floors.has f = true) ∧
            (s.policy.tenants.get r.tenant).floors.has f = true) ∨
          f ∈ r.personal ∨ (s.floor f).kind ≠ .ordinary)

/-! ### Authorization -/

/-- R61, R63, R56, R59: an idle engine takes the first untaken PENDING port after its pointer, with the home floor and
bank set of its reader, and one that is DECIDING takes nothing; a decision whose lookup meets the page under program
hands the presentation back and does nothing else. -/
def Obligations.EngineTakesAndDefers : Prop :=
  (∀ s : State, s.engine.inHand ≠ none → exec .presentationTaking s = .next s) ∧
  (∀ s : State, s.part.state = .running → s.engine.inHand = none →
    ((∀ p x, (s.port p).state = .pending → (s.port p).slot = some x → x.taken = true) →
      exec .presentationTaking s = .next s) ∧
    ∀ (i : Nat) (p : PortNo) (x : Slot), i < 16 → p.val = (s.engine.pointer.val + 1 + i) % 16 →
      (s.port p).state = .pending → (s.port p).slot = some x → x.taken = false →
      (∀ j < i, ∀ q : PortNo, q.val = (s.engine.pointer.val + 1 + j) % 16 →
        ∀ y, (s.port q).state = .pending → (s.port q).slot = some y → y.taken = true) →
      exec .presentationTaking s =
        .next ((s.setPort p { s.port p with slot := some { x with taken := true } }).setEngine
          { inHand := some x.pres, entryCopy := some ((s.reader p).home, (s.reader p).banks), pointer := p })) ∧
  (∀ (s : State) (x : Presentation) (home : Floor) (banks : BankSet), s.engine.inHand = some x →
    s.engine.entryCopy = some (home, banks) → s.store.lookup x.badge = .inProgram → s.transmitterOk →
    exec .decisionMoment s =
      .next ((s.setPort x.port
        (match (s.port x.port).reload with
         | none => { s.port x.port with state := .deferred, slot := some { pres := x, taken := false } }
         | some e =>
           { s.port x.port with state := if e then .idle else .disabled, slot := none, reload := none })).setEngine
        { inHand := none, entryCopy := none, pointer := s.engine.pointer }))

/-- R64, R65, R68, R77: steps 1 to 4, and, for a badge without a ticket that keys a floor, steps 7 to 9, the first
that fails giving the reason. A DENY there changes no booking, ticket or car, and posts one report, URGENT for LOST.
-/
def Obligations.CredentialAndFloorStepsDeny : Prop :=
  (∀ (s : State) (x : Presentation) (home : Floor) (banks : BankSet) (e : DenyReason), s.engine.inHand = some x →
    s.engine.entryCopy = some (home, banks) →
    ((s.store.lookup x.badge = .missingBad ∧ e = .storeFault) ∨ (s.store.lookup x.badge = .missing ∧ e = .unknown) ∨
      ∃ r p k, s.store.lookup x.badge = .found r p k ∧
        ((r.state = .lost ∧ e = .lost) ∨ (r.state = .suspended ∧ e = .suspended) ∨
          (r.state = .active ∧ s.valid r = false ∧ e = .expired) ∨
          (r.state = .active ∧ s.valid r = true ∧ (s.policy.tenants.get r.tenant).state = .locked ∧
            e = .tenantLocked))) →
    exec .decisionMoment s =
      .next ((((s.setPort x.port
        (({ s.port x.port with slot := none, state := .answering } : Port).send (.deny e))).setHost
        (s.host.post { cls := if e = .lost then .urgent else .routine, clock := s.part.clock,
                       body := .deny x.port x.badge e x.floor none, gap := false })).setEngine
        { inHand := none, entryCopy := none, pointer := s.engine.pointer }).choose)) ∧
  (∀ (s : State) (x : Presentation) (home d : Floor) (banks : BankSet) (r : Credential) (p k : Nat) (e : DenyReason),
    s.engine.inHand = some x → s.engine.entryCopy = some (home, banks) → s.store.lookup x.badge = .found r p k →
    r.state = .active → s.valid r = true → (s.policy.tenants.get r.tenant).state = .normal →
    (∀ t ∈ s.disp.tickets, t.badge = x.badge → t.transfer ≠ home) → x.floor = some d →
    ((d = home ∧ e = .sameFloor) ∨ (d ≠ home ∧ (s.floor d).state = .isClosed ∧ e = .floorClosed) ∨
      (d ≠ home ∧ (s.floor d).state = .isOpen ∧ (s.permitted r).has d = false ∧ e = .notPermitted)) →
    exec .decisionMoment s =
      .next ((((s.setPort x.port
        (({ s.port x.port with slot := none, state := .answering } : Port).send (.deny e))).setHost
        (s.host.post { cls := .routine, clock := s.part.clock, body := .deny x.port x.badge e (some d) (some d),
                       gap := false })).setEngine
        { inHand := none, entryCopy := none, pointer := s.engine.pointer }).choose))

/-- R66 to R73, R76, R77: steps 6 to 13 for a badge that passed steps 1 to 4. When step 6 resolves no destination, the
decision is DENY NO_DESTINATION, and when it resolves one, DENY with the reason of the first of steps 7 to 13 that
fails. The badge's ticket for the home floor, used or superseded, leaves with the DENY; nothing else of the tables
changes, and one ROUTINE report names the requested floor and the destination. -/
def Obligations.DestinationRouteAndRoomStepsDeny : Prop :=
  ∀ (s : State) (x : Presentation) (home : Floor) (banks : BankSet) (r : Credential) (p k : Nat) (d : Option Floor)
    (e : DenyReason) (kept : List Ticket), s.engine.inHand = some x → s.engine.entryCopy = some (home, banks) →
    s.store.lookup x.badge = .found r p k → r.state = .active → s.valid r = true →
    (s.policy.tenants.get r.tenant).state = .normal → s.ticketsOk → s.resolves x r home banks d →
    ((d = none ∧ e = .noDestination) ∨ ∃ f, d = some f ∧ s.refuses r home banks f e) →
    ((∃ y, s.ticketHeld x home y) → kept = s.disp.tickets.filter fun y => y.badge ≠ x.badge) →
    ((∀ y, ¬ s.ticketHeld x home y) → kept = s.disp.tickets) →
    exec .decisionMoment s =
      .next (((((s.setTickets kept).setPort x.port
        (({ s.port x.port with slot := none, state := .answering } : Port).send (.deny e))).setHost
        (s.host.post { cls := .routine, clock := s.part.clock, body := .deny x.port x.badge e x.floor d,
                       gap := false })).setEngine
        { inHand := none, entryCopy := none, pointer := s.engine.pointer }).choose)

/-- R74, R75, R78, R79, R85, R52, R57, R119, R123, R66: a grant, direct or over a transfer, with or without a ticket,
and superseding or not. The booking takes the lowest free id, the next serial and the fields of R74, on an IN_SERVICE
car with room whose lane was not excluded. R69 to R71, R112, R113: its bank is a direct candidate that passes the mode
filter, or, with no direct candidate at all, its bank and transfer floor are a pair that remains; and its lane is the lowest
over all candidates that remain, a tie going to the lower bank, then the lower transfer floor, then the lower car. A transfer grant writes the badge's ticket in place of any it held; a
ticket for the home floor leaves at a direct one. The booking named by a superseding mark goes when it is WAITING with
the same badge and port, and its first-leg ticket with it; no other booking changes. R87, R53: a SUPERSEDED report goes
before the GRANT report, which names the cancelled booking, and the port's memory of it goes. R47: the port answers GRANT, in the buffer while its shifter is sending, and
remembers it, unless a reload waits to disable it. That the new booking is never the one superseded is the model's reading
(DEDUCED, log 14), and so is the one choice of the transmitter after the two reports (DESIGN CHOICE, log 40). -/
def Obligations.GrantMakesOneBooking : Prop :=
  ∀ (s : State) (x : Presentation) (home d : Floor) (banks : BankSet) (r : Credential) (p k id : Nat) (b : Bank)
    (c : CarNo) (transfer : Option Floor), s.engine.inHand = some x → s.engine.entryCopy = some (home, banks) →
    s.store.lookup x.badge = .found r p k → r.state = .active → s.valid r = true →
    (s.policy.tenants.get r.tenant).state = .normal → s.bookingsOk → s.ticketsOk →
    s.resolves x r home banks (some d) →
    s.testTrip r home banks d = .ok (id, { bank := b, car := c, transfer := transfer }) →
    let used : Prop := ∃ y, s.ticketUsed x home y
    let goes : Booking → Bool := fun j =>
      x.supersedes = some j.id && j.state = .waiting && j.badge = x.badge && j.port = x.port
    let cost : Bank → Floor → CarNo → Nat := fun h f => s.lane h { origin := home, dest := f, units := r.units }
    ∃ (t : State) (leg : Leg), exec .decisionMoment s = .next t ∧
      s.changesOnly [.ports, .engine, .disp, .lines, .host] t ∧
      t.engine = { inHand := none, entryCopy := none, pointer := s.engine.pointer } ∧
      (transfer ≠ none → leg = .firstLeg) ∧ (transfer = none → used → leg = .secondLeg) ∧
      (transfer = none → ¬ used → leg = .direct) ∧
      t.disp.bookings = (s.disp.bookings.filter fun j => !goes j) ++
        [{ id := id, serial := s.disp.serial, badge := x.badge, port := x.port, bank := b, car := c, origin := home,
           dest := transfer.getD d, units := r.units, state := .waiting, leg := leg, created := x.arrival }] ∧
      t.disp.serial = s.disp.serial + 1 ∧ t.disp.modes = s.disp.modes ∧
      (∀ y, y ∈ t.disp.tickets ↔
        (y ∈ s.disp.tickets ∧
          (y.badge = x.badge →
            transfer = none ∧ y.transfer ≠ home ∧
              ∀ j ∈ s.disp.bookings, goes j = true → j.leg = .firstLeg → y.firstLeg ≠ some j.id)) ∨
        ∃ f, transfer = some f ∧ y.badge = x.badge ∧ y.transfer = f ∧ y.dest = d ∧ y.firstBank = b ∧
          y.firstLeg = some id ∧ y.expiry = s.part.clock + BitVec.ofNat 32 (10 * s.policy.ticketLife) ∧
          ∀ h, y.onward.has h = true ↔ s.onwardTo f d h ∧ s.bankPasses r h) ∧
      (transfer = none →
        s.direct home banks d b ∧ s.bankPasses r b ∧
          ∀ h, s.direct home banks d h → s.bankPasses r h → ∀ a,
            cost b d c ≤ cost h d a ∧ (cost b d c = cost h d a → b < h ∨ (b = h ∧ c ≤ a))) ∧
      (∀ f, transfer = some f →
        (∀ h, ¬ s.direct home banks d h) ∧ s.pairRemains r home banks d b f ∧
          ∀ h g, s.pairRemains r home banks d h g → ∀ a,
            cost b f c ≤ cost h g a ∧
              (cost b f c = cost h g a → b < h ∨ (b = h ∧ (f < g ∨ (f = g ∧ c ≤ a))))) ∧
      (∀ j ∈ s.disp.bookings, j.id ≠ id) ∧ (∀ i < id, ∃ j ∈ s.disp.bookings, j.id = i) ∧ id < 512 ∧
      (s.car b c).service = .inService ∧ s.committed b c + r.units ≤ (s.bank b).capacity ∧
      s.lane b { origin := home, dest := transfer.getD d, units := r.units } c ≤ 65534 ∧
      (x.supersedes = none → t.committed b c = s.committed b c + r.units) ∧
      (∃ y ∈ (t.car b c).stops,
        y.key = { floor := home, dir := if home < transfer.getD d then .up else .down } ∧ y.pickup = true) ∧
      (t.port x.port).slot = none ∧ (t.port x.port).state = .answering ∧
      ((s.port x.port).shifter = none →
        (t.port x.port).shifter =
            some (.grant b c (s.floor d).label false (transfer.map fun f => (s.floor f).label)) ∧
          (t.port x.port).buffer = (s.port x.port).buffer) ∧
      (∀ a, (s.port x.port).shifter = some a →
        (t.port x.port).shifter = some a ∧
          (t.port x.port).buffer =
            some (.grant b c (s.floor d).label false (transfer.map fun f => (s.floor f).label))) ∧
      ((s.port x.port).reload ≠ some false →
        (t.port x.port).memory = some
          { badge := x.badge, booking := id, dest := d, time := s.part.clock, bank := b, car := c,
            transfer := transfer }) ∧
      ((s.port x.port).reload = some false → (t.port x.port).memory = s.memoryWithout goes x.port) ∧
      (∀ q, q ≠ x.port → t.port q = s.port q) ∧
      t.host =
        (s.host.posts
          (s.cancelReports .superseded goes ++
            [{ cls := .routine, clock := s.part.clock, gap := false,
               body := .grant x.port x.badge id b c home d leg transfer
                 ((s.disp.bookings.find? goes).map fun j => j.id) }])).choose ∧
      (x.supersedes = none → s.host.enables.getLsbD 2 = true → s.host.queue.length < 32 → s.host.tx ≠ .free →
        t.host.queue = s.host.queue ++
          [{ cls := .routine, clock := s.part.clock, gap := false,
             body := .grant x.port x.badge id b c home d leg transfer none }])

/-! ### Car assignment -/

/-- R102 to R111: a lane reads 65535 exactly when one of the six conditions holds, and otherwise is W + R + N + L, with
W the travel over the entries ranked before the origin's key and their stops, or 0 for a car standing open there, R the
ride and the stops on its way, N the delay of the new stops to the committed units, L the load; products and sums are
clamped at 65534. The winner of an evaluation is the lowest included lane, the lowest car number among equals, and there
is none exactly when all eight lanes are EXCLUDED. -/
def Obligations.LanesAndTheWinningCar : Prop :=
  (∀ (s : State) (b : Bank) (t : Trip) (c : CarNo),
    let way := dirOf t.origin t.dest
    (s.lane b t c = 65535 ↔
      (s.car b c).service ≠ .inService ∨ (s.car b c).full = true ∨
        (s.bank b).capacity < s.committed b c + t.units ∨
        24 < ((s.car b c).keys ++ s.pendingDrops b c ++
          [({ floor := t.origin, dir := way } : Key), { floor := t.dest, dir := way }]).dedup.length ∨
        (s.mode b = some .upPeak ∧ (s.floor t.origin).kind = .lobby ∧
          (s.bank b).tripCap < (t.dest :: (s.disp.bookings.filter fun k =>
            k.bank = b ∧ k.car = c ∧ k.state = .waiting ∧ k.origin = t.origin).map fun k => k.dest).dedup.length) ∨
        s.serves b t.origin = false ∨ s.serves b t.dest = false) ∧
    (s.lane b t c ≠ 65535 → s.lane b t c ≤ 65534)) ∧
  (∀ (s : State) (b : Bank) (t : Trip) (c : CarNo), s.lane b t c ≠ 65535 →
    let car := s.car b c
    let r := s.bank b
    let way := dirOf t.origin t.dest
    let pickup : Key := { floor := t.origin, dir := way }
    let drop : Key := { floor := t.dest, dir := way }
    let clamp : Nat → Nat := fun n => min 65534 n
    let gap : Nat → Nat → Nat := fun m n => max m n - min m n
    let before := (car.stops.filter fun e => sweepBefore car.refDir car.refPos e.key pickup).map fun e => e.key.floor.val
    let path := car.refPos.val :: before ++ [t.origin.val]
    let travel := ((path.zip path.tail).map fun x => gap x.1 x.2).sum
    let opens : Prop := ∃ st, car.status = some st ∧ st.position = t.origin ∧
      (st.doors = .opening ∨ st.doors = .opened) ∧ (st.direction = some way ∨ st.direction = none)
    let onWay := (car.stops.filter fun e => e.key.dir = way ∧
      ((t.origin < e.key.floor ∧ e.key.floor < t.dest) ∨ (t.dest < e.key.floor ∧ e.key.floor < t.origin))).length
    let ride := clamp (clamp (gap t.origin.val t.dest.val * r.floorTime) + clamp (onWay * r.stopTime))
    let new := (if pickup ∈ car.keys then 0 else 1) + (if drop ∈ car.keys ∨ drop ∈ s.pendingDrops b c then 0 else 1)
    let units := ((s.carBookings b c).map fun k => k.units).sum
    let cost : Nat → Nat := fun wait =>
      clamp (clamp (clamp (wait + ride) + clamp (new * r.stopTime * units) / 8) + clamp (units * r.loadBias))
    (opens → s.lane b t c = cost 0) ∧
      (¬ opens → s.lane b t c = cost (clamp (clamp (travel * r.floorTime) + clamp (before.length * r.stopTime))))) ∧
  (∀ (s : State) (b : Bank) (t : Trip),
    match s.evaluate b t with
    | none => ∀ c, s.lane b t c = 65535
    | some (c, n) =>
      n = s.lane b t c ∧ n ≤ 65534 ∧ (∀ h, n ≤ s.lane b t h) ∧ ∀ h, h < c → n < s.lane b t h)

/-- R112, R113: over direct banks in rising order the lowest winning cost is chosen, the lowest bank among equals;
over transfer pairs likewise, a tie going to the lower bank and then the lower floor. With no winner step 13 fails
NO_CAR. R68 to R73: steps 7 to 13 fail with the reason that State.refuses gives in the spec's terms, and give an id, a bank
and a car exactly when there is no such reason. -/
def Obligations.RouteChoosesTheLowestCost : Prop :=
  (∀ (s : State) (home d : Floor) (units : Nat),
    (∀ bs : List Bank, bs.Pairwise (· < ·) →
      match s.chooseCar home d units (.direct bs) with
      | none => ∀ b ∈ bs, s.evaluate b { origin := home, dest := d, units := units } = none
      | some x => x.transfer = none ∧ x.bank ∈ bs ∧ ∃ n,
          s.evaluate x.bank { origin := home, dest := d, units := units } = some (x.car, n) ∧
          ∀ b ∈ bs, ∀ c m, s.evaluate b { origin := home, dest := d, units := units } = some (c, m) →
            n ≤ m ∧ (n = m → x.bank ≤ b)) ∧
    ∀ ps : List (Bank × Floor),
      ps.Pairwise (fun p q => p.1 < q.1 ∨ (p.1 = q.1 ∧ p.2 < q.2)) →
      match s.chooseCar home d units (.transfer ps) with
      | none => ∀ p ∈ ps, s.evaluate p.1 { origin := home, dest := p.2, units := units } = none
      | some x => ∃ t, x.transfer = some t ∧ (x.bank, t) ∈ ps ∧ ∃ n,
          s.evaluate x.bank { origin := home, dest := t, units := units } = some (x.car, n) ∧
          ∀ p ∈ ps, ∀ c m, s.evaluate p.1 { origin := home, dest := p.2, units := units } = some (c, m) →
            n ≤ m ∧ (n = m → x.bank < p.1 ∨ (x.bank = p.1 ∧ t ≤ p.2))) ∧
  (∀ (s : State) (badge : Badge) (override : Bool) (home d : Floor) (banks : BankSet) (units id : Nat) (r q : Route),
    s.route home banks d = some r → s.filterRoute override d r = .ok q → s.freeId = some id →
    s.ticketRoom badge q = true →
    (s.chooseCar home d units q = none → s.findCar badge override home banks d units = .error .noCar) ∧
    ∀ x, s.chooseCar home d units q = some x → s.findCar badge override home banks d units = .ok (id, x)) ∧
  ∀ (s : State) (r : Credential) (home d : Floor) (banks : BankSet),
    (∀ e, s.refuses r home banks d e ↔ s.testTrip r home banks d = .error e) ∧
      ((∀ e, ¬ s.refuses r home banks d e) ↔ ∃ x, s.testTrip r home banks d = .ok x)

/-! ### Car lines -/

/-- R141, R142, R143, R129: the choice of an IDLE line. The poll at the sweep position is sent whatever the car count has
become, since R142 reads the count at each move of the position (DEDUCED, log 20). -/
def Obligations.LineChoosesItsTransaction : Prop :=
  ∀ (s : State) (l : Bank), s.part.state = .running → (s.line l).state = .idle →
    let r := s.line l
    let due : Prop := r.sweep ≠ none ∨ r.lastSweep = none ∨ ∃ t, r.lastSweep = some t ∧ t + 100 ≤ r.time
    let two : Prop := ∃ a b, r.history = [a, b] ∧ a ≠ .poll ∧ b ≠ .poll
    let go : CommandKind → CarNo → CommandBody → Source → Line := fun k c f src =>
      { r with
        state := .sending, pausing := false, rx := [], ends := none,
        inHand := some { kind := k, car := c, frame := f, source := src, attempt := 1, holds := 0, resends := 0 } }
    let deliver : CarNo → Line := fun c =>
      if (s.car l c).recallDue then go .recallCar c (.recallTo (s.bank l).recallFloor) .delivery
      else
        go .stopset c
          (.stopset (s.car l c).gen ((s.car l c).stops.map fun e => e.key) (s.car l c).enabled) .delivery
    (∀ c rest, r.queue = c :: rest → (¬ two ∨ ¬ due) →
      exec (.transactionChoice l) s = .next (s.setLine l (deliver c))) ∧
    ((r.queue = [] ∨ two) → due →
      (∀ c : CarNo, r.sweep = some c.val →
        exec (.transactionChoice l) s = .next (s.setLine l (go .poll c .poll .sweep))) ∧
      (r.sweep = none →
        exec (.transactionChoice l) s =
          .next (s.setLine l { go .poll 0 .poll .sweep with sweep := some 0, lastSweep := some r.time }))) ∧
    (r.queue = [] → ¬ due → exec (.transactionChoice l) s = .next s)

/-- R130, R133, R134, R137, R138, R142: a clean sending opens the 3 ms window and clears the mismatch count; the ends
of BACKOFF and of a resend pause send the same frame again; the end of FAULT leaves the line IDLE; a HOLD below the
fifth opens a window of 13 ms and a RESEND below the fourth a pause of 5 ms. The model's choices: the ends bring the
line's count to the moment they stand for (log 2), SWEEP_DUE brings it to 100 ms after the last sweep start (log 34), and
a HOLD or RESEND heard while bytes of another answer are in progress is taken whole (log 38). -/
def Obligations.LinesSendWaitAndListen : Prop :=
  (∀ (s : State) (l : Bank), let r := s.line l
    let ended : Line := { r with time := max r.time (r.ends.getD r.time) }
    (r.state = .sending →
      exec (.commandSent l) s =
        .next (s.setLine l { r with mismatches := 0, state := .awaiting, pausing := false, rx := [],
                                    ends := some (r.time + 3) })) ∧
    (r.state = .backoff →
      exec (.backoffEnd l) s =
        .next (s.setLine l { ended with state := .sending, pausing := false, rx := [], ends := none })) ∧
    (r.state = .awaiting → r.pausing = true →
      exec (.resendPauseEnd l) s =
        .next (s.setLine l { ended with state := .sending, pausing := false, rx := [], ends := none })) ∧
    (r.state = .fault →
      exec (.faultEnd l) s = .next (s.setLine l { ended with state := .idle, ends := none })) ∧
    (∀ t, r.lastSweep = some t →
      exec (.sweepDue l) s = .next (s.setLine l { r with time := max r.time (t + 100) }))) ∧
  (∀ (s : State) (l : Bank) (t : Transaction) (a : Byte), let r := s.line l
    r.state = .awaiting → r.pausing = false → r.inHand = some t → a.toNat = t.car.val → s.transmitterOk →
    (t.holds < 4 →
      exec (.hold l a) s =
        .next (s.setLine l
          { r with inHand := some { t with holds := t.holds + 1 }, rx := [], ends := some (r.time + 13) })) ∧
    (t.resends < 3 →
      exec (.resend l a) s =
        .next (s.setLine l
          { r with inHand := some { t with resends := t.resends + 1 }, pausing := true, rx := [],
                   ends := some (r.time + 5) })))

/-- R137, R138: a readback mismatch sends the line into BACKOFF with the transaction kept, and the third in a row into
FAULT with the transaction ended, the fault mark set and, when the mark was clear, one URGENT report. R140, R142: a
delivery's car goes to the tail of the queue, and a SWEEP transaction moves the sweep position, which becomes absent when
the next number is not below the car count. -/
def Obligations.ReadbackMismatchBacksOffThenFaults : Prop :=
  ∀ (s : State) (l : Bank) (t : Transaction), let r := s.line l
    r.state = .sending → r.inHand = some t →
    (r.mismatches < 2 → s.transmitterOk →
      exec (.readbackMismatch l) s =
        .next (s.setLine l
          { r with mismatches := r.mismatches + 1, state := .backoff,
                   inHand := some { t with holds := 0, resends := 0 }, ends := some (r.time + 20) })) ∧
    (2 ≤ r.mismatches →
      ∃ u, exec (.readbackMismatch l) s = .next u ∧ s.changesOnly [.lines, .host] u ∧
        (∀ h, h ≠ l → u.line h = s.line h) ∧ (u.line l).state = .fault ∧ (u.line l).inHand = none ∧
        (u.line l).mismatches = 3 ∧ (u.line l).faultMark = true ∧ (u.line l).ends = some (r.time + 1000) ∧
        (u.line l).history = (t.kind :: r.history).take 2 ∧ (u.line l).lastSweep = r.lastSweep ∧
        (t.source = .sweep → (u.line l).queue = r.queue ∧
          ∀ p, r.sweep = some p →
            (u.line l).sweep = if p + 1 < (s.bank l).carCount then some (p + 1) else none) ∧
        (t.source = .delivery → (u.line l).sweep = r.sweep ∧
          (t.car ∉ r.queue → (u.line l).queue = r.queue) ∧
          (t.car ∈ r.queue → (u.line l).queue = (r.queue.filter fun c => c ≠ t.car) ++ [t.car])) ∧
        (r.faultMark = true → s.transmitterOk → u.host = s.host) ∧
        (r.faultMark = false →
          u.host = (s.host.post { cls := .urgent, clock := s.part.clock, body := .lineState l .sending .fault,
                                  gap := false }).choose))

/-- R136, R131, R133, R134, R182: each way in which an attempt fails (no answer in the window, an answer cut after any
number of its bytes, an answer bad by any of R131's cases, a fifth HOLD, a fourth RESEND; bytes before a lead byte are
skipped) sends the same frame again as attempt 2, and after attempt 2 ends the transaction without touching the car.
R138: that end clears a fault mark while the mismatch count is 0, with one ROUTINE LINE_STATE report from FAULT to IDLE;
nothing else touches the mark or posts a report. -/
def Obligations.FailedAttemptsAreTriedTwice : Prop :=
  ∀ (s : State) (l : Bank) (t : Transaction) (c : Instr), let r := s.line l
    let clears : Prop := t.attempt ≠ 1 ∧ r.faultMark = true ∧ r.mismatches = 0
    r.state = .awaiting → r.pausing = false → r.rx = [] → r.inHand = some t → s.transmitterOk →
    (c = .answerWindowExpiry l ∨
      (∃ skipped rest : List Byte, (∀ x ∈ skipped, x ≠ 0x69) ∧
        (∀ len, rest[2]? = some len → rest.length < len.toNat + 4) ∧
        c = .answerByteTimeout l (skipped ++ 0x69 :: rest)) ∨
      (∃ (skipped : List Byte) (address kind len : Byte) (body : List Byte) (check : Byte),
        (∀ x ∈ skipped, x ≠ 0x69) ∧ body.length = len.toNat ∧ answerBad t.car address kind len body check ∧
        c = .badAnswer l (skipped ++ [0x69, address, kind, len] ++ body ++ [check])) ∨
      (∃ (a position direction motion doors carMode load freshness held accepted : Byte) (calls : List Byte),
        (a.toNat ≠ t.car.val ∨ statusBad position direction motion doors carMode freshness calls) ∧
        c = .status l a position direction motion doors carMode load freshness held accepted calls) ∨
      (∃ a : Byte, a.toNat ≠ t.car.val ∧ (c = .hold l a ∨ c = .resend l a)) ∨
      (∃ a : Byte, a.toNat = t.car.val ∧ ((c = .hold l a ∧ 4 ≤ t.holds) ∨ (c = .resend l a ∧ 3 ≤ t.resends)))) →
    ∃ u, exec c s = .next u ∧ s.changesOnly [.lines, .host] u ∧ (∀ h, h ≠ l → u.line h = s.line h) ∧
      (clears →
        (u.line l).faultMark = false ∧
          u.host = (s.host.post { cls := .routine, clock := s.part.clock, body := .lineState l .fault .idle,
                                  gap := false }).choose) ∧
      (¬ clears → (u.line l).faultMark = r.faultMark ∧ u.host = s.host) ∧
      (t.attempt = 1 →
        (u.line l).state = .sending ∧ (u.line l).inHand = some { t with attempt := 2, holds := 0, resends := 0 } ∧
        (u.line l).queue = r.queue ∧ (u.line l).history = r.history ∧ (u.line l).sweep = r.sweep) ∧
      (t.attempt ≠ 1 →
        (u.line l).state = .idle ∧ (u.line l).inHand = none ∧
        (u.line l).history = (t.kind :: r.history).take 2 ∧
        (t.source = .delivery → t.car ∈ r.queue →
          (u.line l).queue = (r.queue.filter fun c => c ≠ t.car) ++ [t.car]) ∧
        (t.source = .sweep → (u.line l).queue = r.queue ∧
          ∀ p, r.sweep = some p →
            (u.line l).sweep = if p + 1 < (s.bank l).carCount then some (p + 1) else none))

/-- R132, R89 to R92, R145, R83: a good STATUS of a configured car ends the transaction, and the car takes the
reported fields, the age, the stale count, the service state of R91 and the FULL flag of R92. The accepted generation
confirms the current one, unless the event changes the stop set, which takes the next generation, unconfirmed. The
answer to a RECALL_CAR clears the recall pending when the car reports mode FIRE. R138: the end of the transaction clears a
fault mark while the mismatch count is 0, with one ROUTINE LINE_STATE report from FAULT to IDLE. R89, R148: a good STATUS
for an ABSENT car ends the transaction and changes nothing at the Car Table. The model's choices: a STATUS heard while
bytes of another answer are in progress is taken whole (log 38), and a car made ABSENT and configured again while its
transaction was in flight takes the STATUS (log 43). R89, R131, R178, R182: what a STATUS's bytes hold. It is good when
every code is defined, every floor is below 128 and at most four calls are listed; a load above 150 is read as 150, and
generation-held 0 gives no accepted generation. R142, R140, R83: a SWEEP's answer moves the sweep position to the next number
below the car count, or makes it absent; the cars that became dirty join the queue's tail, and then the car of a DELIVERY,
if still dirty, moves to the tail. R95: a change of service state posts one CAR_SERVICE report, after the NO_CAR
cancellations of the bookings moved (DEDUCED, log 16) and before the LINE_STATE report, with one choice of the transmitter
after all of them (DESIGN CHOICE, log 40); without a change there is none. -/
def Obligations.StatusIsTakenByTheCar : Prop :=
  (∀ (s : State) (l : Bank) (t : Transaction) (a position direction motion doors carMode load freshness held accepted :
      Byte) (calls : List Byte) (st : Status), let r := s.line l
    let old := s.car l t.car
    r.state = .awaiting → r.pausing = false → r.inHand = some t → a.toNat = t.car.val → old.service ≠ .absent →
    checkStatus position direction motion doors carMode load freshness held accepted calls = some st →
    ∃ u, exec (.status l a position direction motion doors carMode load freshness held accepted calls) s = .next u ∧
      s.changesOnly [.ports, .disp, .lines, .host] u ∧
      (u.line l).state = .idle ∧ (u.line l).inHand = none ∧ (u.line l).history = (t.kind :: r.history).take 2 ∧
      ((u.line l).faultMark = true ↔ r.faultMark = true ∧ r.mismatches ≠ 0) ∧
      (r.faultMark = true → r.mismatches = 0 → s.host.enables.getLsbD 6 = true →
        s.host.queue.length + s.disp.bookings.length + 2 ≤ 32 →
        ∃ x ∈ u.host.queue, x.cls = .routine ∧ x.clock = s.part.clock ∧ x.body = .lineState l .fault .idle) ∧
      u.disp.modes = s.disp.modes ∧ u.disp.serial = s.disp.serial ∧
      let new := u.car l t.car
      new.age = some s.part.clock ∧
      (st.fresh = true → new.status = some st ∧ new.stale = 0) ∧
      (st.fresh = false → new.stale = min 10 (old.stale + 1) ∧
        ∃ x, new.status = some x ∧ x.carMode = st.carMode ∧ x.load = st.load ∧ x.accepted = st.accepted ∧
          (∀ y, old.status = some y → x.position = y.position ∧ x.direction = y.direction ∧ x.motion = y.motion ∧
            x.doors = y.doors ∧ x.calls = y.calls) ∧
          (old.status = none → x.position = 0 ∧ x.direction = none ∧ x.motion = .stopped ∧ x.doors = .closed ∧
            x.calls = [])) ∧
      new.service =
        (if s.mode l = some .fireRecall then .recalled
         else if old.service = .recalled ∧ st.carMode ≠ .normal then .recalled
         else if (s.bank l).withdrawn.has t.car then .withdrawn
         else if new.stale = 10 then .frozen
         else if st.carMode = .normal then .inService
         else .carHeld) ∧
      ((s.bank l).fullThreshold ≤ st.load → new.full = true) ∧
      (st.load + 10 < (s.bank l).fullThreshold → new.full = false) ∧
      (st.load < (s.bank l).fullThreshold → (s.bank l).fullThreshold ≤ st.load + 10 → new.full = old.full) ∧
      new.recallDue = (if t.kind = .recallCar ∧ st.carMode = .fire then false else old.recallDue) ∧
      let same : Prop := (∀ k, k ∈ new.keys ↔ k ∈ old.keys) ∧ new.enabled = old.enabled
      (same →
        new.gen = old.gen ∧
          new.confirmed = (if st.accepted = some old.gen then some old.gen else old.confirmed)) ∧
      (¬ same → new.gen = old.gen + 1 ∧ new.confirmed = none) ∧
      (u.line l).lastSweep = r.lastSweep ∧
      (t.source = .sweep → ∀ p, r.sweep = some p →
        (u.line l).sweep = if p + 1 < (s.bank l).carCount then some (p + 1) else none) ∧
      (t.source = .delivery → (u.line l).sweep = r.sweep) ∧
      (s.dirtyOk →
        (t.source = .sweep → (u.line l).queue = s.dirtyOrder u l) ∧
        (t.source = .delivery → (u.line l).queue = deliveredOrder (s.dirtyOrder u l) t.car)) ∧
      let leaves : Prop := old.service = .inService ∧ new.service ≠ .inService
      let report : ReportClass → ReportBody → Report := fun cls body =>
        { cls := cls, clock := s.part.clock, body := body, gap := false }
      ∃ (x : Car) (v : State), x.service = new.service ∧
        (leaves → (s.setCar l t.car x).movesAll (s.waitingOn l t.car) v) ∧ (¬ leaves → v = s) ∧
        u.host =
          (v.host.posts
            ((if new.service = old.service then []
              else
                [report
                  (if old.service = .inService ∨ new.service = .outOfContact ∨ new.service = .frozen then .urgent
                   else .routine)
                  (.carService l t.car old.service new.service)]) ++
              if r.faultMark = true ∧ r.mismatches = 0 then [report .routine (.lineState l .fault .idle)]
              else [])).choose) ∧
  (∀ (position direction motion doors carMode load freshness held accepted : Byte) (calls : List Byte),
    (checkStatus position direction motion doors carMode load freshness held accepted calls = none ↔
      statusBad position direction motion doors carMode freshness calls) ∧
    ∀ st, checkStatus position direction motion doors carMode load freshness held accepted calls = some st →
      st.position.val = position.toNat ∧
      st.direction = (if direction = 0 then none else if direction = 1 then some .up else some .down) ∧
      st.motion = (if motion = 0 then .stopped else .moving) ∧
      st.doors = (if doors = 0 then .closed else if doors = 1 then .opening else if doors = 2 then .opened else .closing) ∧
      st.carMode =
        (if carMode = 0 then .normal else if carMode = 1 then .independent else if carMode = 2 then .inspection
         else .fire) ∧
      st.load = min 150 load.toNat ∧ (st.fresh = true ↔ freshness = 1) ∧
      st.accepted = (if held = 0 then none else some accepted) ∧
      st.calls.map (fun f => f.val) = calls.map (fun f => f.toNat)) ∧
  ∀ (s : State) (l : Bank) (t : Transaction) (a position direction motion doors carMode load freshness held accepted :
      Byte) (calls : List Byte) (st : Status), let r := s.line l
    let clears : Prop := r.faultMark = true ∧ r.mismatches = 0
    r.state = .awaiting → r.pausing = false → r.inHand = some t → a.toNat = t.car.val → s.transmitterOk →
    (s.car l t.car).service = .absent →
    checkStatus position direction motion doors carMode load freshness held accepted calls = some st →
    ∃ u, exec (.status l a position direction motion doors carMode load freshness held accepted calls) s = .next u ∧
      s.changesOnly [.lines, .host] u ∧ (∀ h, h ≠ l → u.line h = s.line h) ∧
      (u.line l).state = .idle ∧ (u.line l).inHand = none ∧ (u.line l).history = (t.kind :: r.history).take 2 ∧
      (t.source = .delivery → (u.line l).sweep = r.sweep ∧
        (t.car ∉ r.queue → (u.line l).queue = r.queue) ∧
        (t.car ∈ r.queue → (u.line l).queue = (r.queue.filter fun c => c ≠ t.car) ++ [t.car])) ∧
      (t.source = .sweep → (u.line l).queue = r.queue ∧
        ∀ p, r.sweep = some p → (u.line l).sweep = if p + 1 < (s.bank l).carCount then some (p + 1) else none) ∧
      (clears →
        (u.line l).faultMark = false ∧
          u.host = (s.host.post { cls := .routine, clock := s.part.clock, body := .lineState l .fault .idle,
                                  gap := false }).choose) ∧
      (¬ clears → (u.line l).faultMark = r.faultMark ∧ u.host = s.host)

/-- R93, R86, R94 (calls tested against the enabled set before the event, log 15; a STATUS heard while bytes of another
answer are in progress is taken whole, DESIGN CHOICE, log 38): a FRESH STATUS with the doors
OPENING or OPEN, of a car IN_SERVICE, WITHDRAWN or CAR_HELD, ends the RIDING bookings for the floor, clears its car
calls and boards the WAITING ones from it in the reported direction; any other STATUS of a car that does not leave
IN_SERVICE changes no booking. A car call is entered only for a reported, enabled floor other than the position, in
the direction towards it; one that has an entry, a pending drop or room is entered, and one that has none is dropped.
-/
def Obligations.StatusServesTheFloor : Prop :=
  ∀ (s : State) (l : Bank) (t : Transaction) (a position direction motion doors carMode load freshness held accepted :
      Byte) (calls : List Byte) (st : Status) (u : State), let r := s.line l
    let old := s.car l t.car
    let new := u.car l t.car
    let mine : Booking → Bool := fun k => k.bank = l && k.car = t.car
    let done : Booking → Bool := fun k => mine k && k.state = .riding && k.dest = st.position
    let boards : Booking → Bool := fun k =>
      mine k && k.state = .waiting && k.origin = st.position && (st.direction = none || st.direction = some k.dir)
    let serves : Prop := st.fresh = true ∧ (st.doors = .opening ∨ st.doors = .opened) ∧
      (new.service = .inService ∨ new.service = .withdrawn ∨ new.service = .carHeld)
    let stays : Prop := old.service ≠ .inService ∨ new.service = .inService
    let towards : Floor → Key := fun f => { floor := f, dir := if st.position < f then .up else .down }
    r.state = .awaiting → r.pausing = false → r.inHand = some t → a.toNat = t.car.val → old.service ≠ .absent →
    s.bookingsOk →
    checkStatus position direction motion doors carMode load freshness held accepted calls = some st →
    exec (.status l a position direction motion doors carMode load freshness held accepted calls) s = .next u →
    (stays → serves →
      u.disp.bookings =
        ((s.disp.bookings.filter fun k => !done k).map fun k =>
          if boards k = true then { k with state := .riding } else k) ∧
      u.disp.tickets =
        (s.disp.tickets.map fun y =>
          if (s.disp.bookings.any fun k =>
              done k && k.leg = .firstLeg && k.badge = y.badge && y.firstLeg = some k.id) = true then
            { y with firstLeg := none }
          else y) ∧
      ∀ q m, (u.port q).memory = some m ↔ (s.port q).memory = some m ∧
        ∀ k ∈ s.disp.bookings, boards k = true → k.port = q → k.id ≠ m.booking) ∧
    (stays → ¬ serves →
      u.disp.bookings = s.disp.bookings ∧ u.disp.tickets = s.disp.tickets ∧
        ∀ q, (u.port q).memory = (s.port q).memory) ∧
    (serves →
      (∀ k ∈ u.disp.bookings, mine k = true → k.state = .riding → k.dest ≠ st.position) ∧
      ∀ e ∈ new.stops, e.key.floor = st.position → e.call = false) ∧
    (∀ e ∈ new.stops, e.call = true →
      (∃ x ∈ old.stops, x.key = e.key ∧ x.call = true) ∨
        (st.fresh = true ∧ e.key.floor ∈ st.calls ∧ old.enabled.has e.key.floor = true ∧
          e.key.floor ≠ st.position ∧ e.key = towards e.key.floor)) ∧
    (stays → s.carOk l t.car → st.fresh = true →
      (∀ f ∈ st.calls, old.enabled.has f = true → new.enabled.has f = true → f ≠ st.position →
        (towards f ∈ old.keys ∨ towards f ∈ s.pendingDrops l t.car ∨
          s.projected l t.car + st.calls.length ≤ 24) →
        ∃ e ∈ new.stops, e.key = towards f ∧ e.call = true) ∧
      ∀ f, st.calls = [f] → ¬ serves → towards f ∉ old.keys → towards f ∉ s.pendingDrops l t.car →
        24 ≤ s.projected l t.car → ∀ k, k ∈ new.keys ↔ k ∈ old.keys)

/-- R98, R99, R115, R53, R87, R91: after a STATUS that takes a car out of IN_SERVICE the car holds no WAITING booking, and
every booking left stood before with the same id, serial, badge, port, bank, ends, units, leg and created time; only car
and state may differ. Its WAITING bookings are moved in serial order, each against what the one before left
(State.moves). The oldest of them, costed on the lanes as they stood for the bank's other cars, goes to the lowest
included one, the lowest number among equals, and the memory that holds its id takes the new hall name; with every other
lane EXCLUDED it is cancelled NO_CAR, with its first-leg ticket, its memory and one report. A floor served in the same
event ends its RIDING bookings there. A STATUS heard while bytes of another answer are in progress is taken whole (DESIGN
CHOICE, log 38). -/
def Obligations.CarThatLeavesServiceMovesItsWaiting : Prop :=
  ∀ (s : State) (l : Bank) (t : Transaction) (a position direction motion doors carMode load freshness held accepted :
      Byte) (calls : List Byte) (st : Status) (u : State), let r := s.line l
    let new := (u.car l t.car).service
    let serves : Prop := st.fresh = true ∧ (st.doors = .opening ∨ st.doors = .opened) ∧
      (new = .withdrawn ∨ new = .carHeld)
    let done : Booking → Bool := fun k =>
      k.bank = l && k.car = t.car && k.state = .riding && k.dest = st.position
    r.state = .awaiting → r.pausing = false → r.inHand = some t → a.toNat = t.car.val →
    (s.car l t.car).service = .inService → s.bookingsOk →
    checkStatus position direction motion doors carMode load freshness held accepted calls = some st →
    exec (.status l a position direction motion doors carMode load freshness held accepted calls) s = .next u →
    new ≠ .inService →
    (∀ k ∈ u.disp.bookings, k.bank = l → k.car = t.car → k.state ≠ .waiting) ∧
      (∀ k ∈ u.disp.bookings, ∃ j ∈ s.disp.bookings, k = { j with car := k.car, state := k.state }) ∧
      (∀ k, (s.waitingOn l t.car).head? = some k →
        (∀ c, c ≠ t.car → s.lane l k.trip c ≠ 65535 →
          (∀ h, h ≠ t.car → s.lane l k.trip c ≤ s.lane l k.trip h ∧ (h < c → s.lane l k.trip c < s.lane l k.trip h)) →
          { k with car := c } ∈ u.disp.bookings ∧
            ∀ m, (s.port k.port).memory = some m → m.booking = k.id →
              (u.port k.port).memory = some { m with bank := l, car := c }) ∧
        ((∀ h, h ≠ t.car → s.lane l k.trip h = 65535) →
          (∀ j ∈ u.disp.bookings, j.id ≠ k.id) ∧
            (k.leg = .firstLeg → ∀ y ∈ u.disp.tickets, y.badge = k.badge → y.firstLeg ≠ some k.id) ∧
            (∀ m, (u.port k.port).memory = some m → m.booking ≠ k.id) ∧
            (s.host.enables.getLsbD 4 = true → s.host.queue.length + s.disp.bookings.length + 2 ≤ 32 →
              ∃ x ∈ u.host.queue, x.cls = .routine ∧ x.clock = s.part.clock ∧
                x.body = .bookingCancelled k.id k.badge k.port l t.car k.origin k.dest k.leg .waiting .noCar))) ∧
      ∃ (x : Car) (v : State), x.service = new ∧ (s.setCar l t.car x).movesAll (s.waitingOn l t.car) v ∧
        (∀ q, (u.port q).memory = (v.port q).memory) ∧
        (¬ serves → u.disp.bookings = v.disp.bookings ∧ u.disp.tickets = v.disp.tickets) ∧
        (serves →
          u.disp.bookings = v.disp.bookings.filter (fun k => !done k) ∧
          u.disp.tickets =
            v.disp.tickets.map fun y =>
              if (s.disp.bookings.any fun k =>
                  done k && k.leg = .firstLeg && k.badge = y.badge && y.firstLeg = some k.id) = true then
                { y with firstLeg := none }
              else y)

/-! ### The clock -/

/-- R96, R95, R97, R87, R124, R35, R38: an expired contact timer takes an IN_SERVICE, CAR_HELD or FROZEN car
OUT_OF_CONTACT, with an URGENT report, and leaves any other car; the WAITING bookings of one that was IN_SERVICE are moved
in serial order, or cancelled NO_CAR (R98, R99, State.moves), before the URGENT report (DEDUCED, log 16), and no other
booking, ticket or port changes. The abandon
timer cancels exactly the WAITING bookings that waited longer than their bank's max wait: with their first-leg tickets, the
memories that hold them and an ABANDONED report each in serial order; no other ticket or port changes, and no car but those
they were on. After the reports of either the transmitter chooses once (DESIGN CHOICE, log 40). The tickets whose expiry time is reached (a comparison below 2^31, DESIGN CHOICE, log 25)
leave, each with a ROUTINE report in ascending badge order when the queue has room, and the bookings stand; a due
second advance moves the calendar by one second, at the end of a day by a whole rollover, and changes nothing else,
and an UNSET calendar does not advance (the moment of the next advance is the model's, log 26). -/
def Obligations.ClockEventsTakeTheirEffects : Prop :=
  (∀ (s : State) (b : Bank) (c : CarNo), s.part.state = .running →
    let old := (s.car b c).service
    ((∃ a, (s.car b c).age = some a ∧ 10 * (s.bank b).contactTime < (s.part.clock - a).toNat) →
      (old = .inService ∨ old = .carHeld ∨ old = .frozen) →
      let lost := s.setCar b c { s.car b c with service := .outOfContact }
      ∃ t v, exec (.contactTimer b c) s = .next t ∧ s.changesOnly [.ports, .disp, .lines, .host] t ∧
        (old = .inService → lost.movesAll (s.waitingOn b c) v) ∧ (old ≠ .inService → v = lost) ∧
        t.disp.bookings = v.disp.bookings ∧ t.disp.tickets = v.disp.tickets ∧ t.disp.serial = s.disp.serial ∧
        t.ports = v.ports ∧
        t.host =
          (v.host.post { cls := .urgent, clock := s.part.clock, gap := false,
                         body := .carService b c old .outOfContact }).choose ∧
        (∀ h d, t.car h d = { v.car h d with gen := (t.car h d).gen, confirmed := (t.car h d).confirmed }) ∧
        (t.car b c).service = .outOfContact ∧ t.disp.modes = s.disp.modes ∧
        (∀ h d, (h, d) ≠ (b, c) → (t.car h d).service = (s.car h d).service) ∧
        (s.host.enables.getLsbD 5 = true → s.host.queue = [] → old ≠ .inService →
          ∃ r ∈ t.host.queue, r.cls = .urgent ∧ r.clock = s.part.clock ∧ r.body = .carService b c old .outOfContact)) ∧
    ((old = .absent ∨ old = .outOfContact ∨ old = .withdrawn ∨ old = .recalled ∨ (s.car b c).age = none ∨
        ∃ a, (s.car b c).age = some a ∧ (s.part.clock - a).toNat ≤ 10 * (s.bank b).contactTime) →
      exec (.contactTimer b c) s = .next s)) ∧
  (∀ s : State, s.part.state = .running → s.bookingsOk →
    let gone : Booking → Bool := fun k =>
      k.state = .waiting && 10 * (s.bank k.bank).maxWait < (s.part.clock - k.created).toNat
    ∃ t, exec .abandonTimer s = .next t ∧ s.changesOnly [.ports, .disp, .lines, .host] t ∧
      t.disp.bookings = s.disp.bookings.filter (fun k => !gone k) ∧ t.disp.tickets = s.ticketsWithout gone ∧
      t.disp.serial = s.disp.serial ∧ t.disp.modes = s.disp.modes ∧
      (∀ q, t.port q = { s.port q with memory := s.memoryWithout gone q }) ∧
      t.host = (s.host.posts (s.cancelReports .abandoned gone)).choose ∧
      (∀ b c,
        t.car b c =
          { s.car b c with
            stops := (t.car b c).stops, planned := (t.car b c).planned, gen := (t.car b c).gen,
            confirmed := (t.car b c).confirmed } ∧
        ((∀ k ∈ s.disp.bookings, gone k = true → (k.bank, k.car) ≠ (b, c)) → t.car b c = s.car b c)) ∧
      (∀ b c, (t.car b c).service = (s.car b c).service) ∧
      ∀ p m, (t.port p).memory = some m → (s.port p).memory = some m) ∧
  (∀ s : State, s.part.state = .running →
     ∃ t, exec .ticketExpiry s = .next t ∧ s.changesOnly [.disp, .host] t ∧
       t.disp = { s.disp with
         tickets := s.disp.tickets.filter fun x => 2147483648 ≤ (s.part.clock - x.expiry).toNat } ∧
       (s.host.enables.getLsbD 9 = true → s.host.tx ≠ .free →
         s.host.queue.length +
            (s.disp.tickets.filter fun x => (s.part.clock - x.expiry).toNat < 2147483648).length ≤ 32 →
         ∃ gone : List Ticket, gone.Pairwise (fun x y => x.badge.toNat ≤ y.badge.toNat) ∧
           gone.Perm (s.disp.tickets.filter fun x => (s.part.clock - x.expiry).toNat < 2147483648) ∧
           t.host.queue = s.host.queue ++ gone.map fun x =>
             { cls := .routine, clock := s.part.clock, body := .ticketExpired x.badge x.transfer x.dest x.firstLeg,
               gap := false })) ∧
  (∀ (s : State), let c := s.calendar
     (c.isSet = false → exec .calendarSecondAdvance s = .next s) ∧
     (c.isSet = true → 10 ≤ (s.part.clock - c.lastAdvance).toNat →
       (∀ x : Fin 60, c.second.val + 1 = x.val →
         exec .calendarSecondAdvance s =
           .next (s.setCalendar { c with second := x, lastAdvance := c.lastAdvance + 10 })) ∧
       (∀ m : Fin 1440, c.second = 59 → c.minute.val + 1 = m.val →
         exec .calendarSecondAdvance s =
           .next (s.setCalendar { c with second := 0, minute := m, lastAdvance := c.lastAdvance + 10 })) ∧
       (c.second = 59 → c.minute = 1439 →
         ∃ d, exec .calendarSecondAdvance s =
           .next (s.setCalendar
             { isSet := true, second := 0, minute := 0, day := BitVec.ofNat 16 (c.day.toNat + 1),
               weekday := ⟨(c.weekday.val + 1) % 7, Nat.mod_lt _ (by decide)⟩, dayType := d, pendingType := none,
               lastAdvance := c.lastAdvance + 10 }) ∧
           (∀ p, c.pendingType = some p → d = p) ∧
           (c.pendingType = none →
             (((c.weekday.val + 1) % 7 ≤ 4 → d = .workday) ∧ ((c.weekday.val + 1) % 7 = 5 → d = .saturday) ∧
               ((c.weekday.val + 1) % 7 = 6 → d = .sunday))))))

/-! ### The transmitter and the Report Queue -/

/-- R164, R166, R174, R175: the end of a sending frees the transmitter (a reply sent makes the request state IDLE, a
BUSY sent empties the owed slot, a report sent leaves the queue, the 12 ms idle ends), and a free transmitter begins
the reply, else the owed BUSY, else the oldest URGENT report, else the oldest ROUTINE one, which takes the gap mark.
-/
def Obligations.TransmitterEndsAndChoices : Prop :=
  (∀ s : State,
    (∀ r, s.host.tx = .sendingReply → s.host.request = .replying r → r.type ≠ 22 →
      exec .replySent s = .next (s.setHost ({ s.host with request := .idle, tx := .free } : HostPort).choose)) ∧
    (s.host.tx = .sendingBusy →
      exec .busyReplySent s = .next (s.setHost ({ s.host with owedBusy := none, tx := .free } : HostPort).choose)) ∧
    (∀ cls q1 r q2, s.host.tx = .sendingReport cls → s.host.queue = q1 ++ r :: q2 → r.cls = cls →
      (∀ x ∈ q1, x.cls ≠ cls) →
      exec .reportSent s = .next (s.setHost ({ s.host with queue := q1 ++ q2, tx := .free } : HostPort).choose)) ∧
    (s.host.tx = .stopIdle →
      exec .reportStopIdleEnd s = .next (s.setHost ({ s.host with tx := .free } : HostPort).choose))) ∧
  (∀ h : HostPort, h.tx = .free →
    (∀ r, h.request = .replying r → h.choose = { h with tx := .sendingReply }) ∧
    ((∀ r, h.request ≠ .replying r) →
      (h.owedBusy ≠ none → h.choose = { h with tx := .sendingBusy }) ∧
      (h.owedBusy = none →
        (∀ q1 r q2, h.queue = q1 ++ r :: q2 → r.cls = .urgent → (∀ x ∈ q1, x.cls = .routine) →
          h.choose = { h with tx := .sendingReport .urgent, queue := q1 ++ { r with gap := h.gap } :: q2,
                              gap := false }) ∧
        (∀ r q2, h.queue = r :: q2 → (∀ x ∈ h.queue, x.cls = .routine) →
          h.choose = { h with tx := .sendingReport .routine, queue := { r with gap := h.gap } :: q2, gap := false }) ∧
        (h.queue = [] → h.choose = h))))

/-- R173, R175, R176, R177: what a posted report does: nothing when its kind is disabled; with room it joins as the
newest, an URGENT one stopping a ROUTINE one being sent; on a full queue a ROUTINE one is lost and an URGENT one takes
the place of the newest unsent ROUTINE one, stopping a ROUTINE one being sent, or is lost, and each loss sets the gap mark, which a reset clears with the
queue. SET-REPORTS replaces the ten enables, or is refused; the reports already queued stay. -/
def Obligations.PostedReportJoinsOrIsLost : Prop :=
  (∀ (s : State) (tag : Byte) (kinds : BitVec 16), s.canTake →
     (1024 ≤ kinds.toNat → exec (.setReports tag kinds) s = .next (s.replied 17 tag .badValue .empty)) ∧
     (kinds.toNat < 1024 →
       ∃ t, exec (.setReports tag kinds) s = .next t ∧ (∀ k < 10, t.host.enables.getLsbD k = kinds.getLsbD k) ∧
         t = (s.setHost { s.host with enables := t.host.enables }).replied 17 tag .done .empty)) ∧
  (∀ s t : State, exec .resetPin s = .next t → t.host.gap = false ∧ t.host.queue = []) ∧
  ∀ (h : HostPort) (r : Report),
    (h.enables.getLsbD r.body.kind = false → h.post r = h) ∧
    (h.enables.getLsbD r.body.kind = true →
      (h.queue.length < 32 →
        (h.post r).queue = h.queue ++ [r] ∧
        ((r.cls = .routine ∨ h.tx ≠ .sendingReport .routine) → (h.post r).tx = h.tx ∧ (h.post r).gap = h.gap) ∧
        (r.cls = .urgent → h.tx = .sendingReport .routine →
          (h.post r).tx = .stopIdle ∧
          ∀ x rest, h.queue = x :: rest → x.cls = .routine → (h.post r).gap = (h.gap || x.gap))) ∧
      (32 ≤ h.queue.length →
        (h.post r).gap = true ∧
        (r.cls = .routine → (h.post r).queue = h.queue ∧ (h.post r).tx = h.tx) ∧
        (∀ q1 x q2, r.cls = .urgent → h.tx ≠ .sendingReport .routine → h.queue = q1 ++ x :: q2 → x.cls = .routine →
          (∀ y ∈ q2, y.cls = .urgent) → (h.post r).queue = q1 ++ q2 ++ [r] ∧ (h.post r).tx = h.tx) ∧
        (∀ q0 y q1 x q2, r.cls = .urgent → h.tx = .sendingReport .routine → h.queue = q0 ++ y :: q1 ++ x :: q2 →
          (∀ z ∈ q0, z.cls = .urgent) → y.cls = .routine → x.cls = .routine → (∀ z ∈ q2, z.cls = .urgent) →
          (h.post r).queue = q0 ++ y :: q1 ++ q2 ++ [r] ∧ (h.post r).tx = .stopIdle) ∧
        (∀ q0 y q1, r.cls = .urgent → h.tx = .sendingReport .routine → h.queue = q0 ++ y :: q1 →
          (∀ z ∈ q0, z.cls = .urgent) → y.cls = .routine → (∀ z ∈ q1, z.cls = .urgent) →
          (h.post r).queue = h.queue ∧ (h.post r).tx = h.tx) ∧
        (r.cls = .urgent → (∀ y ∈ h.queue, y.cls = .urgent) → (h.post r).queue = h.queue ∧ (h.post r).tx = h.tx)))

/-! ### Frames of bytes and encodings -/

/-- R178, R179, R3, R4, R20: the slot of a stored credential record reads back as that record, and every policy slot
that a request can write reads back at the scan as the working copy it was built from. The presence byte of a stored
valid-until is the model's (DESIGN CHOICE, log 41). -/
def Obligations.StoredSlotsReadBack : Prop :=
  (∀ (badge : Badge) (state tenant units : Byte) (groups : List Byte) (defaultFloor : Byte) (personal : List Byte)
    (validFrom : BitVec 16) (hasUntil : Byte) (validUntil : BitVec 16) (r : Credential),
    checkCredential badge state tenant units groups defaultFloor personal validFrom hasUntil validUntil = some r →
    decodeCredential (encodeCredential r) = some r ∧ (encodeCredential r).length = 28) ∧
  ((∀ g : Group, loadGroupSlot (encodeGroup g) = g) ∧
  (∀ (w : List (BitVec 32)) (p : List Interval), checkProfile w = some p → loadProfileSlot (encodeProfile p) = p) ∧
  (∀ t : Tenant, loadTenantSlot (encodeTenant t) = t) ∧
  (∀ f : FloorRec, (∀ x ∈ [f.label.c0, f.label.c1, f.label.c2], 32 ≤ x.toNat ∧ x.toNat ≤ 126) →
    loadFloorSlot (encodeFloor f) = f) ∧
  (∀ (a1 a2 a3 a4 a5 a6 a7 a8 a9 a10 : Nat) (w : CarSet) (m : BankMode) (b : BankRec),
    checkBank a1 a2 a3 a4 a5 a6 a7 a8 a9 a10 w m = some b → loadBankSlot (encodeBank b) = b) ∧
  (∀ (e h b k t : Byte) (r : ReaderRec), checkReader e h b k t = some r → loadReaderSlot (encodeReader r) = r) ∧
  ∀ n, 60 ≤ n → n ≤ 1800 → loadSiteSlot (encodeSite n) = n)

/-- R13, R18, R179: a page programmed from the image of a WRITE program is judged GOOD, bears the stamp, and holds its
sixteen slots. The canonical form of the bytes is the model's (log 11). -/
def Obligations.WrittenPageIsJudgedGood : Prop :=
  ∀ (m : List Host.Cell) (p n : Nat) (slots : List (List Byte)), Store.wf m = true → p < 2112 → 1 ≤ n →
    n ≤ 4294967294 → slots.length = 16 → (∀ x ∈ slots, x.length = 28) →
    let m' := Store.writePage m p (writeImage p n slots)
    pageGood m' p ∧ pageStamp m' p = some n ∧ ∀ k < 16, some (slotRead m' p k) = slots[k]?

/-- R178, R180 to R182, R45, R163, R165, R171: every frame the part sends, on every line, sums to 0 modulo 256, and its
bytes before the check byte: the headers of replies, BUSY replies, reports, answers and commands, the bodies of the ten
reports, of the replies to the four queries (R169 to R172), of the four answers and of the three commands, with R178's
codes, an entry byte holding the floor and the direction, and a floor set holding floor f at bit f mod 8
of byte f div 8. The model's choices (DESIGN CHOICE, log 24): the widths of fields to which the spec gives none (the two
counts of STARTED, the page of STORE_FAULT, the two counts of BANK_MODE, and in the query bodies page, slot, units, stale
count, place in the queue and the counts of QUERY-PART), the report enables of QUERY-PART as one kind set in two bytes, as
in SET-REPORTS, the three duties of a stop-list entry as three flag bytes, QUERY-BOOKINGS' total standing for its count byte, the freshness
code, the zeros of an absent last status, and no count byte before the banks and lines. The presence byte of a present
field is 1 (DESIGN CHOICE, log 41). An absent floor, day type or booking id is 255 or 65535 in a query body too, without a
presence byte (DEDUCED from R178, log 45). -/
def Obligations.SentFramesHoldTheirPayloads : Prop :=
  let b : Nat → Byte := fun n => BitVec.ofNat 8 n
  let le2 : Nat → List Byte := fun n => [b n, b (n / 256)]
  let le4 : Nat → List Byte := fun n => [b n, b (n / 256), b (n / 65536), b (n / 16777216)]
  let flag : Bool → Byte := fun x => if x then 1 else 0
  let optional : Option Floor → Byte := fun f => (f.map fun f => b f.val).getD 255
  let label : Label → List Byte := fun x => [x.c0, x.c1, x.c2]
  let way : Dir → Byte := fun d => if d = .up then 1 else 2
  let present : Nat → Option (List Byte) → List Byte := fun n x =>
    match x with
    | none => List.replicate (n + 1) 0
    | some bytes => 1 :: bytes
  let withCount : List (List Byte) → List Byte := fun items => b items.length :: items.flatten
  (∀ a : Answer, byteSum a.frame % 256 = 0) ∧ (∀ r : Report, byteSum r.frame % 256 = 0) ∧
  (∀ r : Reply, byteSum r.frame % 256 = 0) ∧ (∀ x, byteSum (busyFrame x) % 256 = 0) ∧
  (∀ (c : CarNo) (x : CommandBody), byteSum (commandFrame c x) % 256 = 0) ∧
  (∀ r : Reply, ∃ check, r.frame =
    [0xC3, b (3 + r.body.bytes.length), r.type, r.tag,
      match r.status with
      | .done => 0
      | .busy => 1
      | .badValue => 2
      | .noSuch => 3
      | .noRoom => 4
      | .bankActive => 5
      | .inputAsserted => 6
      | .storeFault => 7] ++ r.body.bytes ++ [check]) ∧
  (∀ type tag, ∃ check, busyFrame (type, tag) = [0xC3, 3, type, tag, 1, check]) ∧
  ReplyBody.empty.bytes = [] ∧
  (∀ total listed, (ReplyBody.bookings total listed).bytes =
    b total :: listed.flatMap fun k =>
      le2 k.id ++ le4 k.serial.toNat ++ le4 k.badge.toNat ++
        [b k.port.val, b k.origin.val, b k.dest.val, if k.origin < k.dest then 1 else 2, b k.units,
          if k.state = .waiting then 0 else 1,
          match k.leg with
          | .direct => 0
          | .firstLeg => 1
          | .secondLeg => 2] ++ le4 k.created.toNat) ∧
  (∀ v : BadgeView, ∃ set : List Byte, set.length = 16 ∧ floorsHeld set v.permitted ∧
    (ReplyBody.badge v).bytes =
      [v.record.state.code, b v.record.tenant.val, b v.record.units] ++ withCount (v.record.groups.map fun g => [g]) ++
        [optional v.record.defaultFloor] ++ withCount (v.record.personal.map fun f => [b f.val]) ++
        le2 v.record.validFrom.toNat ++ present 2 (v.record.validUntil.map fun d => le2 d.toNat) ++ le2 v.page ++
        [b v.slot] ++ set ++ [flag v.override] ++
        present 10 (v.ticket.map fun k =>
          [b k.transfer.val, b k.dest.val, b k.firstBank.val, k.onward.setWidth 8] ++ le2 (k.firstLeg.getD 65535) ++
            le4 k.expiry.toNat)) ∧
  (∀ v : CarView, ∃ set : List Byte, set.length = 16 ∧ floorsHeld set v.car.enabled ∧
    (ReplyBody.car v).bytes =
      [v.car.service.code] ++
        present 10 (v.car.status.map fun st =>
          [b st.position.val, (st.direction.map way).getD 0, st.motion.code, st.doors.code, st.carMode.code, b st.load] ++
            present 1 (st.accepted.map fun g => [g]) ++ [if st.fresh then 1 else 2] ++
            withCount (st.calls.map fun f => [b f.val])) ++
        present 4 (v.car.age.map fun a => le4 a.toNat) ++ [b v.car.stale] ++
        present 1 (v.car.planned.map fun d => [way d]) ++
        withCount (v.car.stops.map fun e =>
          [b e.key.floor.val, way e.key.dir, flag e.pickup, flag e.drop, flag e.call]) ++
        withCount (v.pendingDrops.map fun k => [b k.floor.val, way k.dir]) ++ set ++ [v.car.gen] ++
        present 1 (v.car.confirmed.map fun g => [g]) ++ [flag v.car.recallDue, flag v.car.full, b v.committed] ++
        present 1 (v.queuePlace.map fun n => [b n])) ∧
  (∀ v : PartView,
    (ReplyBody.part v).bytes =
      [if v.part = .running then 1 else 0] ++ le4 v.clock.toNat ++ [flag v.calendar.isSet] ++ le2 v.calendar.day.toNat ++
        [b v.calendar.weekday.val] ++ le2 v.calendar.minute.val ++
        [b v.calendar.second.val, v.calendar.dayType.code, (v.calendar.pendingType.map DayType.code).getD 255] ++
        le2 v.slotsInUse ++ le2 v.badCredential ++ [b v.badPolicy] ++ le2 v.bookings ++ le2 v.tickets ++ [b v.reports] ++
        le2 v.enables.toNat ++
        (v.banks.flatMap fun x =>
          let r : BankRec := x.2.1
          [(x.1.map BankMode.code).getD 0, r.storedMode.code, b r.carCount, b r.capacity, b r.floorTime] ++
            le2 r.stopTime ++ [b r.loadBias, b r.tripCap] ++ le2 r.maxWait ++
            [b r.contactTime, b r.fullThreshold, b r.recallFloor.val, r.withdrawn, flag x.2.2]) ++
        v.lines.flatMap fun x => [x.1.code, flag x.2.1, b x.2.2.1, flag x.2.2.2]) ∧
  ([BadgeState.active, .suspended, .lost].map BadgeState.code = [1, 2, 3] ∧
    [DayType.workday, .saturday, .sunday, .holiday].map DayType.code = [0, 1, 2, 3] ∧
    [BankMode.out, .normal, .upPeak, .lockdown, .fireRecall].map BankMode.code = [0, 1, 2, 3, 4] ∧
    [Service.absent, .inService, .carHeld, .outOfContact, .frozen, .withdrawn, .recalled].map Service.code =
      [0, 1, 2, 3, 4, 5, 6] ∧
    [Leg.direct, .firstLeg, .secondLeg].map Leg.code = [0, 1, 2] ∧ [Motion.stopped, .moving].map Motion.code = [0, 1] ∧
    [Doors.closed, .opening, .opened, .closing].map Doors.code = [0, 1, 2, 3] ∧
    [CarMode.normal, .independent, .inspection, .fire].map CarMode.code = [0, 1, 2, 3] ∧
    [DenyReason.unknown, .storeFault, .lost, .suspended, .expired, .tenantLocked, .noDestination, .sameFloor,
        .floorClosed, .notPermitted, .noRoute, .emergency, .lockdown, .noService, .full, .noCar, .badRequest].map
        DenyReason.code = [1, 2, 3, 4, 5, 6, 7, 8, 9, 10, 11, 12, 13, 14, 15, 16, 17] ∧
    [CancelReason.abandoned, .floorClosed, .noCar, .bankOut, .recalled, .superseded].map CancelReason.code =
      [1, 2, 3, 4, 5, 6] ∧
    [LineState.idle, .sending, .awaiting, .backoff, .released, .fault].map LineState.code = [0, 1, 2, 3, 4, 5]) ∧
  (∀ r : Report, ∃ check, r.frame =
    [0xC5, b (7 + r.body.bytes.length), b r.body.kind, if r.cls = .urgent then 1 else 0, flag r.gap] ++
      le4 r.clock.toNat ++ r.body.bytes ++ [check]) ∧
  (∀ cause isSet m n, (ReportBody.started cause isSet m n).kind = 0 ∧
    (ReportBody.started cause isSet m n).bytes = [if cause = .pin then 0 else 1, flag isSet] ++ le2 m ++ [b n]) ∧
  (∀ page verify, (ReportBody.storeFault page verify).kind = 1 ∧
    (ReportBody.storeFault page verify).bytes = le2 page ++ [flag verify]) ∧
  (∀ port badge id bank car o d leg transfer cancelled,
    (ReportBody.grant port badge id bank car o d leg transfer cancelled).kind = 2 ∧
    (ReportBody.grant port badge id bank car o d leg transfer cancelled).bytes =
      [b port.val] ++ le4 badge.toNat ++ le2 id ++
        [b bank.val, b car.val, b o.val, b d.val, leg.code, optional transfer] ++ le2 (cancelled.getD 65535)) ∧
  (∀ port badge reason floor d,
    (ReportBody.deny port badge reason floor d).kind = 3 ∧
    (ReportBody.deny port badge reason floor d).bytes =
      [b port.val] ++ le4 badge.toNat ++ [reason.code] ++
        if reason = .badRequest then [] else [optional floor, optional d]) ∧
  (∀ id badge port bank car o d leg st reason,
    (ReportBody.bookingCancelled id badge port bank car o d leg st reason).kind = 4 ∧
    (ReportBody.bookingCancelled id badge port bank car o d leg st reason).bytes =
      le2 id ++ le4 badge.toNat ++
        [b port.val, b bank.val, b car.val, b o.val, b d.val, leg.code, if st = .waiting then 0 else 1, reason.code]) ∧
  (∀ bank car old new, (ReportBody.carService bank car old new).kind = 5 ∧
    (ReportBody.carService bank car old new).bytes = [b bank.val, b car.val, old.code, new.code]) ∧
  (∀ line old new, (ReportBody.lineState line old new).kind = 6 ∧
    (ReportBody.lineState line old new).bytes = [b line.val, old.code, new.code]) ∧
  (∀ bank old new byInput m n, (ReportBody.bankMode bank old new byInput m n).kind = 7 ∧
    (ReportBody.bankMode bank old new byInput m n).bytes =
      [b bank.val, old.code, new.code, flag byInput] ++ le2 m ++ le2 n) ∧
  (∀ bank asserted, (ReportBody.recallInput bank asserted).kind = 8 ∧
    (ReportBody.recallInput bank asserted).bytes = [b bank.val, flag asserted]) ∧
  (∀ badge transfer d id, (ReportBody.ticketExpired badge transfer d id).kind = 9 ∧
    (ReportBody.ticketExpired badge transfer d id).bytes =
      le4 badge.toNat ++ [b transfer.val, b d.val] ++ le2 (id.getD 65535)) ∧
  (∀ bank car dest isRepeat transfer, ∃ check, (Answer.grant bank car dest isRepeat transfer).frame =
    [0x5A, 12, 3, b bank.val, b car.val, b (65 + bank.val), b (49 + car.val)] ++ label dest ++
      [b ((if isRepeat then 1 else 0) + if transfer = none then 0 else 2)] ++
      label (transfer.getD { c0 := 32, c1 := 32, c2 := 32 }) ++ [check]) ∧
  (∀ reason, ∃ check, (Answer.deny reason).frame = [0x5A, 2, 4, reason.code, check]) ∧
  (∃ check, Answer.retry.frame = [0x5A, 1, 5, check]) ∧
  (∀ part, ∃ check, (Answer.pong part).frame = [0x5A, 2, 6, if part = .running then 1 else 0, check]) ∧
  (∀ c : CarNo, ∃ check, commandFrame c .poll = [0x96, b c.val, 1, 0, check]) ∧
  (∀ (c : CarNo) (f : Floor), ∃ check, commandFrame c (.recallTo f) = [0x96, b c.val, 3, 1, b f.val, check]) ∧
  ∀ (c : CarNo) (gen : Byte) (keys : List Key) (enabled : FloorSet), ∃ (set : List Byte) (check : Byte),
    set.length = 16 ∧
    (∀ f : Floor, ∃ x, set[f.val / 8]? = some x ∧ x.getLsbD (f.val % 8) = enabled.has f) ∧
    commandFrame c (.stopset gen keys enabled) =
      [0x96, b c.val, 2, b (18 + keys.length), gen, b keys.length] ++
        keys.map (fun k => b (k.floor.val + if k.dir = .down then 128 else 0)) ++ set ++ [check]

/-! ### Invariants -/

/-- R166, R174 to R176, and the model's canonical form of memory (log 11): every step keeps the store's bytes
canonical, the Report Queue within 32 reports, and the transmitter's frame there to be sent, with nothing waiting
while it is free and no ROUTINE report sent while an URGENT one is queued. -/
def Obligations.StepKeepsTheStoreAndTheHostPort : Prop :=
  (∀ s t : State, s.storeOk → step s = .next t → t.storeOk) ∧
  (∀ s t : State, s.queueOk → step s = .next t → t.queueOk) ∧
  ∀ s t : State, s.transmitterOk → step s = .next t → t.transmitterOk

/-- R83, R139, R140: a car is dirty when it is configured and its confirmed generation is not the current one or a recall is
pending; every step keeps each dirty queue holding exactly the dirty cars of its bank, none twice. In every command but the
resets and the end of the scan the cars that stay dirty keep their order, and those that become dirty stand after them, in
car order; at the end of a delivery, but by the line's release, its car, if still in the queue, then moves to the tail. -/
def Obligations.StepKeepsTheDirtyQueuesExact : Prop :=
  (∀ c : Car, c.dirty = true ↔ c.service ≠ .absent ∧ (c.confirmed ≠ some c.gen ∨ c.recallDue = true)) ∧
  (∀ s t : State, s.dirtyOk → step s = .next t → t.dirtyOk) ∧
  ∀ (i : Instr) (s t : State) (l : Bank), s.dirtyOk → i ≠ .resetPin → i ≠ .startUpScanEnd →
    (i = .replySent → t.part.state = .running) → exec i s = .next t →
    let ends : Transaction → Prop := fun x =>
      (s.line l).inHand = some x ∧ x.source = .delivery ∧ (t.line l).inHand = none ∧ i ≠ .lrqAsserted l
    ((∀ x, ¬ ends x) → (t.line l).queue = s.dirtyOrder t l) ∧
      ∀ x, ends x → (t.line l).queue = deliveredOrder (s.dirtyOrder t l) x.car

/-- R46 to R61, R168: every step keeps every port holding what its state allows, the taken mark on exactly the
presentation in the engine's hand, and every table empty while STARTING. -/
def Obligations.StepKeepsPortsAndEngineInStep : Prop :=
  ∀ s t : State, s.startingOk → s.portsOk → step s = .next t → t.startingOk ∧ t.portsOk

/-- R79, R118, R120: every step keeps the booking ids distinct and below 512, at most 256 tickets, one for a badge,
and a bank in OUT or FIRE_RECALL free of bookings and named by no ticket. -/
def Obligations.StepKeepsTheTablesAndQuietBanks : Prop :=
  (∀ s t : State, s.bookingsOk → s.ticketsOk → step s = .next t → t.bookingsOk ∧ t.ticketsOk) ∧
  ∀ s t : State, s.quietOk → step s = .next t → t.quietOk

/-- R81, R82, R84, R85, R94, R98: every step keeps every car in step with the Booking Table: its stop list's duties
follow the bookings, keys are distinct and in sweep order, the enabled set is R84's, no more units than the capacity
are committed, at most 24 stops are projected, and a car that is not IN_SERVICE holds no WAITING booking. R30, R16: it
keeps the guards of the bank programs in flight. -/
def Obligations.StepKeepsCarsInStep : Prop :=
  ∀ s t : State, s.startingOk → s.bookingsOk → s.quietOk → s.programOk → s.carsOk → step s = .next t →
    t.programOk ∧ t.carsOk

/-- R83, R90: in every event but the resets and the end of the scan, a car configured before and after it takes the
next generation, unconfirmed, exactly when its stop set (its entry keys with its enabled set) has changed; when it has
not, the generation stays, and the confirmed generation stays or becomes that one. -/
def Obligations.GenerationFollowsTheStopSet : Prop :=
  ∀ (i : Instr) (s t : State) (b : Bank) (c : CarNo), i ≠ .resetPin → i ≠ .replySent → i ≠ .startUpScanEnd →
    exec i s = .next t → (s.car b c).service ≠ .absent → (t.car b c).service ≠ .absent →
    let same : Prop :=
      (∀ k, k ∈ (t.car b c).keys ↔ k ∈ (s.car b c).keys) ∧ (t.car b c).enabled = (s.car b c).enabled
    (same →
      (t.car b c).gen = (s.car b c).gen ∧
        ((t.car b c).confirmed = (s.car b c).confirmed ∨ (t.car b c).confirmed = some (s.car b c).gen)) ∧
    (¬ same → (t.car b c).gen = (s.car b c).gen + 1 ∧ (t.car b c).confirmed = none)

/-- R19, R7 to R9: every step keeps no two slots in use with one badge number, the program in flight included. -/
def Obligations.StepKeepsBadgesOnce : Prop :=
  ∀ s t : State, s.storeOk → s.badgesOk → step s = .next t → t.badgesOk

/-- Every invariant above holds at reset. -/
def Obligations.ResetMeetsTheInvariants : Prop :=
  State.reset.storeOk ∧ State.reset.queueOk ∧ State.reset.transmitterOk ∧ State.reset.dirtyOk ∧
    State.reset.startingOk ∧ State.reset.portsOk ∧ State.reset.bookingsOk ∧ State.reset.ticketsOk ∧
    State.reset.quietOk ∧ State.reset.badgesOk ∧ State.reset.programOk ∧ State.reset.carsOk
end

