-- ==== Sys2Proof/Laws/State.lean ====
section
/-! SUPPORT. One lemma for each field and each update of the state, true by `rfl`, and the reads of a place after a
write of a place. -/

namespace Sys2Proof.Machine

-- One proof at a time: many waiting side by side outrun the checker's memory.
set_option Elab.async false

/-! ### The setters of the blocks -/

@[simp] theorem State.setPending_pending (s : State) (x : List Instr) : (s.setPending x).pending = x := rfl
@[simp] theorem State.setPending_part (s : State) (x : List Instr) : (s.setPending x).part = s.part := rfl
@[simp] theorem State.setPending_pins (s : State) (x : List Instr) : (s.setPending x).pins = s.pins := rfl
@[simp] theorem State.setPending_store (s : State) (x : List Instr) : (s.setPending x).store = s.store := rfl
@[simp] theorem State.setPending_policy (s : State) (x : List Instr) : (s.setPending x).policy = s.policy := rfl
@[simp] theorem State.setPending_calendar (s : State) (x : List Instr) : (s.setPending x).calendar = s.calendar := rfl
@[simp] theorem State.setPending_ports (s : State) (x : List Instr) : (s.setPending x).ports = s.ports := rfl
@[simp] theorem State.setPending_engine (s : State) (x : List Instr) : (s.setPending x).engine = s.engine := rfl
@[simp] theorem State.setPending_disp (s : State) (x : List Instr) : (s.setPending x).disp = s.disp := rfl
@[simp] theorem State.setPending_lines (s : State) (x : List Instr) : (s.setPending x).lines = s.lines := rfl
@[simp] theorem State.setPending_host (s : State) (x : List Instr) : (s.setPending x).host = s.host := rfl
@[simp] theorem State.setPending_freeCount (s : State) (x : List Instr) : (s.setPending x).freeCount = s.freeCount := rfl

@[simp] theorem State.setPart_pending (s : State) (x : Part) : (s.setPart x).pending = s.pending := rfl
@[simp] theorem State.setPart_part (s : State) (x : Part) : (s.setPart x).part = x := rfl
@[simp] theorem State.setPart_pins (s : State) (x : Part) : (s.setPart x).pins = s.pins := rfl
@[simp] theorem State.setPart_store (s : State) (x : Part) : (s.setPart x).store = s.store := rfl
@[simp] theorem State.setPart_policy (s : State) (x : Part) : (s.setPart x).policy = s.policy := rfl
@[simp] theorem State.setPart_calendar (s : State) (x : Part) : (s.setPart x).calendar = s.calendar := rfl
@[simp] theorem State.setPart_ports (s : State) (x : Part) : (s.setPart x).ports = s.ports := rfl
@[simp] theorem State.setPart_engine (s : State) (x : Part) : (s.setPart x).engine = s.engine := rfl
@[simp] theorem State.setPart_disp (s : State) (x : Part) : (s.setPart x).disp = s.disp := rfl
@[simp] theorem State.setPart_lines (s : State) (x : Part) : (s.setPart x).lines = s.lines := rfl
@[simp] theorem State.setPart_host (s : State) (x : Part) : (s.setPart x).host = s.host := rfl
@[simp] theorem State.setPart_freeCount (s : State) (x : Part) : (s.setPart x).freeCount = s.freeCount := rfl

@[simp] theorem State.setPins_pending (s : State) (x : Pins) : (s.setPins x).pending = s.pending := rfl
@[simp] theorem State.setPins_part (s : State) (x : Pins) : (s.setPins x).part = s.part := rfl
@[simp] theorem State.setPins_pins (s : State) (x : Pins) : (s.setPins x).pins = x := rfl
@[simp] theorem State.setPins_store (s : State) (x : Pins) : (s.setPins x).store = s.store := rfl
@[simp] theorem State.setPins_policy (s : State) (x : Pins) : (s.setPins x).policy = s.policy := rfl
@[simp] theorem State.setPins_calendar (s : State) (x : Pins) : (s.setPins x).calendar = s.calendar := rfl
@[simp] theorem State.setPins_ports (s : State) (x : Pins) : (s.setPins x).ports = s.ports := rfl
@[simp] theorem State.setPins_engine (s : State) (x : Pins) : (s.setPins x).engine = s.engine := rfl
@[simp] theorem State.setPins_disp (s : State) (x : Pins) : (s.setPins x).disp = s.disp := rfl
@[simp] theorem State.setPins_lines (s : State) (x : Pins) : (s.setPins x).lines = s.lines := rfl
@[simp] theorem State.setPins_host (s : State) (x : Pins) : (s.setPins x).host = s.host := rfl
@[simp] theorem State.setPins_freeCount (s : State) (x : Pins) : (s.setPins x).freeCount = s.freeCount := rfl

@[simp] theorem State.setStore_pending (s : State) (x : StoreBlock) : (s.setStore x).pending = s.pending := rfl
@[simp] theorem State.setStore_part (s : State) (x : StoreBlock) : (s.setStore x).part = s.part := rfl
@[simp] theorem State.setStore_pins (s : State) (x : StoreBlock) : (s.setStore x).pins = s.pins := rfl
@[simp] theorem State.setStore_store (s : State) (x : StoreBlock) : (s.setStore x).store = x := rfl
@[simp] theorem State.setStore_policy (s : State) (x : StoreBlock) : (s.setStore x).policy = s.policy := rfl
@[simp] theorem State.setStore_calendar (s : State) (x : StoreBlock) : (s.setStore x).calendar = s.calendar := rfl
@[simp] theorem State.setStore_ports (s : State) (x : StoreBlock) : (s.setStore x).ports = s.ports := rfl
@[simp] theorem State.setStore_engine (s : State) (x : StoreBlock) : (s.setStore x).engine = s.engine := rfl
@[simp] theorem State.setStore_disp (s : State) (x : StoreBlock) : (s.setStore x).disp = s.disp := rfl
@[simp] theorem State.setStore_lines (s : State) (x : StoreBlock) : (s.setStore x).lines = s.lines := rfl
@[simp] theorem State.setStore_host (s : State) (x : StoreBlock) : (s.setStore x).host = s.host := rfl
@[simp] theorem State.setStore_freeCount (s : State) (x : StoreBlock) : (s.setStore x).freeCount = s.freeCount := rfl

@[simp] theorem State.setPolicy_pending (s : State) (x : Policy) : (s.setPolicy x).pending = s.pending := rfl
@[simp] theorem State.setPolicy_part (s : State) (x : Policy) : (s.setPolicy x).part = s.part := rfl
@[simp] theorem State.setPolicy_pins (s : State) (x : Policy) : (s.setPolicy x).pins = s.pins := rfl
@[simp] theorem State.setPolicy_store (s : State) (x : Policy) : (s.setPolicy x).store = s.store := rfl
@[simp] theorem State.setPolicy_policy (s : State) (x : Policy) : (s.setPolicy x).policy = x := rfl
@[simp] theorem State.setPolicy_calendar (s : State) (x : Policy) : (s.setPolicy x).calendar = s.calendar := rfl
@[simp] theorem State.setPolicy_ports (s : State) (x : Policy) : (s.setPolicy x).ports = s.ports := rfl
@[simp] theorem State.setPolicy_engine (s : State) (x : Policy) : (s.setPolicy x).engine = s.engine := rfl
@[simp] theorem State.setPolicy_disp (s : State) (x : Policy) : (s.setPolicy x).disp = s.disp := rfl
@[simp] theorem State.setPolicy_lines (s : State) (x : Policy) : (s.setPolicy x).lines = s.lines := rfl
@[simp] theorem State.setPolicy_host (s : State) (x : Policy) : (s.setPolicy x).host = s.host := rfl
@[simp] theorem State.setPolicy_freeCount (s : State) (x : Policy) : (s.setPolicy x).freeCount = s.freeCount := rfl

@[simp] theorem State.setCalendar_pending (s : State) (x : Calendar) : (s.setCalendar x).pending = s.pending := rfl
@[simp] theorem State.setCalendar_part (s : State) (x : Calendar) : (s.setCalendar x).part = s.part := rfl
@[simp] theorem State.setCalendar_pins (s : State) (x : Calendar) : (s.setCalendar x).pins = s.pins := rfl
@[simp] theorem State.setCalendar_store (s : State) (x : Calendar) : (s.setCalendar x).store = s.store := rfl
@[simp] theorem State.setCalendar_policy (s : State) (x : Calendar) : (s.setCalendar x).policy = s.policy := rfl
@[simp] theorem State.setCalendar_calendar (s : State) (x : Calendar) : (s.setCalendar x).calendar = x := rfl
@[simp] theorem State.setCalendar_ports (s : State) (x : Calendar) : (s.setCalendar x).ports = s.ports := rfl
@[simp] theorem State.setCalendar_engine (s : State) (x : Calendar) : (s.setCalendar x).engine = s.engine := rfl
@[simp] theorem State.setCalendar_disp (s : State) (x : Calendar) : (s.setCalendar x).disp = s.disp := rfl
@[simp] theorem State.setCalendar_lines (s : State) (x : Calendar) : (s.setCalendar x).lines = s.lines := rfl
@[simp] theorem State.setCalendar_host (s : State) (x : Calendar) : (s.setCalendar x).host = s.host := rfl
@[simp] theorem State.setCalendar_freeCount (s : State) (x : Calendar) : (s.setCalendar x).freeCount = s.freeCount := rfl

@[simp] theorem State.setPorts_pending (s : State) (x : Vector Port 16) : (s.setPorts x).pending = s.pending := rfl
@[simp] theorem State.setPorts_part (s : State) (x : Vector Port 16) : (s.setPorts x).part = s.part := rfl
@[simp] theorem State.setPorts_pins (s : State) (x : Vector Port 16) : (s.setPorts x).pins = s.pins := rfl
@[simp] theorem State.setPorts_store (s : State) (x : Vector Port 16) : (s.setPorts x).store = s.store := rfl
@[simp] theorem State.setPorts_policy (s : State) (x : Vector Port 16) : (s.setPorts x).policy = s.policy := rfl
@[simp] theorem State.setPorts_calendar (s : State) (x : Vector Port 16) : (s.setPorts x).calendar = s.calendar := rfl
@[simp] theorem State.setPorts_ports (s : State) (x : Vector Port 16) : (s.setPorts x).ports = x := rfl
@[simp] theorem State.setPorts_engine (s : State) (x : Vector Port 16) : (s.setPorts x).engine = s.engine := rfl
@[simp] theorem State.setPorts_disp (s : State) (x : Vector Port 16) : (s.setPorts x).disp = s.disp := rfl
@[simp] theorem State.setPorts_lines (s : State) (x : Vector Port 16) : (s.setPorts x).lines = s.lines := rfl
@[simp] theorem State.setPorts_host (s : State) (x : Vector Port 16) : (s.setPorts x).host = s.host := rfl
@[simp] theorem State.setPorts_freeCount (s : State) (x : Vector Port 16) : (s.setPorts x).freeCount = s.freeCount := rfl

@[simp] theorem State.setEngine_pending (s : State) (x : Engine) : (s.setEngine x).pending = s.pending := rfl
@[simp] theorem State.setEngine_part (s : State) (x : Engine) : (s.setEngine x).part = s.part := rfl
@[simp] theorem State.setEngine_pins (s : State) (x : Engine) : (s.setEngine x).pins = s.pins := rfl
@[simp] theorem State.setEngine_store (s : State) (x : Engine) : (s.setEngine x).store = s.store := rfl
@[simp] theorem State.setEngine_policy (s : State) (x : Engine) : (s.setEngine x).policy = s.policy := rfl
@[simp] theorem State.setEngine_calendar (s : State) (x : Engine) : (s.setEngine x).calendar = s.calendar := rfl
@[simp] theorem State.setEngine_ports (s : State) (x : Engine) : (s.setEngine x).ports = s.ports := rfl
@[simp] theorem State.setEngine_engine (s : State) (x : Engine) : (s.setEngine x).engine = x := rfl
@[simp] theorem State.setEngine_disp (s : State) (x : Engine) : (s.setEngine x).disp = s.disp := rfl
@[simp] theorem State.setEngine_lines (s : State) (x : Engine) : (s.setEngine x).lines = s.lines := rfl
@[simp] theorem State.setEngine_host (s : State) (x : Engine) : (s.setEngine x).host = s.host := rfl
@[simp] theorem State.setEngine_freeCount (s : State) (x : Engine) : (s.setEngine x).freeCount = s.freeCount := rfl

@[simp] theorem State.setDisp_pending (s : State) (x : DispatchBlock) : (s.setDisp x).pending = s.pending := rfl
@[simp] theorem State.setDisp_part (s : State) (x : DispatchBlock) : (s.setDisp x).part = s.part := rfl
@[simp] theorem State.setDisp_pins (s : State) (x : DispatchBlock) : (s.setDisp x).pins = s.pins := rfl
@[simp] theorem State.setDisp_store (s : State) (x : DispatchBlock) : (s.setDisp x).store = s.store := rfl
@[simp] theorem State.setDisp_policy (s : State) (x : DispatchBlock) : (s.setDisp x).policy = s.policy := rfl
@[simp] theorem State.setDisp_calendar (s : State) (x : DispatchBlock) : (s.setDisp x).calendar = s.calendar := rfl
@[simp] theorem State.setDisp_ports (s : State) (x : DispatchBlock) : (s.setDisp x).ports = s.ports := rfl
@[simp] theorem State.setDisp_engine (s : State) (x : DispatchBlock) : (s.setDisp x).engine = s.engine := rfl
@[simp] theorem State.setDisp_disp (s : State) (x : DispatchBlock) : (s.setDisp x).disp = x := rfl
@[simp] theorem State.setDisp_lines (s : State) (x : DispatchBlock) : (s.setDisp x).lines = s.lines := rfl
@[simp] theorem State.setDisp_host (s : State) (x : DispatchBlock) : (s.setDisp x).host = s.host := rfl
@[simp] theorem State.setDisp_freeCount (s : State) (x : DispatchBlock) : (s.setDisp x).freeCount = s.freeCount := rfl

@[simp] theorem State.setLines_pending (s : State) (x : Vector Line 4) : (s.setLines x).pending = s.pending := rfl
@[simp] theorem State.setLines_part (s : State) (x : Vector Line 4) : (s.setLines x).part = s.part := rfl
@[simp] theorem State.setLines_pins (s : State) (x : Vector Line 4) : (s.setLines x).pins = s.pins := rfl
@[simp] theorem State.setLines_store (s : State) (x : Vector Line 4) : (s.setLines x).store = s.store := rfl
@[simp] theorem State.setLines_policy (s : State) (x : Vector Line 4) : (s.setLines x).policy = s.policy := rfl
@[simp] theorem State.setLines_calendar (s : State) (x : Vector Line 4) : (s.setLines x).calendar = s.calendar := rfl
@[simp] theorem State.setLines_ports (s : State) (x : Vector Line 4) : (s.setLines x).ports = s.ports := rfl
@[simp] theorem State.setLines_engine (s : State) (x : Vector Line 4) : (s.setLines x).engine = s.engine := rfl
@[simp] theorem State.setLines_disp (s : State) (x : Vector Line 4) : (s.setLines x).disp = s.disp := rfl
@[simp] theorem State.setLines_lines (s : State) (x : Vector Line 4) : (s.setLines x).lines = x := rfl
@[simp] theorem State.setLines_host (s : State) (x : Vector Line 4) : (s.setLines x).host = s.host := rfl
@[simp] theorem State.setLines_freeCount (s : State) (x : Vector Line 4) : (s.setLines x).freeCount = s.freeCount := rfl

@[simp] theorem State.setHost_pending (s : State) (x : HostPort) : (s.setHost x).pending = s.pending := rfl
@[simp] theorem State.setHost_part (s : State) (x : HostPort) : (s.setHost x).part = s.part := rfl
@[simp] theorem State.setHost_pins (s : State) (x : HostPort) : (s.setHost x).pins = s.pins := rfl
@[simp] theorem State.setHost_store (s : State) (x : HostPort) : (s.setHost x).store = s.store := rfl
@[simp] theorem State.setHost_policy (s : State) (x : HostPort) : (s.setHost x).policy = s.policy := rfl
@[simp] theorem State.setHost_calendar (s : State) (x : HostPort) : (s.setHost x).calendar = s.calendar := rfl
@[simp] theorem State.setHost_ports (s : State) (x : HostPort) : (s.setHost x).ports = s.ports := rfl
@[simp] theorem State.setHost_engine (s : State) (x : HostPort) : (s.setHost x).engine = s.engine := rfl
@[simp] theorem State.setHost_disp (s : State) (x : HostPort) : (s.setHost x).disp = s.disp := rfl
@[simp] theorem State.setHost_lines (s : State) (x : HostPort) : (s.setHost x).lines = s.lines := rfl
@[simp] theorem State.setHost_host (s : State) (x : HostPort) : (s.setHost x).host = x := rfl
@[simp] theorem State.setHost_freeCount (s : State) (x : HostPort) : (s.setHost x).freeCount = s.freeCount := rfl

@[simp] theorem State.setFree_pending (s : State) (x : Nat) : (s.setFree x).pending = s.pending := rfl
@[simp] theorem State.setFree_part (s : State) (x : Nat) : (s.setFree x).part = s.part := rfl
@[simp] theorem State.setFree_pins (s : State) (x : Nat) : (s.setFree x).pins = s.pins := rfl
@[simp] theorem State.setFree_store (s : State) (x : Nat) : (s.setFree x).store = s.store := rfl
@[simp] theorem State.setFree_policy (s : State) (x : Nat) : (s.setFree x).policy = s.policy := rfl
@[simp] theorem State.setFree_calendar (s : State) (x : Nat) : (s.setFree x).calendar = s.calendar := rfl
@[simp] theorem State.setFree_ports (s : State) (x : Nat) : (s.setFree x).ports = s.ports := rfl
@[simp] theorem State.setFree_engine (s : State) (x : Nat) : (s.setFree x).engine = s.engine := rfl
@[simp] theorem State.setFree_disp (s : State) (x : Nat) : (s.setFree x).disp = s.disp := rfl
@[simp] theorem State.setFree_lines (s : State) (x : Nat) : (s.setFree x).lines = s.lines := rfl
@[simp] theorem State.setFree_host (s : State) (x : Nat) : (s.setFree x).host = s.host := rfl
@[simp] theorem State.setFree_freeCount (s : State) (x : Nat) : (s.setFree x).freeCount = x := rfl

/-! ### The setters of places within a block -/

@[simp] theorem State.setPort_pending (s : State) (p : PortNo) (x : Port) : (s.setPort p x).pending = s.pending := rfl
@[simp] theorem State.setPort_part (s : State) (p : PortNo) (x : Port) : (s.setPort p x).part = s.part := rfl
@[simp] theorem State.setPort_pins (s : State) (p : PortNo) (x : Port) : (s.setPort p x).pins = s.pins := rfl
@[simp] theorem State.setPort_store (s : State) (p : PortNo) (x : Port) : (s.setPort p x).store = s.store := rfl
@[simp] theorem State.setPort_policy (s : State) (p : PortNo) (x : Port) : (s.setPort p x).policy = s.policy := rfl
@[simp] theorem State.setPort_calendar (s : State) (p : PortNo) (x : Port) : (s.setPort p x).calendar = s.calendar := rfl
@[simp] theorem State.setPort_engine (s : State) (p : PortNo) (x : Port) : (s.setPort p x).engine = s.engine := rfl
@[simp] theorem State.setPort_disp (s : State) (p : PortNo) (x : Port) : (s.setPort p x).disp = s.disp := rfl
@[simp] theorem State.setPort_lines (s : State) (p : PortNo) (x : Port) : (s.setPort p x).lines = s.lines := rfl
@[simp] theorem State.setPort_host (s : State) (p : PortNo) (x : Port) : (s.setPort p x).host = s.host := rfl
@[simp] theorem State.setPort_freeCount (s : State) (p : PortNo) (x : Port) : (s.setPort p x).freeCount = s.freeCount := rfl

@[simp] theorem State.setLine_pending (s : State) (l : Bank) (x : Line) : (s.setLine l x).pending = s.pending := rfl
@[simp] theorem State.setLine_part (s : State) (l : Bank) (x : Line) : (s.setLine l x).part = s.part := rfl
@[simp] theorem State.setLine_pins (s : State) (l : Bank) (x : Line) : (s.setLine l x).pins = s.pins := rfl
@[simp] theorem State.setLine_store (s : State) (l : Bank) (x : Line) : (s.setLine l x).store = s.store := rfl
@[simp] theorem State.setLine_policy (s : State) (l : Bank) (x : Line) : (s.setLine l x).policy = s.policy := rfl
@[simp] theorem State.setLine_calendar (s : State) (l : Bank) (x : Line) : (s.setLine l x).calendar = s.calendar := rfl
@[simp] theorem State.setLine_ports (s : State) (l : Bank) (x : Line) : (s.setLine l x).ports = s.ports := rfl
@[simp] theorem State.setLine_engine (s : State) (l : Bank) (x : Line) : (s.setLine l x).engine = s.engine := rfl
@[simp] theorem State.setLine_disp (s : State) (l : Bank) (x : Line) : (s.setLine l x).disp = s.disp := rfl
@[simp] theorem State.setLine_host (s : State) (l : Bank) (x : Line) : (s.setLine l x).host = s.host := rfl
@[simp] theorem State.setLine_freeCount (s : State) (l : Bank) (x : Line) : (s.setLine l x).freeCount = s.freeCount := rfl

@[simp] theorem State.setCar_pending (s : State) (b : Bank) (c : CarNo) (x : Car) : (s.setCar b c x).pending = s.pending := rfl
@[simp] theorem State.setCar_part (s : State) (b : Bank) (c : CarNo) (x : Car) : (s.setCar b c x).part = s.part := rfl
@[simp] theorem State.setCar_pins (s : State) (b : Bank) (c : CarNo) (x : Car) : (s.setCar b c x).pins = s.pins := rfl
@[simp] theorem State.setCar_store (s : State) (b : Bank) (c : CarNo) (x : Car) : (s.setCar b c x).store = s.store := rfl
@[simp] theorem State.setCar_policy (s : State) (b : Bank) (c : CarNo) (x : Car) : (s.setCar b c x).policy = s.policy := rfl
@[simp] theorem State.setCar_calendar (s : State) (b : Bank) (c : CarNo) (x : Car) : (s.setCar b c x).calendar = s.calendar := rfl
@[simp] theorem State.setCar_ports (s : State) (b : Bank) (c : CarNo) (x : Car) : (s.setCar b c x).ports = s.ports := rfl
@[simp] theorem State.setCar_engine (s : State) (b : Bank) (c : CarNo) (x : Car) : (s.setCar b c x).engine = s.engine := rfl
@[simp] theorem State.setCar_lines (s : State) (b : Bank) (c : CarNo) (x : Car) : (s.setCar b c x).lines = s.lines := rfl
@[simp] theorem State.setCar_host (s : State) (b : Bank) (c : CarNo) (x : Car) : (s.setCar b c x).host = s.host := rfl
@[simp] theorem State.setCar_freeCount (s : State) (b : Bank) (c : CarNo) (x : Car) : (s.setCar b c x).freeCount = s.freeCount := rfl

@[simp] theorem State.setBookings_pending (s : State) (x : List Booking) : (s.setBookings x).pending = s.pending := rfl
@[simp] theorem State.setBookings_part (s : State) (x : List Booking) : (s.setBookings x).part = s.part := rfl
@[simp] theorem State.setBookings_pins (s : State) (x : List Booking) : (s.setBookings x).pins = s.pins := rfl
@[simp] theorem State.setBookings_store (s : State) (x : List Booking) : (s.setBookings x).store = s.store := rfl
@[simp] theorem State.setBookings_policy (s : State) (x : List Booking) : (s.setBookings x).policy = s.policy := rfl
@[simp] theorem State.setBookings_calendar (s : State) (x : List Booking) : (s.setBookings x).calendar = s.calendar := rfl
@[simp] theorem State.setBookings_ports (s : State) (x : List Booking) : (s.setBookings x).ports = s.ports := rfl
@[simp] theorem State.setBookings_engine (s : State) (x : List Booking) : (s.setBookings x).engine = s.engine := rfl
@[simp] theorem State.setBookings_lines (s : State) (x : List Booking) : (s.setBookings x).lines = s.lines := rfl
@[simp] theorem State.setBookings_host (s : State) (x : List Booking) : (s.setBookings x).host = s.host := rfl
@[simp] theorem State.setBookings_freeCount (s : State) (x : List Booking) : (s.setBookings x).freeCount = s.freeCount := rfl

@[simp] theorem State.setTickets_pending (s : State) (x : List Ticket) : (s.setTickets x).pending = s.pending := rfl
@[simp] theorem State.setTickets_part (s : State) (x : List Ticket) : (s.setTickets x).part = s.part := rfl
@[simp] theorem State.setTickets_pins (s : State) (x : List Ticket) : (s.setTickets x).pins = s.pins := rfl
@[simp] theorem State.setTickets_store (s : State) (x : List Ticket) : (s.setTickets x).store = s.store := rfl
@[simp] theorem State.setTickets_policy (s : State) (x : List Ticket) : (s.setTickets x).policy = s.policy := rfl
@[simp] theorem State.setTickets_calendar (s : State) (x : List Ticket) : (s.setTickets x).calendar = s.calendar := rfl
@[simp] theorem State.setTickets_ports (s : State) (x : List Ticket) : (s.setTickets x).ports = s.ports := rfl
@[simp] theorem State.setTickets_engine (s : State) (x : List Ticket) : (s.setTickets x).engine = s.engine := rfl
@[simp] theorem State.setTickets_lines (s : State) (x : List Ticket) : (s.setTickets x).lines = s.lines := rfl
@[simp] theorem State.setTickets_host (s : State) (x : List Ticket) : (s.setTickets x).host = s.host := rfl
@[simp] theorem State.setTickets_freeCount (s : State) (x : List Ticket) : (s.setTickets x).freeCount = s.freeCount := rfl

@[simp] theorem State.setMode_pending (s : State) (b : Bank) (x : BankMode) : (s.setMode b x).pending = s.pending := rfl
@[simp] theorem State.setMode_part (s : State) (b : Bank) (x : BankMode) : (s.setMode b x).part = s.part := rfl
@[simp] theorem State.setMode_pins (s : State) (b : Bank) (x : BankMode) : (s.setMode b x).pins = s.pins := rfl
@[simp] theorem State.setMode_store (s : State) (b : Bank) (x : BankMode) : (s.setMode b x).store = s.store := rfl
@[simp] theorem State.setMode_policy (s : State) (b : Bank) (x : BankMode) : (s.setMode b x).policy = s.policy := rfl
@[simp] theorem State.setMode_calendar (s : State) (b : Bank) (x : BankMode) : (s.setMode b x).calendar = s.calendar := rfl
@[simp] theorem State.setMode_ports (s : State) (b : Bank) (x : BankMode) : (s.setMode b x).ports = s.ports := rfl
@[simp] theorem State.setMode_engine (s : State) (b : Bank) (x : BankMode) : (s.setMode b x).engine = s.engine := rfl
@[simp] theorem State.setMode_lines (s : State) (b : Bank) (x : BankMode) : (s.setMode b x).lines = s.lines := rfl
@[simp] theorem State.setMode_host (s : State) (b : Bank) (x : BankMode) : (s.setMode b x).host = s.host := rfl
@[simp] theorem State.setMode_freeCount (s : State) (b : Bank) (x : BankMode) : (s.setMode b x).freeCount = s.freeCount := rfl

@[simp] theorem State.setFloor_pending (s : State) (f : Floor) (x : FloorRec) : (s.setFloor f x).pending = s.pending := rfl
@[simp] theorem State.setFloor_part (s : State) (f : Floor) (x : FloorRec) : (s.setFloor f x).part = s.part := rfl
@[simp] theorem State.setFloor_pins (s : State) (f : Floor) (x : FloorRec) : (s.setFloor f x).pins = s.pins := rfl
@[simp] theorem State.setFloor_store (s : State) (f : Floor) (x : FloorRec) : (s.setFloor f x).store = s.store := rfl
@[simp] theorem State.setFloor_calendar (s : State) (f : Floor) (x : FloorRec) : (s.setFloor f x).calendar = s.calendar := rfl
@[simp] theorem State.setFloor_ports (s : State) (f : Floor) (x : FloorRec) : (s.setFloor f x).ports = s.ports := rfl
@[simp] theorem State.setFloor_engine (s : State) (f : Floor) (x : FloorRec) : (s.setFloor f x).engine = s.engine := rfl
@[simp] theorem State.setFloor_disp (s : State) (f : Floor) (x : FloorRec) : (s.setFloor f x).disp = s.disp := rfl
@[simp] theorem State.setFloor_lines (s : State) (f : Floor) (x : FloorRec) : (s.setFloor f x).lines = s.lines := rfl
@[simp] theorem State.setFloor_host (s : State) (f : Floor) (x : FloorRec) : (s.setFloor f x).host = s.host := rfl
@[simp] theorem State.setFloor_freeCount (s : State) (f : Floor) (x : FloorRec) : (s.setFloor f x).freeCount = s.freeCount := rfl

@[simp] theorem State.setBank_pending (s : State) (b : Bank) (x : BankRec) : (s.setBank b x).pending = s.pending := rfl
@[simp] theorem State.setBank_part (s : State) (b : Bank) (x : BankRec) : (s.setBank b x).part = s.part := rfl
@[simp] theorem State.setBank_pins (s : State) (b : Bank) (x : BankRec) : (s.setBank b x).pins = s.pins := rfl
@[simp] theorem State.setBank_store (s : State) (b : Bank) (x : BankRec) : (s.setBank b x).store = s.store := rfl
@[simp] theorem State.setBank_calendar (s : State) (b : Bank) (x : BankRec) : (s.setBank b x).calendar = s.calendar := rfl
@[simp] theorem State.setBank_ports (s : State) (b : Bank) (x : BankRec) : (s.setBank b x).ports = s.ports := rfl
@[simp] theorem State.setBank_engine (s : State) (b : Bank) (x : BankRec) : (s.setBank b x).engine = s.engine := rfl
@[simp] theorem State.setBank_disp (s : State) (b : Bank) (x : BankRec) : (s.setBank b x).disp = s.disp := rfl
@[simp] theorem State.setBank_lines (s : State) (b : Bank) (x : BankRec) : (s.setBank b x).lines = s.lines := rfl
@[simp] theorem State.setBank_host (s : State) (b : Bank) (x : BankRec) : (s.setBank b x).host = s.host := rfl
@[simp] theorem State.setBank_freeCount (s : State) (b : Bank) (x : BankRec) : (s.setBank b x).freeCount = s.freeCount := rfl

@[simp] theorem State.setRequest_pending (s : State) (x : RequestState) : (s.setRequest x).pending = s.pending := rfl
@[simp] theorem State.setRequest_part (s : State) (x : RequestState) : (s.setRequest x).part = s.part := rfl
@[simp] theorem State.setRequest_pins (s : State) (x : RequestState) : (s.setRequest x).pins = s.pins := rfl
@[simp] theorem State.setRequest_store (s : State) (x : RequestState) : (s.setRequest x).store = s.store := rfl
@[simp] theorem State.setRequest_policy (s : State) (x : RequestState) : (s.setRequest x).policy = s.policy := rfl
@[simp] theorem State.setRequest_calendar (s : State) (x : RequestState) : (s.setRequest x).calendar = s.calendar := rfl
@[simp] theorem State.setRequest_ports (s : State) (x : RequestState) : (s.setRequest x).ports = s.ports := rfl
@[simp] theorem State.setRequest_engine (s : State) (x : RequestState) : (s.setRequest x).engine = s.engine := rfl
@[simp] theorem State.setRequest_disp (s : State) (x : RequestState) : (s.setRequest x).disp = s.disp := rfl
@[simp] theorem State.setRequest_lines (s : State) (x : RequestState) : (s.setRequest x).lines = s.lines := rfl
@[simp] theorem State.setRequest_freeCount (s : State) (x : RequestState) : (s.setRequest x).freeCount = s.freeCount := rfl

@[simp] theorem State.reply_pending (s : State) (ty tag : Byte) (st : ReplyStatus) (x : ReplyBody) : (s.reply ty tag st x).pending = s.pending := rfl
@[simp] theorem State.reply_part (s : State) (ty tag : Byte) (st : ReplyStatus) (x : ReplyBody) : (s.reply ty tag st x).part = s.part := rfl
@[simp] theorem State.reply_pins (s : State) (ty tag : Byte) (st : ReplyStatus) (x : ReplyBody) : (s.reply ty tag st x).pins = s.pins := rfl
@[simp] theorem State.reply_store (s : State) (ty tag : Byte) (st : ReplyStatus) (x : ReplyBody) : (s.reply ty tag st x).store = s.store := rfl
@[simp] theorem State.reply_policy (s : State) (ty tag : Byte) (st : ReplyStatus) (x : ReplyBody) : (s.reply ty tag st x).policy = s.policy := rfl
@[simp] theorem State.reply_calendar (s : State) (ty tag : Byte) (st : ReplyStatus) (x : ReplyBody) : (s.reply ty tag st x).calendar = s.calendar := rfl
@[simp] theorem State.reply_ports (s : State) (ty tag : Byte) (st : ReplyStatus) (x : ReplyBody) : (s.reply ty tag st x).ports = s.ports := rfl
@[simp] theorem State.reply_engine (s : State) (ty tag : Byte) (st : ReplyStatus) (x : ReplyBody) : (s.reply ty tag st x).engine = s.engine := rfl
@[simp] theorem State.reply_disp (s : State) (ty tag : Byte) (st : ReplyStatus) (x : ReplyBody) : (s.reply ty tag st x).disp = s.disp := rfl
@[simp] theorem State.reply_lines (s : State) (ty tag : Byte) (st : ReplyStatus) (x : ReplyBody) : (s.reply ty tag st x).lines = s.lines := rfl
@[simp] theorem State.reply_freeCount (s : State) (ty tag : Byte) (st : ReplyStatus) (x : ReplyBody) : (s.reply ty tag st x).freeCount = s.freeCount := rfl

@[simp] theorem State.post_pending (s : State) (k : ReportClass) (x : ReportBody) : (s.post k x).pending = s.pending := rfl
@[simp] theorem State.post_part (s : State) (k : ReportClass) (x : ReportBody) : (s.post k x).part = s.part := rfl
@[simp] theorem State.post_pins (s : State) (k : ReportClass) (x : ReportBody) : (s.post k x).pins = s.pins := rfl
@[simp] theorem State.post_store (s : State) (k : ReportClass) (x : ReportBody) : (s.post k x).store = s.store := rfl
@[simp] theorem State.post_policy (s : State) (k : ReportClass) (x : ReportBody) : (s.post k x).policy = s.policy := rfl
@[simp] theorem State.post_calendar (s : State) (k : ReportClass) (x : ReportBody) : (s.post k x).calendar = s.calendar := rfl
@[simp] theorem State.post_ports (s : State) (k : ReportClass) (x : ReportBody) : (s.post k x).ports = s.ports := rfl
@[simp] theorem State.post_engine (s : State) (k : ReportClass) (x : ReportBody) : (s.post k x).engine = s.engine := rfl
@[simp] theorem State.post_disp (s : State) (k : ReportClass) (x : ReportBody) : (s.post k x).disp = s.disp := rfl
@[simp] theorem State.post_lines (s : State) (k : ReportClass) (x : ReportBody) : (s.post k x).lines = s.lines := rfl
@[simp] theorem State.post_freeCount (s : State) (k : ReportClass) (x : ReportBody) : (s.post k x).freeCount = s.freeCount := rfl

@[simp] theorem State.hostHunt_pending (s : State) : (s.hostHunt).pending = s.pending := rfl
@[simp] theorem State.hostHunt_part (s : State) : (s.hostHunt).part = s.part := rfl
@[simp] theorem State.hostHunt_pins (s : State) : (s.hostHunt).pins = s.pins := rfl
@[simp] theorem State.hostHunt_store (s : State) : (s.hostHunt).store = s.store := rfl
@[simp] theorem State.hostHunt_policy (s : State) : (s.hostHunt).policy = s.policy := rfl
@[simp] theorem State.hostHunt_calendar (s : State) : (s.hostHunt).calendar = s.calendar := rfl
@[simp] theorem State.hostHunt_ports (s : State) : (s.hostHunt).ports = s.ports := rfl
@[simp] theorem State.hostHunt_engine (s : State) : (s.hostHunt).engine = s.engine := rfl
@[simp] theorem State.hostHunt_disp (s : State) : (s.hostHunt).disp = s.disp := rfl
@[simp] theorem State.hostHunt_lines (s : State) : (s.hostHunt).lines = s.lines := rfl
@[simp] theorem State.hostHunt_freeCount (s : State) : (s.hostHunt).freeCount = s.freeCount := rfl

@[simp] theorem State.choose_pending (s : State) : (s.choose).pending = s.pending := rfl
@[simp] theorem State.choose_part (s : State) : (s.choose).part = s.part := rfl
@[simp] theorem State.choose_pins (s : State) : (s.choose).pins = s.pins := rfl
@[simp] theorem State.choose_store (s : State) : (s.choose).store = s.store := rfl
@[simp] theorem State.choose_policy (s : State) : (s.choose).policy = s.policy := rfl
@[simp] theorem State.choose_calendar (s : State) : (s.choose).calendar = s.calendar := rfl
@[simp] theorem State.choose_ports (s : State) : (s.choose).ports = s.ports := rfl
@[simp] theorem State.choose_engine (s : State) : (s.choose).engine = s.engine := rfl
@[simp] theorem State.choose_disp (s : State) : (s.choose).disp = s.disp := rfl
@[simp] theorem State.choose_lines (s : State) : (s.choose).lines = s.lines := rfl
@[simp] theorem State.choose_freeCount (s : State) : (s.choose).freeCount = s.freeCount := rfl

@[simp] theorem State.setTx_pending (s : State) (x : Transmitter) : (s.setTx x).pending = s.pending := rfl
@[simp] theorem State.setTx_part (s : State) (x : Transmitter) : (s.setTx x).part = s.part := rfl
@[simp] theorem State.setTx_pins (s : State) (x : Transmitter) : (s.setTx x).pins = s.pins := rfl
@[simp] theorem State.setTx_store (s : State) (x : Transmitter) : (s.setTx x).store = s.store := rfl
@[simp] theorem State.setTx_policy (s : State) (x : Transmitter) : (s.setTx x).policy = s.policy := rfl
@[simp] theorem State.setTx_calendar (s : State) (x : Transmitter) : (s.setTx x).calendar = s.calendar := rfl
@[simp] theorem State.setTx_ports (s : State) (x : Transmitter) : (s.setTx x).ports = s.ports := rfl
@[simp] theorem State.setTx_engine (s : State) (x : Transmitter) : (s.setTx x).engine = s.engine := rfl
@[simp] theorem State.setTx_disp (s : State) (x : Transmitter) : (s.setTx x).disp = s.disp := rfl
@[simp] theorem State.setTx_lines (s : State) (x : Transmitter) : (s.setTx x).lines = s.lines := rfl
@[simp] theorem State.setTx_freeCount (s : State) (x : Transmitter) : (s.setTx x).freeCount = s.freeCount := rfl

@[simp] theorem State.setLrq_pending (s : State) (l : Bank) (x : Bool) : (s.setLrq l x).pending = s.pending := rfl
@[simp] theorem State.setLrq_part (s : State) (l : Bank) (x : Bool) : (s.setLrq l x).part = s.part := rfl
@[simp] theorem State.setLrq_store (s : State) (l : Bank) (x : Bool) : (s.setLrq l x).store = s.store := rfl
@[simp] theorem State.setLrq_policy (s : State) (l : Bank) (x : Bool) : (s.setLrq l x).policy = s.policy := rfl
@[simp] theorem State.setLrq_calendar (s : State) (l : Bank) (x : Bool) : (s.setLrq l x).calendar = s.calendar := rfl
@[simp] theorem State.setLrq_ports (s : State) (l : Bank) (x : Bool) : (s.setLrq l x).ports = s.ports := rfl
@[simp] theorem State.setLrq_engine (s : State) (l : Bank) (x : Bool) : (s.setLrq l x).engine = s.engine := rfl
@[simp] theorem State.setLrq_disp (s : State) (l : Bank) (x : Bool) : (s.setLrq l x).disp = s.disp := rfl
@[simp] theorem State.setLrq_lines (s : State) (l : Bank) (x : Bool) : (s.setLrq l x).lines = s.lines := rfl
@[simp] theorem State.setLrq_host (s : State) (l : Bank) (x : Bool) : (s.setLrq l x).host = s.host := rfl
@[simp] theorem State.setLrq_freeCount (s : State) (l : Bank) (x : Bool) : (s.setLrq l x).freeCount = s.freeCount := rfl

@[simp] theorem State.setRcl_pending (s : State) (b : Bank) (x : Bool) : (s.setRcl b x).pending = s.pending := rfl
@[simp] theorem State.setRcl_part (s : State) (b : Bank) (x : Bool) : (s.setRcl b x).part = s.part := rfl
@[simp] theorem State.setRcl_store (s : State) (b : Bank) (x : Bool) : (s.setRcl b x).store = s.store := rfl
@[simp] theorem State.setRcl_policy (s : State) (b : Bank) (x : Bool) : (s.setRcl b x).policy = s.policy := rfl
@[simp] theorem State.setRcl_calendar (s : State) (b : Bank) (x : Bool) : (s.setRcl b x).calendar = s.calendar := rfl
@[simp] theorem State.setRcl_ports (s : State) (b : Bank) (x : Bool) : (s.setRcl b x).ports = s.ports := rfl
@[simp] theorem State.setRcl_engine (s : State) (b : Bank) (x : Bool) : (s.setRcl b x).engine = s.engine := rfl
@[simp] theorem State.setRcl_disp (s : State) (b : Bank) (x : Bool) : (s.setRcl b x).disp = s.disp := rfl
@[simp] theorem State.setRcl_lines (s : State) (b : Bank) (x : Bool) : (s.setRcl b x).lines = s.lines := rfl
@[simp] theorem State.setRcl_host (s : State) (b : Bank) (x : Bool) : (s.setRcl b x).host = s.host := rfl
@[simp] theorem State.setRcl_freeCount (s : State) (b : Bank) (x : Bool) : (s.setRcl b x).freeCount = s.freeCount := rfl

@[simp] theorem State.applyJob_pending (s : State) (x : Job) : (s.applyJob x).pending = s.pending := rfl
@[simp] theorem State.applyJob_part (s : State) (x : Job) : (s.applyJob x).part = s.part := rfl
@[simp] theorem State.applyJob_pins (s : State) (x : Job) : (s.applyJob x).pins = s.pins := rfl
@[simp] theorem State.applyJob_store (s : State) (x : Job) : (s.applyJob x).store = s.store := rfl
@[simp] theorem State.applyJob_calendar (s : State) (x : Job) : (s.applyJob x).calendar = s.calendar := rfl
@[simp] theorem State.applyJob_ports (s : State) (x : Job) : (s.applyJob x).ports = s.ports := rfl
@[simp] theorem State.applyJob_engine (s : State) (x : Job) : (s.applyJob x).engine = s.engine := rfl
@[simp] theorem State.applyJob_disp (s : State) (x : Job) : (s.applyJob x).disp = s.disp := rfl
@[simp] theorem State.applyJob_lines (s : State) (x : Job) : (s.applyJob x).lines = s.lines := rfl
@[simp] theorem State.applyJob_host (s : State) (x : Job) : (s.applyJob x).host = s.host := rfl
@[simp] theorem State.applyJob_freeCount (s : State) (x : Job) : (s.applyJob x).freeCount = s.freeCount := rfl

@[simp] theorem State.engineIdle_pending (s : State) : (s.engineIdle).pending = s.pending := rfl
@[simp] theorem State.engineIdle_part (s : State) : (s.engineIdle).part = s.part := rfl
@[simp] theorem State.engineIdle_pins (s : State) : (s.engineIdle).pins = s.pins := rfl
@[simp] theorem State.engineIdle_store (s : State) : (s.engineIdle).store = s.store := rfl
@[simp] theorem State.engineIdle_policy (s : State) : (s.engineIdle).policy = s.policy := rfl
@[simp] theorem State.engineIdle_calendar (s : State) : (s.engineIdle).calendar = s.calendar := rfl
@[simp] theorem State.engineIdle_ports (s : State) : (s.engineIdle).ports = s.ports := rfl
@[simp] theorem State.engineIdle_disp (s : State) : (s.engineIdle).disp = s.disp := rfl
@[simp] theorem State.engineIdle_lines (s : State) : (s.engineIdle).lines = s.lines := rfl
@[simp] theorem State.engineIdle_host (s : State) : (s.engineIdle).host = s.host := rfl
@[simp] theorem State.engineIdle_freeCount (s : State) : (s.engineIdle).freeCount = s.freeCount := rfl

@[simp] theorem State.announceLeft_pending (s : State) (p : PortNo) (x : Nat) : (s.announceLeft p x).pending = s.pending := rfl
@[simp] theorem State.announceLeft_part (s : State) (p : PortNo) (x : Nat) : (s.announceLeft p x).part = s.part := rfl
@[simp] theorem State.announceLeft_pins (s : State) (p : PortNo) (x : Nat) : (s.announceLeft p x).pins = s.pins := rfl
@[simp] theorem State.announceLeft_store (s : State) (p : PortNo) (x : Nat) : (s.announceLeft p x).store = s.store := rfl
@[simp] theorem State.announceLeft_policy (s : State) (p : PortNo) (x : Nat) : (s.announceLeft p x).policy = s.policy := rfl
@[simp] theorem State.announceLeft_calendar (s : State) (p : PortNo) (x : Nat) : (s.announceLeft p x).calendar = s.calendar := rfl
@[simp] theorem State.announceLeft_engine (s : State) (p : PortNo) (x : Nat) : (s.announceLeft p x).engine = s.engine := rfl
@[simp] theorem State.announceLeft_disp (s : State) (p : PortNo) (x : Nat) : (s.announceLeft p x).disp = s.disp := rfl
@[simp] theorem State.announceLeft_lines (s : State) (p : PortNo) (x : Nat) : (s.announceLeft p x).lines = s.lines := rfl
@[simp] theorem State.announceLeft_host (s : State) (p : PortNo) (x : Nat) : (s.announceLeft p x).host = s.host := rfl
@[simp] theorem State.announceLeft_freeCount (s : State) (p : PortNo) (x : Nat) : (s.announceLeft p x).freeCount = s.freeCount := rfl

@[simp] theorem State.announceMoved_pending (s : State) (p : PortNo) (x : Nat) (b : Bank) (c : CarNo) : (s.announceMoved p x b c).pending = s.pending := rfl
@[simp] theorem State.announceMoved_part (s : State) (p : PortNo) (x : Nat) (b : Bank) (c : CarNo) : (s.announceMoved p x b c).part = s.part := rfl
@[simp] theorem State.announceMoved_pins (s : State) (p : PortNo) (x : Nat) (b : Bank) (c : CarNo) : (s.announceMoved p x b c).pins = s.pins := rfl
@[simp] theorem State.announceMoved_store (s : State) (p : PortNo) (x : Nat) (b : Bank) (c : CarNo) : (s.announceMoved p x b c).store = s.store := rfl
@[simp] theorem State.announceMoved_policy (s : State) (p : PortNo) (x : Nat) (b : Bank) (c : CarNo) : (s.announceMoved p x b c).policy = s.policy := rfl
@[simp] theorem State.announceMoved_calendar (s : State) (p : PortNo) (x : Nat) (b : Bank) (c : CarNo) : (s.announceMoved p x b c).calendar = s.calendar := rfl
@[simp] theorem State.announceMoved_engine (s : State) (p : PortNo) (x : Nat) (b : Bank) (c : CarNo) : (s.announceMoved p x b c).engine = s.engine := rfl
@[simp] theorem State.announceMoved_disp (s : State) (p : PortNo) (x : Nat) (b : Bank) (c : CarNo) : (s.announceMoved p x b c).disp = s.disp := rfl
@[simp] theorem State.announceMoved_lines (s : State) (p : PortNo) (x : Nat) (b : Bank) (c : CarNo) : (s.announceMoved p x b c).lines = s.lines := rfl
@[simp] theorem State.announceMoved_host (s : State) (p : PortNo) (x : Nat) (b : Bank) (c : CarNo) : (s.announceMoved p x b c).host = s.host := rfl
@[simp] theorem State.announceMoved_freeCount (s : State) (p : PortNo) (x : Nat) (b : Bank) (c : CarNo) : (s.announceMoved p x b c).freeCount = s.freeCount := rfl

@[simp] theorem State.removeBooking_pending (s : State) (x : Nat) : (s.removeBooking x).pending = s.pending := rfl
@[simp] theorem State.removeBooking_part (s : State) (x : Nat) : (s.removeBooking x).part = s.part := rfl
@[simp] theorem State.removeBooking_pins (s : State) (x : Nat) : (s.removeBooking x).pins = s.pins := rfl
@[simp] theorem State.removeBooking_store (s : State) (x : Nat) : (s.removeBooking x).store = s.store := rfl
@[simp] theorem State.removeBooking_policy (s : State) (x : Nat) : (s.removeBooking x).policy = s.policy := rfl
@[simp] theorem State.removeBooking_calendar (s : State) (x : Nat) : (s.removeBooking x).calendar = s.calendar := rfl
@[simp] theorem State.removeBooking_ports (s : State) (x : Nat) : (s.removeBooking x).ports = s.ports := rfl
@[simp] theorem State.removeBooking_engine (s : State) (x : Nat) : (s.removeBooking x).engine = s.engine := rfl
@[simp] theorem State.removeBooking_lines (s : State) (x : Nat) : (s.removeBooking x).lines = s.lines := rfl
@[simp] theorem State.removeBooking_host (s : State) (x : Nat) : (s.removeBooking x).host = s.host := rfl
@[simp] theorem State.removeBooking_freeCount (s : State) (x : Nat) : (s.removeBooking x).freeCount = s.freeCount := rfl

@[simp] theorem State.removeTicket_pending (s : State) (x : Badge) : (s.removeTicket x).pending = s.pending := rfl
@[simp] theorem State.removeTicket_part (s : State) (x : Badge) : (s.removeTicket x).part = s.part := rfl
@[simp] theorem State.removeTicket_pins (s : State) (x : Badge) : (s.removeTicket x).pins = s.pins := rfl
@[simp] theorem State.removeTicket_store (s : State) (x : Badge) : (s.removeTicket x).store = s.store := rfl
@[simp] theorem State.removeTicket_policy (s : State) (x : Badge) : (s.removeTicket x).policy = s.policy := rfl
@[simp] theorem State.removeTicket_calendar (s : State) (x : Badge) : (s.removeTicket x).calendar = s.calendar := rfl
@[simp] theorem State.removeTicket_ports (s : State) (x : Badge) : (s.removeTicket x).ports = s.ports := rfl
@[simp] theorem State.removeTicket_engine (s : State) (x : Badge) : (s.removeTicket x).engine = s.engine := rfl
@[simp] theorem State.removeTicket_lines (s : State) (x : Badge) : (s.removeTicket x).lines = s.lines := rfl
@[simp] theorem State.removeTicket_host (s : State) (x : Badge) : (s.removeTicket x).host = s.host := rfl
@[simp] theorem State.removeTicket_freeCount (s : State) (x : Badge) : (s.removeTicket x).freeCount = s.freeCount := rfl

@[simp] theorem State.wakePorts_pending (s : State) : (s.wakePorts).pending = s.pending := rfl
@[simp] theorem State.wakePorts_part (s : State) : (s.wakePorts).part = s.part := rfl
@[simp] theorem State.wakePorts_pins (s : State) : (s.wakePorts).pins = s.pins := rfl
@[simp] theorem State.wakePorts_store (s : State) : (s.wakePorts).store = s.store := rfl
@[simp] theorem State.wakePorts_policy (s : State) : (s.wakePorts).policy = s.policy := rfl
@[simp] theorem State.wakePorts_calendar (s : State) : (s.wakePorts).calendar = s.calendar := rfl
@[simp] theorem State.wakePorts_engine (s : State) : (s.wakePorts).engine = s.engine := rfl
@[simp] theorem State.wakePorts_disp (s : State) : (s.wakePorts).disp = s.disp := rfl
@[simp] theorem State.wakePorts_lines (s : State) : (s.wakePorts).lines = s.lines := rfl
@[simp] theorem State.wakePorts_host (s : State) : (s.wakePorts).host = s.host := rfl
@[simp] theorem State.wakePorts_freeCount (s : State) : (s.wakePorts).freeCount = s.freeCount := rfl

@[simp] theorem State.answer_pending (s : State) (p : PortNo) (x : Answer) : (s.answer p x).pending = s.pending := rfl
@[simp] theorem State.answer_part (s : State) (p : PortNo) (x : Answer) : (s.answer p x).part = s.part := rfl
@[simp] theorem State.answer_pins (s : State) (p : PortNo) (x : Answer) : (s.answer p x).pins = s.pins := rfl
@[simp] theorem State.answer_store (s : State) (p : PortNo) (x : Answer) : (s.answer p x).store = s.store := rfl
@[simp] theorem State.answer_policy (s : State) (p : PortNo) (x : Answer) : (s.answer p x).policy = s.policy := rfl
@[simp] theorem State.answer_calendar (s : State) (p : PortNo) (x : Answer) : (s.answer p x).calendar = s.calendar := rfl
@[simp] theorem State.answer_engine (s : State) (p : PortNo) (x : Answer) : (s.answer p x).engine = s.engine := rfl
@[simp] theorem State.answer_disp (s : State) (p : PortNo) (x : Answer) : (s.answer p x).disp = s.disp := rfl
@[simp] theorem State.answer_lines (s : State) (p : PortNo) (x : Answer) : (s.answer p x).lines = s.lines := rfl
@[simp] theorem State.answer_host (s : State) (p : PortNo) (x : Answer) : (s.answer p x).host = s.host := rfl
@[simp] theorem State.answer_freeCount (s : State) (p : PortNo) (x : Answer) : (s.answer p x).freeCount = s.freeCount := rfl

@[simp] theorem State.answerTap_pending (s : State) (p : PortNo) (x : Answer) : (s.answerTap p x).pending = s.pending := rfl
@[simp] theorem State.answerTap_part (s : State) (p : PortNo) (x : Answer) : (s.answerTap p x).part = s.part := rfl
@[simp] theorem State.answerTap_pins (s : State) (p : PortNo) (x : Answer) : (s.answerTap p x).pins = s.pins := rfl
@[simp] theorem State.answerTap_store (s : State) (p : PortNo) (x : Answer) : (s.answerTap p x).store = s.store := rfl
@[simp] theorem State.answerTap_policy (s : State) (p : PortNo) (x : Answer) : (s.answerTap p x).policy = s.policy := rfl
@[simp] theorem State.answerTap_calendar (s : State) (p : PortNo) (x : Answer) : (s.answerTap p x).calendar = s.calendar := rfl
@[simp] theorem State.answerTap_engine (s : State) (p : PortNo) (x : Answer) : (s.answerTap p x).engine = s.engine := rfl
@[simp] theorem State.answerTap_disp (s : State) (p : PortNo) (x : Answer) : (s.answerTap p x).disp = s.disp := rfl
@[simp] theorem State.answerTap_lines (s : State) (p : PortNo) (x : Answer) : (s.answerTap p x).lines = s.lines := rfl
@[simp] theorem State.answerTap_host (s : State) (p : PortNo) (x : Answer) : (s.answerTap p x).host = s.host := rfl
@[simp] theorem State.answerTap_freeCount (s : State) (p : PortNo) (x : Answer) : (s.answerTap p x).freeCount = s.freeCount := rfl

@[simp] theorem State.readerHunt_pending (s : State) (p : PortNo) : (s.readerHunt p).pending = s.pending := rfl
@[simp] theorem State.readerHunt_part (s : State) (p : PortNo) : (s.readerHunt p).part = s.part := rfl
@[simp] theorem State.readerHunt_pins (s : State) (p : PortNo) : (s.readerHunt p).pins = s.pins := rfl
@[simp] theorem State.readerHunt_store (s : State) (p : PortNo) : (s.readerHunt p).store = s.store := rfl
@[simp] theorem State.readerHunt_policy (s : State) (p : PortNo) : (s.readerHunt p).policy = s.policy := rfl
@[simp] theorem State.readerHunt_calendar (s : State) (p : PortNo) : (s.readerHunt p).calendar = s.calendar := rfl
@[simp] theorem State.readerHunt_engine (s : State) (p : PortNo) : (s.readerHunt p).engine = s.engine := rfl
@[simp] theorem State.readerHunt_disp (s : State) (p : PortNo) : (s.readerHunt p).disp = s.disp := rfl
@[simp] theorem State.readerHunt_lines (s : State) (p : PortNo) : (s.readerHunt p).lines = s.lines := rfl
@[simp] theorem State.readerHunt_host (s : State) (p : PortNo) : (s.readerHunt p).host = s.host := rfl
@[simp] theorem State.readerHunt_freeCount (s : State) (p : PortNo) : (s.readerHunt p).freeCount = s.freeCount := rfl

@[simp] theorem State.reloadPort_pending (s : State) (p : PortNo) : (s.reloadPort p).pending = s.pending := rfl
@[simp] theorem State.reloadPort_part (s : State) (p : PortNo) : (s.reloadPort p).part = s.part := rfl
@[simp] theorem State.reloadPort_pins (s : State) (p : PortNo) : (s.reloadPort p).pins = s.pins := rfl
@[simp] theorem State.reloadPort_store (s : State) (p : PortNo) : (s.reloadPort p).store = s.store := rfl
@[simp] theorem State.reloadPort_policy (s : State) (p : PortNo) : (s.reloadPort p).policy = s.policy := rfl
@[simp] theorem State.reloadPort_calendar (s : State) (p : PortNo) : (s.reloadPort p).calendar = s.calendar := rfl
@[simp] theorem State.reloadPort_engine (s : State) (p : PortNo) : (s.reloadPort p).engine = s.engine := rfl
@[simp] theorem State.reloadPort_disp (s : State) (p : PortNo) : (s.reloadPort p).disp = s.disp := rfl
@[simp] theorem State.reloadPort_lines (s : State) (p : PortNo) : (s.reloadPort p).lines = s.lines := rfl
@[simp] theorem State.reloadPort_host (s : State) (p : PortNo) : (s.reloadPort p).host = s.host := rfl
@[simp] theorem State.reloadPort_freeCount (s : State) (p : PortNo) : (s.reloadPort p).freeCount = s.freeCount := rfl

/-! ### The inner fields of the Dispatch Engine -/

@[simp] theorem State.setCar_bookings (s : State) (b : Bank) (c : CarNo) (x : Car) :
    (s.setCar b c x).disp.bookings = s.disp.bookings := rfl
@[simp] theorem State.setCar_tickets (s : State) (b : Bank) (c : CarNo) (x : Car) :
    (s.setCar b c x).disp.tickets = s.disp.tickets := rfl
@[simp] theorem State.setCar_modes (s : State) (b : Bank) (c : CarNo) (x : Car) :
    (s.setCar b c x).disp.modes = s.disp.modes := rfl
@[simp] theorem State.setCar_serial (s : State) (b : Bank) (c : CarNo) (x : Car) :
    (s.setCar b c x).disp.serial = s.disp.serial := rfl
@[simp] theorem State.setBookings_bookings (s : State) (x : List Booking) : (s.setBookings x).disp.bookings = x := rfl
@[simp] theorem State.setBookings_tickets (s : State) (x : List Booking) :
    (s.setBookings x).disp.tickets = s.disp.tickets := rfl
@[simp] theorem State.setBookings_cars (s : State) (x : List Booking) : (s.setBookings x).disp.cars = s.disp.cars := rfl
@[simp] theorem State.setBookings_modes (s : State) (x : List Booking) :
    (s.setBookings x).disp.modes = s.disp.modes := rfl
@[simp] theorem State.setBookings_serial (s : State) (x : List Booking) :
    (s.setBookings x).disp.serial = s.disp.serial := rfl
@[simp] theorem State.setTickets_tickets (s : State) (x : List Ticket) : (s.setTickets x).disp.tickets = x := rfl
@[simp] theorem State.setTickets_bookings (s : State) (x : List Ticket) :
    (s.setTickets x).disp.bookings = s.disp.bookings := rfl
@[simp] theorem State.setTickets_cars (s : State) (x : List Ticket) : (s.setTickets x).disp.cars = s.disp.cars := rfl
@[simp] theorem State.setTickets_modes (s : State) (x : List Ticket) :
    (s.setTickets x).disp.modes = s.disp.modes := rfl
@[simp] theorem State.setTickets_serial (s : State) (x : List Ticket) :
    (s.setTickets x).disp.serial = s.disp.serial := rfl
@[simp] theorem State.setMode_bookings (s : State) (b : Bank) (x : BankMode) :
    (s.setMode b x).disp.bookings = s.disp.bookings := rfl
@[simp] theorem State.setMode_tickets (s : State) (b : Bank) (x : BankMode) :
    (s.setMode b x).disp.tickets = s.disp.tickets := rfl
@[simp] theorem State.setMode_cars (s : State) (b : Bank) (x : BankMode) : (s.setMode b x).disp.cars = s.disp.cars := rfl
@[simp] theorem State.setMode_serial (s : State) (b : Bank) (x : BankMode) :
    (s.setMode b x).disp.serial = s.disp.serial := rfl

/-! ### Reading a place after writing one -/

theorem Vector.get_set_self {α : Type} {n : Nat} (v : Vector α n) (i : Fin n) (x : α) :
    (v.set i x).get i = x := by
  simp [Vector.get_eq_getElem]

theorem Vector.get_set_ne {α : Type} {n : Nat} (v : Vector α n) (i j : Fin n) (x : α) (h : i ≠ j) :
    (v.set i x).get j = v.get j := by
  have h' : i.val ≠ j.val := fun e => h (Fin.ext e)
  simp [Vector.get_eq_getElem, h']

theorem carIndex_inj {b b' : Bank} {c c' : CarNo} (h : carIndex b c = carIndex b' c') : b = b' ∧ c = c' := by
  have h1 : 8 * b.val + c.val = 8 * b'.val + c'.val := congrArg Fin.val h
  exact ⟨Fin.ext (by omega), Fin.ext (by omega)⟩

@[simp] theorem State.port_setPort_self (s : State) (p : PortNo) (x : Port) : (s.setPort p x).port p = x :=
  Vector.get_set_self _ _ _

theorem State.port_setPort_ne (s : State) (p q : PortNo) (x : Port) (h : p ≠ q) : (s.setPort p x).port q = s.port q :=
  Vector.get_set_ne _ _ _ _ h

@[simp] theorem State.line_setLine_self (s : State) (l : Bank) (x : Line) : (s.setLine l x).line l = x :=
  Vector.get_set_self _ _ _

theorem State.line_setLine_ne (s : State) (l m : Bank) (x : Line) (h : l ≠ m) : (s.setLine l x).line m = s.line m :=
  Vector.get_set_ne _ _ _ _ h

@[simp] theorem State.mode_setMode_self (s : State) (b : Bank) (x : BankMode) : (s.setMode b x).mode b = some x :=
  Vector.get_set_self _ _ _

theorem State.mode_setMode_ne (s : State) (b c : Bank) (x : BankMode) (h : b ≠ c) : (s.setMode b x).mode c = s.mode c :=
  Vector.get_set_ne _ _ _ _ h

@[simp] theorem State.car_setCar_self (s : State) (b : Bank) (c : CarNo) (x : Car) : (s.setCar b c x).car b c = x :=
  Vector.get_set_self _ _ _

theorem State.car_setCar_ne (s : State) (b b' : Bank) (c c' : CarNo) (x : Car) (h : (b, c) ≠ (b', c')) :
    (s.setCar b c x).car b' c' = s.car b' c' :=
  Vector.get_set_ne _ _ _ _ fun e => h (by rw [(carIndex_inj e).1, (carIndex_inj e).2])

/-! ### Reading a place after an update of another block -/

@[simp] theorem State.port_setPending (s : State) (x : List Instr) (q : PortNo) : (s.setPending x).port q = s.port q := rfl
@[simp] theorem State.port_setPart (s : State) (x : Part) (q : PortNo) : (s.setPart x).port q = s.port q := rfl
@[simp] theorem State.port_setPins (s : State) (x : Pins) (q : PortNo) : (s.setPins x).port q = s.port q := rfl
@[simp] theorem State.port_setStore (s : State) (x : StoreBlock) (q : PortNo) : (s.setStore x).port q = s.port q := rfl
@[simp] theorem State.port_setPolicy (s : State) (x : Policy) (q : PortNo) : (s.setPolicy x).port q = s.port q := rfl
@[simp] theorem State.port_setCalendar (s : State) (x : Calendar) (q : PortNo) : (s.setCalendar x).port q = s.port q := rfl
@[simp] theorem State.port_setEngine (s : State) (x : Engine) (q : PortNo) : (s.setEngine x).port q = s.port q := rfl
@[simp] theorem State.port_setDisp (s : State) (x : DispatchBlock) (q : PortNo) : (s.setDisp x).port q = s.port q := rfl
@[simp] theorem State.port_setLines (s : State) (x : Vector Line 4) (q : PortNo) : (s.setLines x).port q = s.port q := rfl
@[simp] theorem State.port_setHost (s : State) (x : HostPort) (q : PortNo) : (s.setHost x).port q = s.port q := rfl
@[simp] theorem State.port_setFree (s : State) (x : Nat) (q : PortNo) : (s.setFree x).port q = s.port q := rfl
@[simp] theorem State.port_setLine (s : State) (l : Bank) (x : Line) (q : PortNo) : (s.setLine l x).port q = s.port q := rfl
@[simp] theorem State.port_setCar (s : State) (b : Bank) (c : CarNo) (x : Car) (q : PortNo) : (s.setCar b c x).port q = s.port q := rfl
@[simp] theorem State.port_setBookings (s : State) (x : List Booking) (q : PortNo) : (s.setBookings x).port q = s.port q := rfl
@[simp] theorem State.port_setTickets (s : State) (x : List Ticket) (q : PortNo) : (s.setTickets x).port q = s.port q := rfl
@[simp] theorem State.port_setMode (s : State) (b : Bank) (x : BankMode) (q : PortNo) : (s.setMode b x).port q = s.port q := rfl
@[simp] theorem State.port_setFloor (s : State) (f : Floor) (x : FloorRec) (q : PortNo) : (s.setFloor f x).port q = s.port q := rfl
@[simp] theorem State.port_setBank (s : State) (b : Bank) (x : BankRec) (q : PortNo) : (s.setBank b x).port q = s.port q := rfl
@[simp] theorem State.port_setRequest (s : State) (x : RequestState) (q : PortNo) : (s.setRequest x).port q = s.port q := rfl
@[simp] theorem State.port_reply (s : State) (ty tag : Byte) (st : ReplyStatus) (x : ReplyBody) (q : PortNo) : (s.reply ty tag st x).port q = s.port q := rfl
@[simp] theorem State.port_post (s : State) (k : ReportClass) (x : ReportBody) (q : PortNo) : (s.post k x).port q = s.port q := rfl
@[simp] theorem State.port_hostHunt (s : State) (q : PortNo) : (s.hostHunt).port q = s.port q := rfl
@[simp] theorem State.port_choose (s : State) (q : PortNo) : (s.choose).port q = s.port q := rfl
@[simp] theorem State.port_setTx (s : State) (x : Transmitter) (q : PortNo) : (s.setTx x).port q = s.port q := rfl
@[simp] theorem State.port_setLrq (s : State) (l : Bank) (x : Bool) (q : PortNo) : (s.setLrq l x).port q = s.port q := rfl
@[simp] theorem State.port_setRcl (s : State) (b : Bank) (x : Bool) (q : PortNo) : (s.setRcl b x).port q = s.port q := rfl
@[simp] theorem State.port_applyJob (s : State) (x : Job) (q : PortNo) : (s.applyJob x).port q = s.port q := rfl
@[simp] theorem State.port_engineIdle (s : State) (q : PortNo) : (s.engineIdle).port q = s.port q := rfl
@[simp] theorem State.port_removeBooking (s : State) (x : Nat) (q : PortNo) : (s.removeBooking x).port q = s.port q := rfl
@[simp] theorem State.port_removeTicket (s : State) (x : Badge) (q : PortNo) : (s.removeTicket x).port q = s.port q := rfl

@[simp] theorem State.line_setPending (s : State) (x : List Instr) (m : Bank) : (s.setPending x).line m = s.line m := rfl
@[simp] theorem State.line_setPart (s : State) (x : Part) (m : Bank) : (s.setPart x).line m = s.line m := rfl
@[simp] theorem State.line_setPins (s : State) (x : Pins) (m : Bank) : (s.setPins x).line m = s.line m := rfl
@[simp] theorem State.line_setStore (s : State) (x : StoreBlock) (m : Bank) : (s.setStore x).line m = s.line m := rfl
@[simp] theorem State.line_setPolicy (s : State) (x : Policy) (m : Bank) : (s.setPolicy x).line m = s.line m := rfl
@[simp] theorem State.line_setCalendar (s : State) (x : Calendar) (m : Bank) : (s.setCalendar x).line m = s.line m := rfl
@[simp] theorem State.line_setPorts (s : State) (x : Vector Port 16) (m : Bank) : (s.setPorts x).line m = s.line m := rfl
@[simp] theorem State.line_setEngine (s : State) (x : Engine) (m : Bank) : (s.setEngine x).line m = s.line m := rfl
@[simp] theorem State.line_setDisp (s : State) (x : DispatchBlock) (m : Bank) : (s.setDisp x).line m = s.line m := rfl
@[simp] theorem State.line_setHost (s : State) (x : HostPort) (m : Bank) : (s.setHost x).line m = s.line m := rfl
@[simp] theorem State.line_setFree (s : State) (x : Nat) (m : Bank) : (s.setFree x).line m = s.line m := rfl
@[simp] theorem State.line_setPort (s : State) (p : PortNo) (x : Port) (m : Bank) : (s.setPort p x).line m = s.line m := rfl
@[simp] theorem State.line_setCar (s : State) (b : Bank) (c : CarNo) (x : Car) (m : Bank) : (s.setCar b c x).line m = s.line m := rfl
@[simp] theorem State.line_setBookings (s : State) (x : List Booking) (m : Bank) : (s.setBookings x).line m = s.line m := rfl
@[simp] theorem State.line_setTickets (s : State) (x : List Ticket) (m : Bank) : (s.setTickets x).line m = s.line m := rfl
@[simp] theorem State.line_setMode (s : State) (b : Bank) (x : BankMode) (m : Bank) : (s.setMode b x).line m = s.line m := rfl
@[simp] theorem State.line_setFloor (s : State) (f : Floor) (x : FloorRec) (m : Bank) : (s.setFloor f x).line m = s.line m := rfl
@[simp] theorem State.line_setBank (s : State) (b : Bank) (x : BankRec) (m : Bank) : (s.setBank b x).line m = s.line m := rfl
@[simp] theorem State.line_setRequest (s : State) (x : RequestState) (m : Bank) : (s.setRequest x).line m = s.line m := rfl
@[simp] theorem State.line_reply (s : State) (ty tag : Byte) (st : ReplyStatus) (x : ReplyBody) (m : Bank) : (s.reply ty tag st x).line m = s.line m := rfl
@[simp] theorem State.line_post (s : State) (k : ReportClass) (x : ReportBody) (m : Bank) : (s.post k x).line m = s.line m := rfl
@[simp] theorem State.line_hostHunt (s : State) (m : Bank) : (s.hostHunt).line m = s.line m := rfl
@[simp] theorem State.line_choose (s : State) (m : Bank) : (s.choose).line m = s.line m := rfl
@[simp] theorem State.line_setTx (s : State) (x : Transmitter) (m : Bank) : (s.setTx x).line m = s.line m := rfl
@[simp] theorem State.line_setLrq (s : State) (l : Bank) (x : Bool) (m : Bank) : (s.setLrq l x).line m = s.line m := rfl
@[simp] theorem State.line_setRcl (s : State) (b : Bank) (x : Bool) (m : Bank) : (s.setRcl b x).line m = s.line m := rfl
@[simp] theorem State.line_applyJob (s : State) (x : Job) (m : Bank) : (s.applyJob x).line m = s.line m := rfl
@[simp] theorem State.line_engineIdle (s : State) (m : Bank) : (s.engineIdle).line m = s.line m := rfl
@[simp] theorem State.line_announceLeft (s : State) (p : PortNo) (x : Nat) (m : Bank) : (s.announceLeft p x).line m = s.line m := rfl
@[simp] theorem State.line_announceMoved (s : State) (p : PortNo) (x : Nat) (b : Bank) (c : CarNo) (m : Bank) : (s.announceMoved p x b c).line m = s.line m := rfl
@[simp] theorem State.line_removeBooking (s : State) (x : Nat) (m : Bank) : (s.removeBooking x).line m = s.line m := rfl
@[simp] theorem State.line_removeTicket (s : State) (x : Badge) (m : Bank) : (s.removeTicket x).line m = s.line m := rfl
@[simp] theorem State.line_wakePorts (s : State) (m : Bank) : (s.wakePorts).line m = s.line m := rfl
@[simp] theorem State.line_answer (s : State) (p : PortNo) (x : Answer) (m : Bank) : (s.answer p x).line m = s.line m := rfl
@[simp] theorem State.line_answerTap (s : State) (p : PortNo) (x : Answer) (m : Bank) : (s.answerTap p x).line m = s.line m := rfl
@[simp] theorem State.line_readerHunt (s : State) (p : PortNo) (m : Bank) : (s.readerHunt p).line m = s.line m := rfl
@[simp] theorem State.line_reloadPort (s : State) (p : PortNo) (m : Bank) : (s.reloadPort p).line m = s.line m := rfl

@[simp] theorem State.car_setPending (s : State) (x : List Instr) (b0 : Bank) (c0 : CarNo) : (s.setPending x).car b0 c0 = s.car b0 c0 := rfl
@[simp] theorem State.car_setPart (s : State) (x : Part) (b0 : Bank) (c0 : CarNo) : (s.setPart x).car b0 c0 = s.car b0 c0 := rfl
@[simp] theorem State.car_setPins (s : State) (x : Pins) (b0 : Bank) (c0 : CarNo) : (s.setPins x).car b0 c0 = s.car b0 c0 := rfl
@[simp] theorem State.car_setStore (s : State) (x : StoreBlock) (b0 : Bank) (c0 : CarNo) : (s.setStore x).car b0 c0 = s.car b0 c0 := rfl
@[simp] theorem State.car_setPolicy (s : State) (x : Policy) (b0 : Bank) (c0 : CarNo) : (s.setPolicy x).car b0 c0 = s.car b0 c0 := rfl
@[simp] theorem State.car_setCalendar (s : State) (x : Calendar) (b0 : Bank) (c0 : CarNo) : (s.setCalendar x).car b0 c0 = s.car b0 c0 := rfl
@[simp] theorem State.car_setPorts (s : State) (x : Vector Port 16) (b0 : Bank) (c0 : CarNo) : (s.setPorts x).car b0 c0 = s.car b0 c0 := rfl
@[simp] theorem State.car_setEngine (s : State) (x : Engine) (b0 : Bank) (c0 : CarNo) : (s.setEngine x).car b0 c0 = s.car b0 c0 := rfl
@[simp] theorem State.car_setLines (s : State) (x : Vector Line 4) (b0 : Bank) (c0 : CarNo) : (s.setLines x).car b0 c0 = s.car b0 c0 := rfl
@[simp] theorem State.car_setHost (s : State) (x : HostPort) (b0 : Bank) (c0 : CarNo) : (s.setHost x).car b0 c0 = s.car b0 c0 := rfl
@[simp] theorem State.car_setFree (s : State) (x : Nat) (b0 : Bank) (c0 : CarNo) : (s.setFree x).car b0 c0 = s.car b0 c0 := rfl
@[simp] theorem State.car_setPort (s : State) (p : PortNo) (x : Port) (b0 : Bank) (c0 : CarNo) : (s.setPort p x).car b0 c0 = s.car b0 c0 := rfl
@[simp] theorem State.car_setLine (s : State) (l : Bank) (x : Line) (b0 : Bank) (c0 : CarNo) : (s.setLine l x).car b0 c0 = s.car b0 c0 := rfl
@[simp] theorem State.car_setFloor (s : State) (f : Floor) (x : FloorRec) (b0 : Bank) (c0 : CarNo) : (s.setFloor f x).car b0 c0 = s.car b0 c0 := rfl
@[simp] theorem State.car_setBank (s : State) (b : Bank) (x : BankRec) (b0 : Bank) (c0 : CarNo) : (s.setBank b x).car b0 c0 = s.car b0 c0 := rfl
@[simp] theorem State.car_setRequest (s : State) (x : RequestState) (b0 : Bank) (c0 : CarNo) : (s.setRequest x).car b0 c0 = s.car b0 c0 := rfl
@[simp] theorem State.car_reply (s : State) (ty tag : Byte) (st : ReplyStatus) (x : ReplyBody) (b0 : Bank) (c0 : CarNo) : (s.reply ty tag st x).car b0 c0 = s.car b0 c0 := rfl
@[simp] theorem State.car_post (s : State) (k : ReportClass) (x : ReportBody) (b0 : Bank) (c0 : CarNo) : (s.post k x).car b0 c0 = s.car b0 c0 := rfl
@[simp] theorem State.car_hostHunt (s : State) (b0 : Bank) (c0 : CarNo) : (s.hostHunt).car b0 c0 = s.car b0 c0 := rfl
@[simp] theorem State.car_choose (s : State) (b0 : Bank) (c0 : CarNo) : (s.choose).car b0 c0 = s.car b0 c0 := rfl
@[simp] theorem State.car_setTx (s : State) (x : Transmitter) (b0 : Bank) (c0 : CarNo) : (s.setTx x).car b0 c0 = s.car b0 c0 := rfl
@[simp] theorem State.car_setLrq (s : State) (l : Bank) (x : Bool) (b0 : Bank) (c0 : CarNo) : (s.setLrq l x).car b0 c0 = s.car b0 c0 := rfl
@[simp] theorem State.car_setRcl (s : State) (b : Bank) (x : Bool) (b0 : Bank) (c0 : CarNo) : (s.setRcl b x).car b0 c0 = s.car b0 c0 := rfl
@[simp] theorem State.car_applyJob (s : State) (x : Job) (b0 : Bank) (c0 : CarNo) : (s.applyJob x).car b0 c0 = s.car b0 c0 := rfl
@[simp] theorem State.car_engineIdle (s : State) (b0 : Bank) (c0 : CarNo) : (s.engineIdle).car b0 c0 = s.car b0 c0 := rfl
@[simp] theorem State.car_announceLeft (s : State) (p : PortNo) (x : Nat) (b0 : Bank) (c0 : CarNo) : (s.announceLeft p x).car b0 c0 = s.car b0 c0 := rfl
@[simp] theorem State.car_announceMoved (s : State) (p : PortNo) (x : Nat) (b : Bank) (c : CarNo) (b0 : Bank) (c0 : CarNo) : (s.announceMoved p x b c).car b0 c0 = s.car b0 c0 := rfl
@[simp] theorem State.car_wakePorts (s : State) (b0 : Bank) (c0 : CarNo) : (s.wakePorts).car b0 c0 = s.car b0 c0 := rfl
@[simp] theorem State.car_answer (s : State) (p : PortNo) (x : Answer) (b0 : Bank) (c0 : CarNo) : (s.answer p x).car b0 c0 = s.car b0 c0 := rfl
@[simp] theorem State.car_answerTap (s : State) (p : PortNo) (x : Answer) (b0 : Bank) (c0 : CarNo) : (s.answerTap p x).car b0 c0 = s.car b0 c0 := rfl
@[simp] theorem State.car_readerHunt (s : State) (p : PortNo) (b0 : Bank) (c0 : CarNo) : (s.readerHunt p).car b0 c0 = s.car b0 c0 := rfl
@[simp] theorem State.car_reloadPort (s : State) (p : PortNo) (b0 : Bank) (c0 : CarNo) : (s.reloadPort p).car b0 c0 = s.car b0 c0 := rfl

@[simp] theorem State.mode_setPending (s : State) (x : List Instr) (b0 : Bank) : (s.setPending x).mode b0 = s.mode b0 := rfl
@[simp] theorem State.mode_setPart (s : State) (x : Part) (b0 : Bank) : (s.setPart x).mode b0 = s.mode b0 := rfl
@[simp] theorem State.mode_setPins (s : State) (x : Pins) (b0 : Bank) : (s.setPins x).mode b0 = s.mode b0 := rfl
@[simp] theorem State.mode_setStore (s : State) (x : StoreBlock) (b0 : Bank) : (s.setStore x).mode b0 = s.mode b0 := rfl
@[simp] theorem State.mode_setPolicy (s : State) (x : Policy) (b0 : Bank) : (s.setPolicy x).mode b0 = s.mode b0 := rfl
@[simp] theorem State.mode_setCalendar (s : State) (x : Calendar) (b0 : Bank) : (s.setCalendar x).mode b0 = s.mode b0 := rfl
@[simp] theorem State.mode_setPorts (s : State) (x : Vector Port 16) (b0 : Bank) : (s.setPorts x).mode b0 = s.mode b0 := rfl
@[simp] theorem State.mode_setEngine (s : State) (x : Engine) (b0 : Bank) : (s.setEngine x).mode b0 = s.mode b0 := rfl
@[simp] theorem State.mode_setLines (s : State) (x : Vector Line 4) (b0 : Bank) : (s.setLines x).mode b0 = s.mode b0 := rfl
@[simp] theorem State.mode_setHost (s : State) (x : HostPort) (b0 : Bank) : (s.setHost x).mode b0 = s.mode b0 := rfl
@[simp] theorem State.mode_setFree (s : State) (x : Nat) (b0 : Bank) : (s.setFree x).mode b0 = s.mode b0 := rfl
@[simp] theorem State.mode_setPort (s : State) (p : PortNo) (x : Port) (b0 : Bank) : (s.setPort p x).mode b0 = s.mode b0 := rfl
@[simp] theorem State.mode_setLine (s : State) (l : Bank) (x : Line) (b0 : Bank) : (s.setLine l x).mode b0 = s.mode b0 := rfl
@[simp] theorem State.mode_setFloor (s : State) (f : Floor) (x : FloorRec) (b0 : Bank) : (s.setFloor f x).mode b0 = s.mode b0 := rfl
@[simp] theorem State.mode_setBank (s : State) (b : Bank) (x : BankRec) (b0 : Bank) : (s.setBank b x).mode b0 = s.mode b0 := rfl
@[simp] theorem State.mode_setRequest (s : State) (x : RequestState) (b0 : Bank) : (s.setRequest x).mode b0 = s.mode b0 := rfl
@[simp] theorem State.mode_reply (s : State) (ty tag : Byte) (st : ReplyStatus) (x : ReplyBody) (b0 : Bank) : (s.reply ty tag st x).mode b0 = s.mode b0 := rfl
@[simp] theorem State.mode_post (s : State) (k : ReportClass) (x : ReportBody) (b0 : Bank) : (s.post k x).mode b0 = s.mode b0 := rfl
@[simp] theorem State.mode_hostHunt (s : State) (b0 : Bank) : (s.hostHunt).mode b0 = s.mode b0 := rfl
@[simp] theorem State.mode_choose (s : State) (b0 : Bank) : (s.choose).mode b0 = s.mode b0 := rfl
@[simp] theorem State.mode_setTx (s : State) (x : Transmitter) (b0 : Bank) : (s.setTx x).mode b0 = s.mode b0 := rfl
@[simp] theorem State.mode_setLrq (s : State) (l : Bank) (x : Bool) (b0 : Bank) : (s.setLrq l x).mode b0 = s.mode b0 := rfl
@[simp] theorem State.mode_setRcl (s : State) (b : Bank) (x : Bool) (b0 : Bank) : (s.setRcl b x).mode b0 = s.mode b0 := rfl
@[simp] theorem State.mode_applyJob (s : State) (x : Job) (b0 : Bank) : (s.applyJob x).mode b0 = s.mode b0 := rfl
@[simp] theorem State.mode_engineIdle (s : State) (b0 : Bank) : (s.engineIdle).mode b0 = s.mode b0 := rfl
@[simp] theorem State.mode_announceLeft (s : State) (p : PortNo) (x : Nat) (b0 : Bank) : (s.announceLeft p x).mode b0 = s.mode b0 := rfl
@[simp] theorem State.mode_announceMoved (s : State) (p : PortNo) (x : Nat) (b : Bank) (c : CarNo) (b0 : Bank) : (s.announceMoved p x b c).mode b0 = s.mode b0 := rfl
@[simp] theorem State.mode_wakePorts (s : State) (b0 : Bank) : (s.wakePorts).mode b0 = s.mode b0 := rfl
@[simp] theorem State.mode_answer (s : State) (p : PortNo) (x : Answer) (b0 : Bank) : (s.answer p x).mode b0 = s.mode b0 := rfl
@[simp] theorem State.mode_answerTap (s : State) (p : PortNo) (x : Answer) (b0 : Bank) : (s.answerTap p x).mode b0 = s.mode b0 := rfl
@[simp] theorem State.mode_readerHunt (s : State) (p : PortNo) (b0 : Bank) : (s.readerHunt p).mode b0 = s.mode b0 := rfl
@[simp] theorem State.mode_reloadPort (s : State) (p : PortNo) (b0 : Bank) : (s.reloadPort p).mode b0 = s.mode b0 := rfl

@[simp] theorem State.bank_setPending (s : State) (x : List Instr) (b0 : Bank) : (s.setPending x).bank b0 = s.bank b0 := rfl
@[simp] theorem State.bank_setPart (s : State) (x : Part) (b0 : Bank) : (s.setPart x).bank b0 = s.bank b0 := rfl
@[simp] theorem State.bank_setPins (s : State) (x : Pins) (b0 : Bank) : (s.setPins x).bank b0 = s.bank b0 := rfl
@[simp] theorem State.bank_setStore (s : State) (x : StoreBlock) (b0 : Bank) : (s.setStore x).bank b0 = s.bank b0 := rfl
@[simp] theorem State.bank_setCalendar (s : State) (x : Calendar) (b0 : Bank) : (s.setCalendar x).bank b0 = s.bank b0 := rfl
@[simp] theorem State.bank_setPorts (s : State) (x : Vector Port 16) (b0 : Bank) : (s.setPorts x).bank b0 = s.bank b0 := rfl
@[simp] theorem State.bank_setEngine (s : State) (x : Engine) (b0 : Bank) : (s.setEngine x).bank b0 = s.bank b0 := rfl
@[simp] theorem State.bank_setDisp (s : State) (x : DispatchBlock) (b0 : Bank) : (s.setDisp x).bank b0 = s.bank b0 := rfl
@[simp] theorem State.bank_setLines (s : State) (x : Vector Line 4) (b0 : Bank) : (s.setLines x).bank b0 = s.bank b0 := rfl
@[simp] theorem State.bank_setHost (s : State) (x : HostPort) (b0 : Bank) : (s.setHost x).bank b0 = s.bank b0 := rfl
@[simp] theorem State.bank_setFree (s : State) (x : Nat) (b0 : Bank) : (s.setFree x).bank b0 = s.bank b0 := rfl
@[simp] theorem State.bank_setPort (s : State) (p : PortNo) (x : Port) (b0 : Bank) : (s.setPort p x).bank b0 = s.bank b0 := rfl
@[simp] theorem State.bank_setLine (s : State) (l : Bank) (x : Line) (b0 : Bank) : (s.setLine l x).bank b0 = s.bank b0 := rfl
@[simp] theorem State.bank_setCar (s : State) (b : Bank) (c : CarNo) (x : Car) (b0 : Bank) : (s.setCar b c x).bank b0 = s.bank b0 := rfl
@[simp] theorem State.bank_setBookings (s : State) (x : List Booking) (b0 : Bank) : (s.setBookings x).bank b0 = s.bank b0 := rfl
@[simp] theorem State.bank_setTickets (s : State) (x : List Ticket) (b0 : Bank) : (s.setTickets x).bank b0 = s.bank b0 := rfl
@[simp] theorem State.bank_setMode (s : State) (b : Bank) (x : BankMode) (b0 : Bank) : (s.setMode b x).bank b0 = s.bank b0 := rfl
@[simp] theorem State.bank_setRequest (s : State) (x : RequestState) (b0 : Bank) : (s.setRequest x).bank b0 = s.bank b0 := rfl
@[simp] theorem State.bank_reply (s : State) (ty tag : Byte) (st : ReplyStatus) (x : ReplyBody) (b0 : Bank) : (s.reply ty tag st x).bank b0 = s.bank b0 := rfl
@[simp] theorem State.bank_post (s : State) (k : ReportClass) (x : ReportBody) (b0 : Bank) : (s.post k x).bank b0 = s.bank b0 := rfl
@[simp] theorem State.bank_hostHunt (s : State) (b0 : Bank) : (s.hostHunt).bank b0 = s.bank b0 := rfl
@[simp] theorem State.bank_choose (s : State) (b0 : Bank) : (s.choose).bank b0 = s.bank b0 := rfl
@[simp] theorem State.bank_setTx (s : State) (x : Transmitter) (b0 : Bank) : (s.setTx x).bank b0 = s.bank b0 := rfl
@[simp] theorem State.bank_setLrq (s : State) (l : Bank) (x : Bool) (b0 : Bank) : (s.setLrq l x).bank b0 = s.bank b0 := rfl
@[simp] theorem State.bank_setRcl (s : State) (b : Bank) (x : Bool) (b0 : Bank) : (s.setRcl b x).bank b0 = s.bank b0 := rfl
@[simp] theorem State.bank_engineIdle (s : State) (b0 : Bank) : (s.engineIdle).bank b0 = s.bank b0 := rfl
@[simp] theorem State.bank_announceLeft (s : State) (p : PortNo) (x : Nat) (b0 : Bank) : (s.announceLeft p x).bank b0 = s.bank b0 := rfl
@[simp] theorem State.bank_announceMoved (s : State) (p : PortNo) (x : Nat) (b : Bank) (c : CarNo) (b0 : Bank) : (s.announceMoved p x b c).bank b0 = s.bank b0 := rfl
@[simp] theorem State.bank_removeBooking (s : State) (x : Nat) (b0 : Bank) : (s.removeBooking x).bank b0 = s.bank b0 := rfl
@[simp] theorem State.bank_removeTicket (s : State) (x : Badge) (b0 : Bank) : (s.removeTicket x).bank b0 = s.bank b0 := rfl
@[simp] theorem State.bank_wakePorts (s : State) (b0 : Bank) : (s.wakePorts).bank b0 = s.bank b0 := rfl
@[simp] theorem State.bank_answer (s : State) (p : PortNo) (x : Answer) (b0 : Bank) : (s.answer p x).bank b0 = s.bank b0 := rfl
@[simp] theorem State.bank_answerTap (s : State) (p : PortNo) (x : Answer) (b0 : Bank) : (s.answerTap p x).bank b0 = s.bank b0 := rfl
@[simp] theorem State.bank_readerHunt (s : State) (p : PortNo) (b0 : Bank) : (s.readerHunt p).bank b0 = s.bank b0 := rfl
@[simp] theorem State.bank_reloadPort (s : State) (p : PortNo) (b0 : Bank) : (s.reloadPort p).bank b0 = s.bank b0 := rfl

@[simp] theorem State.floor_setPending (s : State) (x : List Instr) (f0 : Floor) : (s.setPending x).floor f0 = s.floor f0 := rfl
@[simp] theorem State.floor_setPart (s : State) (x : Part) (f0 : Floor) : (s.setPart x).floor f0 = s.floor f0 := rfl
@[simp] theorem State.floor_setPins (s : State) (x : Pins) (f0 : Floor) : (s.setPins x).floor f0 = s.floor f0 := rfl
@[simp] theorem State.floor_setStore (s : State) (x : StoreBlock) (f0 : Floor) : (s.setStore x).floor f0 = s.floor f0 := rfl
@[simp] theorem State.floor_setCalendar (s : State) (x : Calendar) (f0 : Floor) : (s.setCalendar x).floor f0 = s.floor f0 := rfl
@[simp] theorem State.floor_setPorts (s : State) (x : Vector Port 16) (f0 : Floor) : (s.setPorts x).floor f0 = s.floor f0 := rfl
@[simp] theorem State.floor_setEngine (s : State) (x : Engine) (f0 : Floor) : (s.setEngine x).floor f0 = s.floor f0 := rfl
@[simp] theorem State.floor_setDisp (s : State) (x : DispatchBlock) (f0 : Floor) : (s.setDisp x).floor f0 = s.floor f0 := rfl
@[simp] theorem State.floor_setLines (s : State) (x : Vector Line 4) (f0 : Floor) : (s.setLines x).floor f0 = s.floor f0 := rfl
@[simp] theorem State.floor_setHost (s : State) (x : HostPort) (f0 : Floor) : (s.setHost x).floor f0 = s.floor f0 := rfl
@[simp] theorem State.floor_setFree (s : State) (x : Nat) (f0 : Floor) : (s.setFree x).floor f0 = s.floor f0 := rfl
@[simp] theorem State.floor_setPort (s : State) (p : PortNo) (x : Port) (f0 : Floor) : (s.setPort p x).floor f0 = s.floor f0 := rfl
@[simp] theorem State.floor_setLine (s : State) (l : Bank) (x : Line) (f0 : Floor) : (s.setLine l x).floor f0 = s.floor f0 := rfl
@[simp] theorem State.floor_setCar (s : State) (b : Bank) (c : CarNo) (x : Car) (f0 : Floor) : (s.setCar b c x).floor f0 = s.floor f0 := rfl
@[simp] theorem State.floor_setBookings (s : State) (x : List Booking) (f0 : Floor) : (s.setBookings x).floor f0 = s.floor f0 := rfl
@[simp] theorem State.floor_setTickets (s : State) (x : List Ticket) (f0 : Floor) : (s.setTickets x).floor f0 = s.floor f0 := rfl
@[simp] theorem State.floor_setMode (s : State) (b : Bank) (x : BankMode) (f0 : Floor) : (s.setMode b x).floor f0 = s.floor f0 := rfl
@[simp] theorem State.floor_setRequest (s : State) (x : RequestState) (f0 : Floor) : (s.setRequest x).floor f0 = s.floor f0 := rfl
@[simp] theorem State.floor_reply (s : State) (ty tag : Byte) (st : ReplyStatus) (x : ReplyBody) (f0 : Floor) : (s.reply ty tag st x).floor f0 = s.floor f0 := rfl
@[simp] theorem State.floor_post (s : State) (k : ReportClass) (x : ReportBody) (f0 : Floor) : (s.post k x).floor f0 = s.floor f0 := rfl
@[simp] theorem State.floor_hostHunt (s : State) (f0 : Floor) : (s.hostHunt).floor f0 = s.floor f0 := rfl
@[simp] theorem State.floor_choose (s : State) (f0 : Floor) : (s.choose).floor f0 = s.floor f0 := rfl
@[simp] theorem State.floor_setTx (s : State) (x : Transmitter) (f0 : Floor) : (s.setTx x).floor f0 = s.floor f0 := rfl
@[simp] theorem State.floor_setLrq (s : State) (l : Bank) (x : Bool) (f0 : Floor) : (s.setLrq l x).floor f0 = s.floor f0 := rfl
@[simp] theorem State.floor_setRcl (s : State) (b : Bank) (x : Bool) (f0 : Floor) : (s.setRcl b x).floor f0 = s.floor f0 := rfl
@[simp] theorem State.floor_engineIdle (s : State) (f0 : Floor) : (s.engineIdle).floor f0 = s.floor f0 := rfl
@[simp] theorem State.floor_announceLeft (s : State) (p : PortNo) (x : Nat) (f0 : Floor) : (s.announceLeft p x).floor f0 = s.floor f0 := rfl
@[simp] theorem State.floor_announceMoved (s : State) (p : PortNo) (x : Nat) (b : Bank) (c : CarNo) (f0 : Floor) : (s.announceMoved p x b c).floor f0 = s.floor f0 := rfl
@[simp] theorem State.floor_removeBooking (s : State) (x : Nat) (f0 : Floor) : (s.removeBooking x).floor f0 = s.floor f0 := rfl
@[simp] theorem State.floor_removeTicket (s : State) (x : Badge) (f0 : Floor) : (s.removeTicket x).floor f0 = s.floor f0 := rfl
@[simp] theorem State.floor_wakePorts (s : State) (f0 : Floor) : (s.wakePorts).floor f0 = s.floor f0 := rfl
@[simp] theorem State.floor_answer (s : State) (p : PortNo) (x : Answer) (f0 : Floor) : (s.answer p x).floor f0 = s.floor f0 := rfl
@[simp] theorem State.floor_answerTap (s : State) (p : PortNo) (x : Answer) (f0 : Floor) : (s.answerTap p x).floor f0 = s.floor f0 := rfl
@[simp] theorem State.floor_readerHunt (s : State) (p : PortNo) (f0 : Floor) : (s.readerHunt p).floor f0 = s.floor f0 := rfl
@[simp] theorem State.floor_reloadPort (s : State) (p : PortNo) (f0 : Floor) : (s.reloadPort p).floor f0 = s.floor f0 := rfl

@[simp] theorem State.reader_setPending (s : State) (x : List Instr) (q : PortNo) : (s.setPending x).reader q = s.reader q := rfl
@[simp] theorem State.reader_setPart (s : State) (x : Part) (q : PortNo) : (s.setPart x).reader q = s.reader q := rfl
@[simp] theorem State.reader_setPins (s : State) (x : Pins) (q : PortNo) : (s.setPins x).reader q = s.reader q := rfl
@[simp] theorem State.reader_setStore (s : State) (x : StoreBlock) (q : PortNo) : (s.setStore x).reader q = s.reader q := rfl
@[simp] theorem State.reader_setCalendar (s : State) (x : Calendar) (q : PortNo) : (s.setCalendar x).reader q = s.reader q := rfl
@[simp] theorem State.reader_setPorts (s : State) (x : Vector Port 16) (q : PortNo) : (s.setPorts x).reader q = s.reader q := rfl
@[simp] theorem State.reader_setEngine (s : State) (x : Engine) (q : PortNo) : (s.setEngine x).reader q = s.reader q := rfl
@[simp] theorem State.reader_setDisp (s : State) (x : DispatchBlock) (q : PortNo) : (s.setDisp x).reader q = s.reader q := rfl
@[simp] theorem State.reader_setLines (s : State) (x : Vector Line 4) (q : PortNo) : (s.setLines x).reader q = s.reader q := rfl
@[simp] theorem State.reader_setHost (s : State) (x : HostPort) (q : PortNo) : (s.setHost x).reader q = s.reader q := rfl
@[simp] theorem State.reader_setFree (s : State) (x : Nat) (q : PortNo) : (s.setFree x).reader q = s.reader q := rfl
@[simp] theorem State.reader_setPort (s : State) (p : PortNo) (x : Port) (q : PortNo) : (s.setPort p x).reader q = s.reader q := rfl
@[simp] theorem State.reader_setLine (s : State) (l : Bank) (x : Line) (q : PortNo) : (s.setLine l x).reader q = s.reader q := rfl
@[simp] theorem State.reader_setCar (s : State) (b : Bank) (c : CarNo) (x : Car) (q : PortNo) : (s.setCar b c x).reader q = s.reader q := rfl
@[simp] theorem State.reader_setBookings (s : State) (x : List Booking) (q : PortNo) : (s.setBookings x).reader q = s.reader q := rfl
@[simp] theorem State.reader_setTickets (s : State) (x : List Ticket) (q : PortNo) : (s.setTickets x).reader q = s.reader q := rfl
@[simp] theorem State.reader_setMode (s : State) (b : Bank) (x : BankMode) (q : PortNo) : (s.setMode b x).reader q = s.reader q := rfl
@[simp] theorem State.reader_setRequest (s : State) (x : RequestState) (q : PortNo) : (s.setRequest x).reader q = s.reader q := rfl
@[simp] theorem State.reader_reply (s : State) (ty tag : Byte) (st : ReplyStatus) (x : ReplyBody) (q : PortNo) : (s.reply ty tag st x).reader q = s.reader q := rfl
@[simp] theorem State.reader_post (s : State) (k : ReportClass) (x : ReportBody) (q : PortNo) : (s.post k x).reader q = s.reader q := rfl
@[simp] theorem State.reader_hostHunt (s : State) (q : PortNo) : (s.hostHunt).reader q = s.reader q := rfl
@[simp] theorem State.reader_choose (s : State) (q : PortNo) : (s.choose).reader q = s.reader q := rfl
@[simp] theorem State.reader_setTx (s : State) (x : Transmitter) (q : PortNo) : (s.setTx x).reader q = s.reader q := rfl
@[simp] theorem State.reader_setLrq (s : State) (l : Bank) (x : Bool) (q : PortNo) : (s.setLrq l x).reader q = s.reader q := rfl
@[simp] theorem State.reader_setRcl (s : State) (b : Bank) (x : Bool) (q : PortNo) : (s.setRcl b x).reader q = s.reader q := rfl
@[simp] theorem State.reader_engineIdle (s : State) (q : PortNo) : (s.engineIdle).reader q = s.reader q := rfl
@[simp] theorem State.reader_announceLeft (s : State) (p : PortNo) (x : Nat) (q : PortNo) : (s.announceLeft p x).reader q = s.reader q := rfl
@[simp] theorem State.reader_announceMoved (s : State) (p : PortNo) (x : Nat) (b : Bank) (c : CarNo) (q : PortNo) : (s.announceMoved p x b c).reader q = s.reader q := rfl
@[simp] theorem State.reader_removeBooking (s : State) (x : Nat) (q : PortNo) : (s.removeBooking x).reader q = s.reader q := rfl
@[simp] theorem State.reader_removeTicket (s : State) (x : Badge) (q : PortNo) : (s.removeTicket x).reader q = s.reader q := rfl
@[simp] theorem State.reader_wakePorts (s : State) (q : PortNo) : (s.wakePorts).reader q = s.reader q := rfl
@[simp] theorem State.reader_answer (s : State) (p : PortNo) (x : Answer) (q : PortNo) : (s.answer p x).reader q = s.reader q := rfl
@[simp] theorem State.reader_answerTap (s : State) (p : PortNo) (x : Answer) (q : PortNo) : (s.answerTap p x).reader q = s.reader q := rfl
@[simp] theorem State.reader_readerHunt (s : State) (p : PortNo) (q : PortNo) : (s.readerHunt p).reader q = s.reader q := rfl
@[simp] theorem State.reader_reloadPort (s : State) (p : PortNo) (q : PortNo) : (s.reloadPort p).reader q = s.reader q := rfl

@[simp] theorem State.now_setPending (s : State) (x : List Instr) : (s.setPending x).now = s.now := rfl
@[simp] theorem State.now_setPins (s : State) (x : Pins) : (s.setPins x).now = s.now := rfl
@[simp] theorem State.now_setStore (s : State) (x : StoreBlock) : (s.setStore x).now = s.now := rfl
@[simp] theorem State.now_setPolicy (s : State) (x : Policy) : (s.setPolicy x).now = s.now := rfl
@[simp] theorem State.now_setCalendar (s : State) (x : Calendar) : (s.setCalendar x).now = s.now := rfl
@[simp] theorem State.now_setPorts (s : State) (x : Vector Port 16) : (s.setPorts x).now = s.now := rfl
@[simp] theorem State.now_setEngine (s : State) (x : Engine) : (s.setEngine x).now = s.now := rfl
@[simp] theorem State.now_setDisp (s : State) (x : DispatchBlock) : (s.setDisp x).now = s.now := rfl
@[simp] theorem State.now_setLines (s : State) (x : Vector Line 4) : (s.setLines x).now = s.now := rfl
@[simp] theorem State.now_setHost (s : State) (x : HostPort) : (s.setHost x).now = s.now := rfl
@[simp] theorem State.now_setFree (s : State) (x : Nat) : (s.setFree x).now = s.now := rfl
@[simp] theorem State.now_setPort (s : State) (p : PortNo) (x : Port) : (s.setPort p x).now = s.now := rfl
@[simp] theorem State.now_setLine (s : State) (l : Bank) (x : Line) : (s.setLine l x).now = s.now := rfl
@[simp] theorem State.now_setCar (s : State) (b : Bank) (c : CarNo) (x : Car) : (s.setCar b c x).now = s.now := rfl
@[simp] theorem State.now_setBookings (s : State) (x : List Booking) : (s.setBookings x).now = s.now := rfl
@[simp] theorem State.now_setTickets (s : State) (x : List Ticket) : (s.setTickets x).now = s.now := rfl
@[simp] theorem State.now_setMode (s : State) (b : Bank) (x : BankMode) : (s.setMode b x).now = s.now := rfl
@[simp] theorem State.now_setFloor (s : State) (f : Floor) (x : FloorRec) : (s.setFloor f x).now = s.now := rfl
@[simp] theorem State.now_setBank (s : State) (b : Bank) (x : BankRec) : (s.setBank b x).now = s.now := rfl
@[simp] theorem State.now_setRequest (s : State) (x : RequestState) : (s.setRequest x).now = s.now := rfl
@[simp] theorem State.now_reply (s : State) (ty tag : Byte) (st : ReplyStatus) (x : ReplyBody) : (s.reply ty tag st x).now = s.now := rfl
@[simp] theorem State.now_post (s : State) (k : ReportClass) (x : ReportBody) : (s.post k x).now = s.now := rfl
@[simp] theorem State.now_hostHunt (s : State) : (s.hostHunt).now = s.now := rfl
@[simp] theorem State.now_choose (s : State) : (s.choose).now = s.now := rfl
@[simp] theorem State.now_setTx (s : State) (x : Transmitter) : (s.setTx x).now = s.now := rfl
@[simp] theorem State.now_setLrq (s : State) (l : Bank) (x : Bool) : (s.setLrq l x).now = s.now := rfl
@[simp] theorem State.now_setRcl (s : State) (b : Bank) (x : Bool) : (s.setRcl b x).now = s.now := rfl
@[simp] theorem State.now_applyJob (s : State) (x : Job) : (s.applyJob x).now = s.now := rfl
@[simp] theorem State.now_engineIdle (s : State) : (s.engineIdle).now = s.now := rfl
@[simp] theorem State.now_announceLeft (s : State) (p : PortNo) (x : Nat) : (s.announceLeft p x).now = s.now := rfl
@[simp] theorem State.now_announceMoved (s : State) (p : PortNo) (x : Nat) (b : Bank) (c : CarNo) : (s.announceMoved p x b c).now = s.now := rfl
@[simp] theorem State.now_removeBooking (s : State) (x : Nat) : (s.removeBooking x).now = s.now := rfl
@[simp] theorem State.now_removeTicket (s : State) (x : Badge) : (s.removeTicket x).now = s.now := rfl
@[simp] theorem State.now_wakePorts (s : State) : (s.wakePorts).now = s.now := rfl
@[simp] theorem State.now_answer (s : State) (p : PortNo) (x : Answer) : (s.answer p x).now = s.now := rfl
@[simp] theorem State.now_answerTap (s : State) (p : PortNo) (x : Answer) : (s.answerTap p x).now = s.now := rfl
@[simp] theorem State.now_readerHunt (s : State) (p : PortNo) : (s.readerHunt p).now = s.now := rfl
@[simp] theorem State.now_reloadPort (s : State) (p : PortNo) : (s.reloadPort p).now = s.now := rfl

@[simp] theorem State.running_setPending (s : State) (x : List Instr) : (s.setPending x).running = s.running := rfl
@[simp] theorem State.running_setPins (s : State) (x : Pins) : (s.setPins x).running = s.running := rfl
@[simp] theorem State.running_setStore (s : State) (x : StoreBlock) : (s.setStore x).running = s.running := rfl
@[simp] theorem State.running_setPolicy (s : State) (x : Policy) : (s.setPolicy x).running = s.running := rfl
@[simp] theorem State.running_setCalendar (s : State) (x : Calendar) : (s.setCalendar x).running = s.running := rfl
@[simp] theorem State.running_setPorts (s : State) (x : Vector Port 16) : (s.setPorts x).running = s.running := rfl
@[simp] theorem State.running_setEngine (s : State) (x : Engine) : (s.setEngine x).running = s.running := rfl
@[simp] theorem State.running_setDisp (s : State) (x : DispatchBlock) : (s.setDisp x).running = s.running := rfl
@[simp] theorem State.running_setLines (s : State) (x : Vector Line 4) : (s.setLines x).running = s.running := rfl
@[simp] theorem State.running_setHost (s : State) (x : HostPort) : (s.setHost x).running = s.running := rfl
@[simp] theorem State.running_setFree (s : State) (x : Nat) : (s.setFree x).running = s.running := rfl
@[simp] theorem State.running_setPort (s : State) (p : PortNo) (x : Port) : (s.setPort p x).running = s.running := rfl
@[simp] theorem State.running_setLine (s : State) (l : Bank) (x : Line) : (s.setLine l x).running = s.running := rfl
@[simp] theorem State.running_setCar (s : State) (b : Bank) (c : CarNo) (x : Car) : (s.setCar b c x).running = s.running := rfl
@[simp] theorem State.running_setBookings (s : State) (x : List Booking) : (s.setBookings x).running = s.running := rfl
@[simp] theorem State.running_setTickets (s : State) (x : List Ticket) : (s.setTickets x).running = s.running := rfl
@[simp] theorem State.running_setMode (s : State) (b : Bank) (x : BankMode) : (s.setMode b x).running = s.running := rfl
@[simp] theorem State.running_setFloor (s : State) (f : Floor) (x : FloorRec) : (s.setFloor f x).running = s.running := rfl
@[simp] theorem State.running_setBank (s : State) (b : Bank) (x : BankRec) : (s.setBank b x).running = s.running := rfl
@[simp] theorem State.running_setRequest (s : State) (x : RequestState) : (s.setRequest x).running = s.running := rfl
@[simp] theorem State.running_reply (s : State) (ty tag : Byte) (st : ReplyStatus) (x : ReplyBody) : (s.reply ty tag st x).running = s.running := rfl
@[simp] theorem State.running_post (s : State) (k : ReportClass) (x : ReportBody) : (s.post k x).running = s.running := rfl
@[simp] theorem State.running_hostHunt (s : State) : (s.hostHunt).running = s.running := rfl
@[simp] theorem State.running_choose (s : State) : (s.choose).running = s.running := rfl
@[simp] theorem State.running_setTx (s : State) (x : Transmitter) : (s.setTx x).running = s.running := rfl
@[simp] theorem State.running_setLrq (s : State) (l : Bank) (x : Bool) : (s.setLrq l x).running = s.running := rfl
@[simp] theorem State.running_setRcl (s : State) (b : Bank) (x : Bool) : (s.setRcl b x).running = s.running := rfl
@[simp] theorem State.running_applyJob (s : State) (x : Job) : (s.applyJob x).running = s.running := rfl
@[simp] theorem State.running_engineIdle (s : State) : (s.engineIdle).running = s.running := rfl
@[simp] theorem State.running_announceLeft (s : State) (p : PortNo) (x : Nat) : (s.announceLeft p x).running = s.running := rfl
@[simp] theorem State.running_announceMoved (s : State) (p : PortNo) (x : Nat) (b : Bank) (c : CarNo) : (s.announceMoved p x b c).running = s.running := rfl
@[simp] theorem State.running_removeBooking (s : State) (x : Nat) : (s.removeBooking x).running = s.running := rfl
@[simp] theorem State.running_removeTicket (s : State) (x : Badge) : (s.removeTicket x).running = s.running := rfl
@[simp] theorem State.running_wakePorts (s : State) : (s.wakePorts).running = s.running := rfl
@[simp] theorem State.running_answer (s : State) (p : PortNo) (x : Answer) : (s.answer p x).running = s.running := rfl
@[simp] theorem State.running_answerTap (s : State) (p : PortNo) (x : Answer) : (s.answerTap p x).running = s.running := rfl
@[simp] theorem State.running_readerHunt (s : State) (p : PortNo) : (s.readerHunt p).running = s.running := rfl
@[simp] theorem State.running_reloadPort (s : State) (p : PortNo) : (s.reloadPort p).running = s.running := rfl

end Sys2Proof.Machine
end

