-- ==== Sys2Proof/Laws/Frames.lean ====
section
/-! SUPPORT. Which blocks each shared operation may change, said once for each. -/

namespace Sys2Proof.Machine

-- One proof at a time: many waiting side by side outrun the checker's memory.
set_option Elab.async false

theorem State.changesOnly.refl (s : State) (bs : List Block) : s.changesOnly bs s := by
  intro b _; cases b <;> rfl

theorem State.changesOnly.trans {s t u : State} {bs : List Block} (h : s.changesOnly bs t) (g : t.changesOnly bs u) :
    s.changesOnly bs u := by
  intro b hb
  have h1 := h b hb
  have h2 := g b hb
  cases b <;> exact h2.trans h1

theorem State.changesOnly.mono {s t : State} {bs cs : List Block} (h : s.changesOnly bs t)
    (hs : bs ⊆ cs := by first | decide | (simp only [blocksOf]; decide)) : s.changesOnly cs t := fun b hb => h b fun hm => hb (hs hm)

/-- One more operation, which changes blocks among those allowed. -/
theorem State.changesOnly.step {s t u : State} {bs cs : List Block} (g : t.changesOnly cs u)
    (h : s.changesOnly bs t) (hs : cs ⊆ bs := by first | decide | (simp only [blocksOf]; decide)) : s.changesOnly bs u := h.trans (g.mono hs)

theorem State.changesOnly.ite {p : Prop} [Decidable p] {s t u : State} {bs : List Block} (h : s.changesOnly bs t)
    (g : s.changesOnly bs u) : s.changesOnly bs (if p then t else u) := by
  split <;> assumption

/-- A list of operations of one kind. -/
theorem State.changesOnly.foldl {α : Type} {s t : State} {bs : List Block} {f : State → α → State} {xs : List α}
    (hf : ∀ u x, s.changesOnly bs u → s.changesOnly bs (f u x)) (h : s.changesOnly bs t) :
    s.changesOnly bs (xs.foldl f t) := by
  induction xs generalizing t with
  | nil => exact h
  | cons x xs ih => exact ih (hf t x h)

/-! ### The setters -/

theorem State.setPart_only (s : State) (x : Part) : s.changesOnly [.part] (s.setPart x) := by
  intro b hb; cases b <;> first | rfl | exact absurd (by simp) hb

theorem State.setPins_only (s : State) (x : Pins) : s.changesOnly [.pins] (s.setPins x) := by
  intro b hb; cases b <;> first | rfl | exact absurd (by simp) hb

theorem State.setStore_only (s : State) (x : StoreBlock) : s.changesOnly [.store] (s.setStore x) := by
  intro b hb; cases b <;> first | rfl | exact absurd (by simp) hb

theorem State.setPolicy_only (s : State) (x : Policy) : s.changesOnly [.policy] (s.setPolicy x) := by
  intro b hb; cases b <;> first | rfl | exact absurd (by simp) hb

theorem State.setCalendar_only (s : State) (x : Calendar) : s.changesOnly [.calendar] (s.setCalendar x) := by
  intro b hb; cases b <;> first | rfl | exact absurd (by simp) hb

theorem State.setPorts_only (s : State) (x : Vector Port 16) : s.changesOnly [.ports] (s.setPorts x) := by
  intro b hb; cases b <;> first | rfl | exact absurd (by simp) hb

theorem State.setEngine_only (s : State) (x : Engine) : s.changesOnly [.engine] (s.setEngine x) := by
  intro b hb; cases b <;> first | rfl | exact absurd (by simp) hb

theorem State.setDisp_only (s : State) (x : DispatchBlock) : s.changesOnly [.disp] (s.setDisp x) := by
  intro b hb; cases b <;> first | rfl | exact absurd (by simp) hb

theorem State.setLines_only (s : State) (x : Vector Line 4) : s.changesOnly [.lines] (s.setLines x) := by
  intro b hb; cases b <;> first | rfl | exact absurd (by simp) hb

theorem State.setHost_only (s : State) (x : HostPort) : s.changesOnly [.host] (s.setHost x) := by
  intro b hb; cases b <;> first | rfl | exact absurd (by simp) hb

theorem State.setFree_only (s : State) (x : Nat) : s.changesOnly [.freeCount] (s.setFree x) := by
  intro b hb; cases b <;> first | rfl | exact absurd (by simp) hb

theorem State.setPort_only (s : State) (p : PortNo) (x : Port) : s.changesOnly [.ports] (s.setPort p x) :=
  s.setPorts_only _

theorem State.setLine_only (s : State) (l : Bank) (x : Line) : s.changesOnly [.lines] (s.setLine l x) :=
  s.setLines_only _

theorem State.setCar_only (s : State) (b : Bank) (c : CarNo) (x : Car) : s.changesOnly [.disp] (s.setCar b c x) :=
  s.setDisp_only _

theorem State.post_only (s : State) (k : ReportClass) (x : ReportBody) : s.changesOnly [.host] (s.post k x) :=
  s.setHost_only _

theorem State.choose_only (s : State) : s.changesOnly [.host] s.choose := s.setHost_only _

/-! ### The dispatch operations, less the close: tables, ports and reports -/

/-- What an event of the Dispatch Engine reaches before its close. -/
def eventBlocks : List Block := [.disp, .ports, .host]

theorem State.resync_only (s : State) (b : Bank) (c : CarNo) (ks : List Key) : s.changesOnly [.disp] (s.resync b c ks) :=
  s.setDisp_only _

theorem State.resyncKeep_only (s : State) (b : Bank) (c : CarNo) : s.changesOnly [.disp] (s.resyncKeep b c) :=
  s.setDisp_only _

theorem State.formEnabled_only (s : State) (b : Bank) (c : CarNo) : s.changesOnly [.disp] (s.formEnabled b c) := by
  unfold State.formEnabled
  exact .ite (s.setCar_only _ _ _) (.step (State.resync_only _ _ _ _) (s.setCar_only _ _ _))

theorem State.formBank_only (s : State) (b : Bank) : s.changesOnly [.disp] (s.formBank b) :=
  .foldl (fun _ _ h => .ite (.step (State.formEnabled_only _ _ _) h) h) (.refl _ _)

theorem State.dropFirstLegTicket_only (s : State) (k : Booking) : s.changesOnly [.disp] (s.dropFirstLegTicket k) := by
  unfold State.dropFirstLegTicket
  exact .ite (s.setDisp_only _) (.refl _ _)

theorem State.clearFirstLeg_only (s : State) (k : Booking) : s.changesOnly [.disp] (s.clearFirstLeg k) := by
  unfold State.clearFirstLeg
  exact .ite (s.setDisp_only _) (.refl _ _)

theorem State.removeBooking_only (s : State) (i : Nat) : s.changesOnly [.disp] (s.removeBooking i) := s.setDisp_only _

theorem State.setBookings_only (s : State) (x : List Booking) : s.changesOnly [.disp] (s.setBookings x) :=
  s.setDisp_only _

theorem State.setTickets_only (s : State) (x : List Ticket) : s.changesOnly [.disp] (s.setTickets x) := s.setDisp_only _

theorem State.setMode_only (s : State) (b : Bank) (x : BankMode) : s.changesOnly [.disp] (s.setMode b x) :=
  s.setDisp_only _

theorem State.announceLeft_only (s : State) (p : PortNo) (i : Nat) : s.changesOnly [.ports] (s.announceLeft p i) :=
  s.setPorts_only _

theorem State.announceMoved_only (s : State) (p : PortNo) (i : Nat) (b : Bank) (c : CarNo) :
    s.changesOnly [.ports] (s.announceMoved p i b c) := s.setPorts_only _

theorem State.cancel_only (s : State) (r : CancelReason) (k : Booking) : s.changesOnly eventBlocks (s.cancel r k) := by
  unfold State.cancel
  refine .step (State.post_only _ _ _) (.step (State.dropFirstLegTicket_only _ _) ?_)
  cases k.state
  · exact .step (State.announceLeft_only _ _ _) (.step (State.resyncKeep_only _ _ _)
      (.step (State.removeBooking_only _ _) (.refl _ _)))
  · exact .step (State.formEnabled_only _ _ _) (.step (State.resyncKeep_only _ _ _)
      (.step (State.removeBooking_only _ _) (.refl _ _)))

theorem State.cancelAll_only (s : State) (r : CancelReason) (ks : List Booking) :
    s.changesOnly eventBlocks (s.cancelAll r ks) := .foldl (fun _ _ h => .step (State.cancel_only _ _ _) h) (.refl _ _)

theorem State.place_only (s : State) (k : Booking) : s.changesOnly [.disp] (s.place k) :=
  .step (State.resyncKeep_only _ _ _) (s.setBookings_only _)

theorem State.moveBooking_only (s : State) (k : Booking) : s.changesOnly eventBlocks (s.moveBooking k) := by
  unfold State.moveBooking
  simp only
  split
  · exact s.cancel_only _ _
  · exact .step (State.announceMoved_only _ _ _ _ _) (.step (State.resyncKeep_only _ _ _)
      (.step (State.setBookings_only _ _) (.step (State.resyncKeep_only _ _ _)
        (.step (State.removeBooking_only _ _) (.refl _ _)))))

theorem State.loseCar_only (s : State) (b : Bank) (c : CarNo) : s.changesOnly eventBlocks (s.loseCar b c) :=
  .foldl (fun _ _ h => .step (State.moveBooking_only _ _) h) (.refl _ _)

theorem State.reportService_only (s : State) (b : Bank) (c : CarNo) (old new : Service) :
    s.changesOnly [.host] (s.reportService b c old new) := by
  unfold State.reportService
  exact .ite (.refl _ _) (s.post_only _ _)

theorem State.setService_only (s : State) (b : Bank) (c : CarNo) (new : Service) :
    s.changesOnly eventBlocks (s.setService b c new) := by
  unfold State.setService
  exact .ite (.step (State.loseCar_only _ _ _) (.step (State.setCar_only _ _ _ _) (.refl _ _)))
    (.step (State.setCar_only _ _ _ _) (.refl _ _))

theorem State.bookingDone_only (s : State) (k : Booking) : s.changesOnly [.disp] (s.bookingDone k) :=
  .step (State.clearFirstLeg_only _ _) (s.removeBooking_only _)

theorem State.board_only (s : State) (k : Booking) : s.changesOnly eventBlocks (s.board k) :=
  .step (State.announceLeft_only _ _ _) (.step (State.setBookings_only _ _) (.refl _ _))

theorem State.serveFloor_only (s : State) (b : Bank) (c : CarNo) (st : Status) :
    s.changesOnly eventBlocks (s.serveFloor b c st) := by
  unfold State.serveFloor
  exact .step (State.resync_only _ _ _ _) (.foldl (fun _ _ h => .step (State.board_only _ _) h)
    (.foldl (fun _ _ h => .step (State.bookingDone_only _ _) h) (.refl _ _)))

theorem State.takeCall_only (s : State) (b : Bank) (c : CarNo) (k : Key) : s.changesOnly [.disp] (s.takeCall b c k) := by
  unfold State.takeCall
  exact .ite (s.resync_only _ _ _) (.refl _ _)

theorem State.takeCalls_only (b : Bank) (c : CarNo) (p : Floor) (fs seen : List Floor) (s : State) :
    s.changesOnly [.disp] (s.takeCalls b c p seen fs) := by
  induction fs generalizing s seen with
  | nil => exact .refl _ _
  | cons f fs ih =>
    unfold State.takeCalls
    exact .ite (ih _ _) ((s.takeCall_only _ _ _).trans (ih _ _))

theorem State.statusEvent_only (s : State) (b : Bank) (c : CarNo) (k : CommandKind) (st : Status) :
    s.changesOnly eventBlocks (s.statusEvent b c k st) := by
  unfold State.statusEvent
  simp only
  refine .step (State.reportService_only _ _ _ _ _) (.step (State.formEnabled_only _ _ _) ?_)
  have h : ∀ {u : State}, s.changesOnly eventBlocks u →
      s.changesOnly eventBlocks (if st.fresh then u.takeCalls b c st.position [] st.calls else u) := fun g =>
    .ite (.step (State.takeCalls_only _ _ _ _ _ _) g) g
  refine h ?_
  exact .ite
    (.step (State.serveFloor_only _ _ _ _) (.step (State.setCar_only _ _ _ _) (.step (State.setService_only _ _ _ _)
      (.step (State.setCar_only _ _ _ _) (.refl _ _)))))
    (.step (State.setCar_only _ _ _ _) (.step (State.setService_only _ _ _ _)
      (.step (State.setCar_only _ _ _ _) (.refl _ _))))

theorem State.takeStatus_only (s : State) (b : Bank) (c : CarNo) (k : CommandKind) (st : Status) :
    s.changesOnly eventBlocks (s.takeStatus b c k st) := by
  unfold State.takeStatus
  exact .ite (s.statusEvent_only _ _ _ _) (.refl _ _)

theorem State.closeCars_only (s0 s : State) : s.changesOnly [.disp, .lines] (s0.closeCars s) :=
  .foldl (fun _ _ h => .step (State.setLine_only _ _ _) (.step (State.setCar_only _ _ _ _) h)) (.refl _ _)

/-! ### Modes, floors and withdrawals -/

theorem State.eachConfigured_only (s : State) (b : Bank) (f : Car → Car) :
    s.changesOnly [.disp] (s.eachConfigured b f) :=
  .foldl (fun _ _ h => .ite (.step (State.setCar_only _ _ _ _) h) h) (.refl _ _)

theorem State.clearBank_only (s : State) (b : Bank) (r : CancelReason) : s.changesOnly eventBlocks (s.clearBank b r) := by
  unfold State.clearBank
  exact .step (State.eachConfigured_only _ _ _) (.step (State.setTickets_only _ _)
    (.step (State.cancelAll_only _ _ _) (.refl _ _)))

theorem State.leaveFire_only (s : State) (b : Bank) : s.changesOnly [.disp] (s.leaveFire b) :=
  .step (State.formBank_only _ _) (s.eachConfigured_only _ _)

theorem State.modeEffects_only (s : State) (b : Bank) (old new : BankMode) :
    s.changesOnly eventBlocks (s.modeEffects b old new) := by
  unfold State.modeEffects
  have h : s.changesOnly eventBlocks (if old = .fireRecall then s.leaveFire b else s) :=
    .ite (.step (State.leaveFire_only _ _) (.refl _ _)) (.refl _ _)
  cases new
  · exact .step (State.formBank_only _ _) (.step (State.clearBank_only _ _ _) h)
  · exact h
  · exact h
  · exact h
  · exact .step (State.eachConfigured_only _ _ _) (.step (State.clearBank_only _ _ _) h)

theorem State.changeMode_only (s : State) (b : Bank) (new : BankMode) (i : Bool) :
    s.changesOnly eventBlocks (s.changeMode b new i) := by
  unfold State.changeMode
  split
  · exact .refl _ _
  · exact .step (State.post_only _ _ _) (.step (State.modeEffects_only _ _ _ _)
      (.step (State.setMode_only _ _ _) (.refl _ _)))

/-- The blocks that a completed policy program reaches before the close. -/
def policyBlocks : List Block := [.policy, .disp, .ports, .host]

theorem State.setFloor_only (s : State) (f : Floor) (x : FloorRec) : s.changesOnly [.policy] (s.setFloor f x) :=
  s.setPolicy_only _

theorem State.setBank_only (s : State) (b : Bank) (x : BankRec) : s.changesOnly [.policy] (s.setBank b x) :=
  s.setPolicy_only _

theorem State.applyJob_only (s : State) (j : Job) : s.changesOnly [.policy] (s.applyJob j) := s.setPolicy_only _

theorem State.changeFloors_only (s : State) (rs : List (Floor × FloorRec)) :
    s.changesOnly policyBlocks (s.changeFloors rs) := by
  unfold State.changeFloors
  simp only
  exact .foldl (fun _ _ h => .ite (.step (State.formBank_only _ _) h) h) (.step (State.cancelAll_only _ _ _)
    (.foldl (fun _ _ h => .step (State.setFloor_only _ _ _) h) (.refl _ _)))

theorem State.recount_only (s : State) (b : Bank) : s.changesOnly [.disp] (s.recount b) := by
  refine .foldl (fun u c h => ?_) (.refl _ _)
  unfold State.recountCar
  simp only
  exact .ite (.ite h (.step (State.formEnabled_only _ _ _) (.step (State.setCar_only _ _ _ _) h)))
    (.ite (.step (State.setCar_only _ _ _ _) h) h)

theorem State.withdrawCar_only (s : State) (b : Bank) (c : CarNo) (w : Bool) :
    s.changesOnly eventBlocks (s.withdrawCar b c w) := by
  unfold State.withdrawCar
  simp only
  split
  · exact .refl _ _
  · exact .step (State.reportService_only _ _ _ _ _) (s.setService_only _ _ _)

theorem State.changeWithdrawn_only (s : State) (b : Bank) (c : CarNo) (w : Bool) :
    s.changesOnly policyBlocks (s.changeWithdrawn b c w) := by
  unfold State.changeWithdrawn
  simp only
  exact .ite (.refl _ _) (.step (State.withdrawCar_only _ _ _ _) (.step (State.setBank_only _ _ _) (.refl _ _)))

theorem State.modeCompleted_only (s : State) (b : Bank) (m : BankMode) :
    s.changesOnly eventBlocks (s.modeCompleted b m) := by
  unfold State.modeCompleted
  exact .ite (.refl _ _) (.ite (.refl _ _) (s.changeMode_only _ _ _))

theorem State.restoreAll_only (s : State) (b : Bank) : s.changesOnly eventBlocks (s.restoreAll b) :=
  .foldl (fun _ _ h => .ite (.step (State.withdrawCar_only _ _ _ _) h) h) (.refl _ _)

theorem State.reloadPort_only (s : State) (p : PortNo) : s.changesOnly [.ports] (s.reloadPort p) := s.setPorts_only _

theorem State.erasedPage_only (s : State) (p : Nat) : s.changesOnly policyBlocks (s.erasedPage p) := by
  unfold State.erasedPage
  refine .ite (.step (State.setPolicy_only _ _) (.refl _ _)) (.ite (s.changeFloors_only _) (.ite ?_ (.ite ?_ (.refl _ _))))
  · exact .foldl (fun _ _ h => .step (State.recount_only _ _) (.step (State.restoreAll_only _ _) h))
      (.step (State.setPolicy_only _ _) (.refl _ _))
  · exact .foldl (fun _ _ h => .step (State.reloadPort_only _ _) h) (.step (State.setPolicy_only _ _) (.refl _ _))

theorem State.jobCompleted_only (s : State) (g : Program) : s.changesOnly policyBlocks (s.jobCompleted g) := by
  have hp : ∀ j, s.changesOnly policyBlocks (s.applyJob j) := fun j => .step (State.applyJob_only _ _) (.refl _ _)
  unfold State.jobCompleted
  split
  · exact .refl _ _
  · exact hp _
  · exact hp _
  · exact hp _
  · exact hp _
  · exact s.changeFloors_only _
  · exact .step (State.recount_only _ _) (hp _)
  · exact .step (State.reloadPort_only _ _) (hp _)
  · exact .step (State.modeCompleted_only _ _ _) (hp _)
  · exact s.changeWithdrawn_only _ _ _
  · exact s.erasedPage_only _

/-! ### Ports -/

theorem State.answer_only (s : State) (p : PortNo) (a : Answer) : s.changesOnly [.ports] (s.answer p a) :=
  s.setPorts_only _

theorem State.answerTap_only (s : State) (p : PortNo) (a : Answer) : s.changesOnly [.ports] (s.answerTap p a) :=
  s.setPorts_only _

theorem State.enterSlot_only (s : State) (p : PortNo) (b : Badge) (f : Option Floor) (i : Option Nat) :
    s.changesOnly [.ports] (s.enterSlot p b f i) := s.setPorts_only _

theorem State.readerHunt_only (s : State) (p : PortNo) : s.changesOnly [.ports] (s.readerHunt p) := s.setPorts_only _

theorem State.repeatFilter_only (s : State) (p : PortNo) (b : Badge) (f : Option Floor) :
    s.changesOnly [.ports] (s.repeatFilter p b f) := by
  unfold State.repeatFilter
  split
  · exact s.enterSlot_only _ _ _ _
  · exact .ite (s.enterSlot_only _ _ _ _) (.ite (s.answerTap_only _ _)
      (.ite (.ite (s.answerTap_only _ _) (s.enterSlot_only _ _ _ _)) (s.enterSlot_only _ _ _ _)))

theorem State.denyTap_only (s : State) (p : PortNo) (b : Badge) : s.changesOnly [.ports, .host] (s.denyTap p b) :=
  .step (State.post_only _ _ _) (.step (State.answerTap_only _ _ _) (.refl _ _))

theorem State.readerArrival_only (s : State) (p : PortNo) (f : ReaderFrame) :
    s.changesOnly [.ports, .host] (s.readerArrival p f) := by
  unfold State.readerArrival
  split
  · unfold State.presentArrival
    refine .ite (.refl _ _) (.ite (.step (State.answer_only _ _ _) (.refl _ _)) ?_)
    split
    · exact .refl _ _
    · exact .refl _ _
    · exact .step (State.answer_only _ _ _) (.refl _ _)
    · exact .step (State.answer_only _ _ _) (.refl _ _)
    · unfold State.presentIdle
      refine .ite (s.denyTap_only _ _) ?_
      split
      · exact s.denyTap_only _ _
      · exact .step (State.repeatFilter_only _ _ _ _) (.refl _ _)
  · unfold State.pingArrival
    exact .ite (.refl _ _) (.ite (.refl _ _) (.step (State.answer_only _ _ _) (.refl _ _)))

theorem State.readerFrame_only (s : State) (p : PortNo) (f : Option ReaderFrame) :
    s.changesOnly [.ports, .host] (s.readerFrame p f) := by
  unfold State.readerFrame
  split
  · exact .step (State.readerHunt_only _ _) (.refl _ _)
  · exact .step (State.readerArrival_only _ _ _) (.step (State.readerHunt_only _ _) (.refl _ _))

theorem State.readerByte_only (p : PortNo) (s : State) (b : Byte) : s.changesOnly [.ports, .host] (s.readerByte p b) := by
  unfold State.readerByte
  split
  · exact .step (State.setPort_only _ _ _) (.refl _ _)
  · exact s.readerFrame_only _ _

/-! ### Lines -/

theorem State.endTransaction_only (s : State) (l : Bank) (t : Transaction) :
    s.changesOnly [.lines, .host] (s.endTransaction l t) := by
  unfold State.endTransaction State.clearFault
  exact .ite (.step (State.post_only _ _ _) (.step (State.setLine_only _ _ _) (.step (State.setLine_only _ _ _)
    (.refl _ _)))) (.step (State.setLine_only _ _ _) (.refl _ _))

theorem State.failAttempt_only (s : State) (l : Bank) : s.changesOnly [.lines, .host] (s.failAttempt l) := by
  unfold State.failAttempt
  split
  · exact .refl _ _
  · exact .ite (.step (State.setLine_only _ _ _) (.refl _ _)) (s.endTransaction_only _ _)

theorem State.mismatch_only (s : State) (l : Bank) (t : Transaction) : s.changesOnly [.lines, .host] (s.mismatch l t) := by
  unfold State.mismatch State.enterFault
  exact .ite (.step (State.setLine_only _ _ _) (.refl _ _)) (.ite (.step (State.setLine_only _ _ _) (.refl _ _))
    (.step (State.post_only _ _ _) (.step (State.setLine_only _ _ _) (.refl _ _))))

theorem State.answerHold_only (s : State) (l : Bank) (t : Transaction) :
    s.changesOnly [.lines, .host] (s.answerHold l t) := by
  unfold State.answerHold
  exact .ite (.step (State.setLine_only _ _ _) (.refl _ _)) (.step (State.failAttempt_only _ _)
    (.step (State.setLine_only _ _ _) (.refl _ _)))

theorem State.answerResend_only (s : State) (l : Bank) (t : Transaction) :
    s.changesOnly [.lines, .host] (s.answerResend l t) := by
  unfold State.answerResend
  exact .ite (.step (State.setLine_only _ _ _) (.refl _ _)) (.step (State.failAttempt_only _ _)
    (.step (State.setLine_only _ _ _) (.refl _ _)))

theorem State.answerStatus_only (s : State) (l : Bank) (t : Transaction) (st : Status) :
    s.changesOnly dispatchBlocks (s.answerStatus l t st) :=
  .step (State.endTransaction_only _ _ _) (.step (State.closeCars_only _ _)
    (.step (State.takeStatus_only _ _ _ _ _) (.refl _ _)))

theorem State.takeAnswer_only (s : State) (l : Bank) (t : Transaction) (a : Option CarAnswer) :
    s.changesOnly dispatchBlocks (s.takeAnswer l t a) := by
  unfold State.takeAnswer
  split
  · exact .step (State.failAttempt_only _ _) (.refl _ _)
  · exact s.answerStatus_only _ _ _
  · exact .step (State.answerHold_only _ _ _) (.refl _ _)
  · exact .step (State.answerResend_only _ _ _) (.refl _ _)

theorem State.hear_only {s : State} {l : Bank} {f : Transaction → State} {bs : List Block}
    (h : ∀ t, s.changesOnly bs (f t)) : s.changesOnly bs (s.hear l f) := by
  unfold State.hear
  split
  · split
    · exact h _
    · exact .refl _ _
  · exact .refl _ _

theorem State.hearAnswer_only (s : State) (l : Bank) (x : Byte) (a : Option CarAnswer) :
    s.changesOnly dispatchBlocks (s.hearAnswer l x a) := State.hear_only fun _ => s.takeAnswer_only _ _ _

theorem State.answerByte_only (l : Bank) (s : State) (b : Byte) : s.changesOnly dispatchBlocks (s.answerByte l b) := by
  refine State.hear_only fun t => ?_
  split
  · exact .step (State.setLine_only _ _ _) (.refl _ _)
  · exact s.takeAnswer_only _ _ _

theorem State.cutAnswer_only (s : State) (l : Bank) : s.changesOnly [.lines, .host] (s.cutAnswer l) :=
  State.hear_only fun _ => .ite (.refl _ _) (s.failAttempt_only _)

/-! ### The decision -/

theorem State.deny_only (s : State) (x : Presentation) (e : DenyReason) (d : Option Floor) :
    s.changesOnly eventBlocks (s.deny x e d) :=
  .step (State.post_only _ _ _) (.step (State.setPort_only _ _ _) (.refl _ _))

theorem State.removeTicket_only (s : State) (b : Badge) : s.changesOnly [.disp] (s.removeTicket b) := s.setDisp_only _

theorem State.grantTicket_only (s : State) (o : Bool) (t : Option Floor) (d : Floor) (u : Bool) (k : Booking) :
    s.changesOnly [.disp] (s.grantTicket o t d u k) := by
  unfold State.grantTicket
  split
  · exact .step (State.setTickets_only _ _) (s.removeTicket_only _)
  · exact .ite (s.removeTicket_only _) (.refl _ _)

theorem State.cancelSuperseded_only (s : State) (o : Option Booking) :
    s.changesOnly eventBlocks (s.cancelSuperseded o) := by
  cases o
  · exact .refl _ _
  · exact s.cancel_only _ _

theorem State.grant_only (s : State) (x : Presentation) (r : Credential) (h d : Floor) (id : Nat) (c : Choice)
    (u : Bool) : s.changesOnly eventBlocks (s.grant x r h d id c u) := by
  unfold State.grant
  simp only
  exact .step (State.post_only _ _ _) (.step (State.setPort_only _ _ _) (.step (State.cancelSuperseded_only _ _)
    (.step (State.grantTicket_only _ _ _ _ _ _) (.step (State.place_only _ _) (.step (State.setDisp_only _ _)
      (.refl _ _))))))

theorem State.decideTrip_only (s : State) (x : Presentation) (r : Credential) (h : Floor) (bs : BankSet) (d : Floor)
    (u : Bool) : s.changesOnly eventBlocks (s.decideTrip x r h bs d u) := by
  unfold State.decideTrip
  split
  · exact .step (State.deny_only _ _ _ _) (.ite (.step (State.removeTicket_only _ _) (.refl _ _)) (.refl _ _))
  · exact s.grant_only _ _ _ _ _ _ _

theorem State.decide_only (s : State) (x : Presentation) (h : Floor) (bs : BankSet) :
    s.changesOnly eventBlocks (s.decide x h bs) := by
  unfold State.decide
  split
  · exact .step (State.setPort_only _ _ _) (.refl _ _)
  · exact s.deny_only _ _ _
  · unfold State.decideJourney
    simp only
    split
    · exact s.decideTrip_only _ _ _ _ _ _
    · split
      · exact .step (State.deny_only _ _ _ _) (.ite (.step (State.removeTicket_only _ _) (.refl _ _)) (.refl _ _))
      · exact .step (State.decideTrip_only _ _ _ _ _ _ _)
          (.ite (.step (State.removeTicket_only _ _) (.refl _ _)) (.refl _ _))

end Sys2Proof.Machine
end

