-- ==== Sys2Proof/Laws/Events.lean ====
section
/-! SUPPORT. What every event of the Dispatch Engine can do to the reports, the ports' memories, the bookings, the
tickets and the modes, said once: reports are only posted, a memory only changes or goes, bookings and tickets only leave,
a booking keeps all but its car and state, a ticket all but its first-leg id, and no mode changes. -/

namespace Sys2Proof.Machine

-- One proof at a time: many waiting side by side outrun the checker's memory.
set_option Elab.async false

/-- From `s` to `t` only what an event may do has been done. -/
structure State.event (s t : State) : Prop where
  posts : ∀ Q : HostPort → Prop, (∀ h r, Q h → Q (h.post r)) → Q s.host → Q t.host
  ports : ∀ p, ∃ m, t.port p = { s.port p with memory := m } ∧ ((s.port p).memory = none → m = none)
  bookingIds : (t.disp.bookings.map fun k => k.id).Sublist (s.disp.bookings.map fun k => k.id)
  bookings : ∀ k ∈ t.disp.bookings, ∃ j ∈ s.disp.bookings, k = { j with car := k.car, state := k.state }
  ticketBadges : (t.disp.tickets.map fun x => x.badge).Sublist (s.disp.tickets.map fun x => x.badge)
  tickets : ∀ x ∈ t.disp.tickets, ∃ y ∈ s.disp.tickets, x = { y with firstLeg := x.firstLeg }
  modes : t.disp.modes = s.disp.modes

theorem State.event.refl (s : State) : s.event s where
  posts _ _ h := h
  ports p := ⟨(s.port p).memory, rfl, id⟩
  bookingIds := List.Sublist.refl _
  bookings k h := ⟨k, h, rfl⟩
  ticketBadges := List.Sublist.refl _
  tickets x h := ⟨x, h, rfl⟩
  modes := rfl

theorem State.event.trans {s t u : State} (h : s.event t) (g : t.event u) : s.event u where
  posts Q hQ q := g.posts Q hQ (h.posts Q hQ q)
  ports p := by
    obtain ⟨m, hm, hn⟩ := h.ports p
    obtain ⟨n, hp, hq⟩ := g.ports p
    exact ⟨n, by rw [hp, hm], fun e => hq (by rw [hm]; exact hn e)⟩
  bookingIds := g.bookingIds.trans h.bookingIds
  bookings k hk := by
    obtain ⟨j, hj, e⟩ := g.bookings k hk
    obtain ⟨i, hi, f⟩ := h.bookings j hj
    exact ⟨i, hi, by rw [e, f]⟩
  ticketBadges := g.ticketBadges.trans h.ticketBadges
  tickets x hx := by
    obtain ⟨y, hy, e⟩ := g.tickets x hx
    obtain ⟨z, hz, f⟩ := h.tickets y hy
    exact ⟨z, hz, by rw [e, f]⟩
  modes := g.modes.trans h.modes

/-- One more operation. -/
theorem State.event.step {s t u : State} (g : t.event u) (h : s.event t) : s.event u := h.trans g

theorem State.event.ite {p : Prop} [Decidable p] {s t u : State} (h : s.event t) (g : s.event u) :
    s.event (if p then t else u) := by
  split <;> assumption

/-- A list of operations of one kind. -/
theorem State.event.foldl {α : Type} {s t : State} {f : State → α → State} {xs : List α}
    (hf : ∀ u x, s.event u → s.event (f u x)) (h : s.event t) : s.event (xs.foldl f t) := by
  induction xs generalizing t with
  | nil => exact h
  | cons x xs ih => exact ih (hf t x h)

/-! ### Operations that touch none of it -/

theorem State.setCar_event (s : State) (b : Bank) (c : CarNo) (x : Car) : s.event (s.setCar b c x) :=
  ⟨fun _ _ h => h, fun p => ⟨(s.port p).memory, rfl, id⟩, .refl _, fun k h => ⟨k, h, rfl⟩, .refl _,
    fun x h => ⟨x, h, rfl⟩, rfl⟩

theorem State.setPolicy_event (s : State) (x : Policy) : s.event (s.setPolicy x) :=
  ⟨fun _ _ h => h, fun p => ⟨(s.port p).memory, rfl, id⟩, .refl _, fun k h => ⟨k, h, rfl⟩, .refl _,
    fun x h => ⟨x, h, rfl⟩, rfl⟩

theorem State.setLine_event (s : State) (l : Bank) (x : Line) : s.event (s.setLine l x) :=
  ⟨fun _ _ h => h, fun p => ⟨(s.port p).memory, rfl, id⟩, .refl _, fun k h => ⟨k, h, rfl⟩, .refl _,
    fun x h => ⟨x, h, rfl⟩, rfl⟩

theorem State.setFloor_event (s : State) (f : Floor) (x : FloorRec) : s.event (s.setFloor f x) := s.setPolicy_event _

theorem State.setBank_event (s : State) (b : Bank) (x : BankRec) : s.event (s.setBank b x) := s.setPolicy_event _

theorem State.applyJob_event (s : State) (j : Job) : s.event (s.applyJob j) := s.setPolicy_event _

theorem State.resync_event (s : State) (b : Bank) (c : CarNo) (ks : List Key) : s.event (s.resync b c ks) :=
  s.setCar_event _ _ _

theorem State.resyncKeep_event (s : State) (b : Bank) (c : CarNo) : s.event (s.resyncKeep b c) := s.setCar_event _ _ _

theorem State.closeCars_event (s0 s : State) : s.event (s0.closeCars s) :=
  .foldl (fun _ _ h => .step (State.setLine_event _ _ _) (.step (State.setCar_event _ _ _ _) h)) (.refl _)

/-! ### Reports, memories, bookings and tickets -/

theorem State.post_event (s : State) (k : ReportClass) (x : ReportBody) : s.event (s.post k x) :=
  ⟨fun _ hQ h => hQ _ _ h, fun p => ⟨(s.port p).memory, rfl, id⟩, .refl _, fun k h => ⟨k, h, rfl⟩, .refl _,
    fun x h => ⟨x, h, rfl⟩, rfl⟩

theorem State.setMemory_event (s : State) (p : PortNo) (r : Port)
    (h : ∃ m, r = { s.port p with memory := m } ∧ ((s.port p).memory = none → m = none)) : s.event (s.setPort p r) := by
  refine ⟨fun _ _ h => h, fun q => ?_, .refl _, fun k h => ⟨k, h, rfl⟩, .refl _, fun x h => ⟨x, h, rfl⟩, rfl⟩
  by_cases e : q = p
  · subst e
    obtain ⟨m, hm, hn⟩ := h
    exact ⟨m, by simp [hm], hn⟩
  · exact ⟨(s.port q).memory, by rw [State.port_setPort_ne _ _ _ _ (Ne.symm e)], id⟩

theorem State.announceLeft_event (s : State) (p : PortNo) (i : Nat) : s.event (s.announceLeft p i) := by
  refine s.setMemory_event _ _ ?_
  unfold Port.bookingLeft
  split
  · split
    · exact ⟨none, rfl, fun _ => rfl⟩
    · exact ⟨_, rfl, id⟩
  · exact ⟨_, rfl, id⟩

theorem State.announceMoved_event (s : State) (p : PortNo) (i : Nat) (b : Bank) (c : CarNo) :
    s.event (s.announceMoved p i b c) := by
  refine s.setMemory_event _ _ ?_
  unfold Port.bookingMoved
  split
  · split
    · exact ⟨_, rfl, fun h => by simp_all⟩
    · exact ⟨_, rfl, id⟩
  · exact ⟨_, rfl, id⟩

theorem State.filterBookings_event (s : State) (f : Booking → Bool) : s.event (s.setBookings (s.disp.bookings.filter f)) :=
  ⟨fun _ _ h => h, fun p => ⟨(s.port p).memory, rfl, id⟩, (List.filter_sublist).map _,
    fun k h => ⟨k, (List.mem_filter.1 h).1, rfl⟩, .refl _, fun x h => ⟨x, h, rfl⟩, rfl⟩

theorem State.mapBookings_event (s : State) (f : Booking → Booking)
    (hf : ∀ k, f k = { k with car := (f k).car, state := (f k).state }) :
    s.event (s.setBookings (s.disp.bookings.map f)) := by
  refine ⟨fun _ _ h => h, fun p => ⟨(s.port p).memory, rfl, id⟩, ?_, fun k h => ?_, .refl _, fun x h => ⟨x, h, rfl⟩, rfl⟩
  · have : ((s.disp.bookings.map f).map fun k => k.id) = s.disp.bookings.map fun k => k.id := by
      rw [List.map_map]
      refine List.map_congr_left fun k _ => ?_
      show (f k).id = k.id
      rw [hf k]
    show ((s.disp.bookings.map f).map fun k => k.id).Sublist _
    rw [this]
  · obtain ⟨j, hj, rfl⟩ := List.mem_map.1 h
    exact ⟨j, hj, hf j⟩

theorem State.filterTickets_event (s : State) (f : Ticket → Bool) : s.event (s.setTickets (s.disp.tickets.filter f)) :=
  ⟨fun _ _ h => h, fun p => ⟨(s.port p).memory, rfl, id⟩, .refl _, fun k h => ⟨k, h, rfl⟩, (List.filter_sublist).map _,
    fun x h => ⟨x, (List.mem_filter.1 h).1, rfl⟩, rfl⟩

theorem State.dropFirstLegTicket_event (s : State) (k : Booking) : s.event (s.dropFirstLegTicket k) := by
  unfold State.dropFirstLegTicket
  exact .ite (s.filterTickets_event _) (.refl _)

theorem State.clearFirstLeg_event (s : State) (k : Booking) : s.event (s.clearFirstLeg k) := by
  unfold State.clearFirstLeg
  refine .ite ?_ (.refl _)
  refine ⟨fun _ _ h => h, fun p => ⟨(s.port p).memory, rfl, id⟩, .refl _, fun k h => ⟨k, h, rfl⟩, ?_, fun x h => ?_, rfl⟩
  · have : ((s.disp.tickets.map fun t =>
        if t.badge = k.badge ∧ t.firstLeg = some k.id then { t with firstLeg := none } else t).map fun x => x.badge) =
        s.disp.tickets.map fun x => x.badge := by
      rw [List.map_map]
      refine List.map_congr_left fun t _ => ?_
      simp only [Function.comp]
      split <;> rfl
    show (((s.disp.tickets.map fun t =>
        if t.badge = k.badge ∧ t.firstLeg = some k.id then { t with firstLeg := none } else t).map fun x => x.badge)).Sublist _
    rw [this]
  · obtain ⟨y, hy, rfl⟩ := List.mem_map.1 h
    exact ⟨y, hy, by split <;> rfl⟩

theorem State.removeBooking_event (s : State) (i : Nat) : s.event (s.removeBooking i) := s.filterBookings_event _

theorem State.bookingDone_event (s : State) (k : Booking) : s.event (s.bookingDone k) :=
  .step (State.clearFirstLeg_event _ _) (s.removeBooking_event _)

theorem State.board_event (s : State) (k : Booking) : s.event (s.board k) :=
  .step (State.announceLeft_event _ _ _) (s.mapBookings_event _ fun x => by split <;> rfl)

/-! ### The dispatch operations -/

theorem State.formEnabled_event (s : State) (b : Bank) (c : CarNo) : s.event (s.formEnabled b c) := by
  unfold State.formEnabled
  exact .ite (s.setCar_event _ _ _) (.step (State.resync_event _ _ _ _) (s.setCar_event _ _ _))

theorem State.formBank_event (s : State) (b : Bank) : s.event (s.formBank b) :=
  .foldl (fun _ _ h => .ite (.step (State.formEnabled_event _ _ _) h) h) (.refl _)

theorem State.cancel_event (s : State) (r : CancelReason) (k : Booking) : s.event (s.cancel r k) := by
  unfold State.cancel
  refine .step (State.post_event _ _ _) (.step (State.dropFirstLegTicket_event _ _) ?_)
  cases k.state
  · exact .step (State.announceLeft_event _ _ _) (.step (State.resyncKeep_event _ _ _)
      (.step (State.removeBooking_event _ _) (.refl _)))
  · exact .step (State.formEnabled_event _ _ _) (.step (State.resyncKeep_event _ _ _)
      (.step (State.removeBooking_event _ _) (.refl _)))

theorem State.cancelAll_event (s : State) (r : CancelReason) (ks : List Booking) :
    s.event (s.cancelAll r ks) := .foldl (fun _ _ h => .step (State.cancel_event _ _ _) h) (.refl _)

theorem State.moveBooking_event (s : State) (k : Booking) : s.event (s.moveBooking k) := by
  unfold State.moveBooking
  simp only
  split
  · exact s.cancel_event _ _
  · refine .step (State.announceMoved_event _ _ _ _ _) (.step (State.resyncKeep_event _ _ _) ?_)
    rename_i c _ _
    have h := s.mapBookings_event (fun x => if x.id = k.id then { x with car := c } else x) fun x => by
      split <;> rfl
    exact ⟨h.posts, h.ports, h.bookingIds, h.bookings, h.ticketBadges, h.tickets, h.modes⟩

theorem State.loseCar_event (s : State) (b : Bank) (c : CarNo) : s.event (s.loseCar b c) :=
  .foldl (fun _ _ h => .step (State.moveBooking_event _ _) h) (.refl _)

theorem State.reportService_event (s : State) (b : Bank) (c : CarNo) (old new : Service) :
    s.event (s.reportService b c old new) := by
  unfold State.reportService
  exact .ite (.refl _) (s.post_event _ _)

theorem State.setService_event (s : State) (b : Bank) (c : CarNo) (new : Service) :
    s.event (s.setService b c new) := by
  unfold State.setService
  exact .ite (.step (State.loseCar_event _ _ _) (.step (State.setCar_event _ _ _ _) (.refl _)))
    (.step (State.setCar_event _ _ _ _) (.refl _))

theorem State.serveFloor_event (s : State) (b : Bank) (c : CarNo) (st : Status) :
    s.event (s.serveFloor b c st) := by
  unfold State.serveFloor
  exact .step (State.resync_event _ _ _ _) (.foldl (fun _ _ h => .step (State.board_event _ _) h)
    (.foldl (fun _ _ h => .step (State.bookingDone_event _ _) h) (.refl _)))

theorem State.takeCall_event (s : State) (b : Bank) (c : CarNo) (k : Key) : s.event (s.takeCall b c k) := by
  unfold State.takeCall
  exact .ite (s.resync_event _ _ _) (.refl _)

theorem State.takeCalls_event (b : Bank) (c : CarNo) (p : Floor) (fs seen : List Floor) (s : State) :
    s.event (s.takeCalls b c p seen fs) := by
  induction fs generalizing s seen with
  | nil => exact .refl _
  | cons f fs ih =>
    unfold State.takeCalls
    exact .ite (ih _ _) ((s.takeCall_event _ _ _).trans (ih _ _))

theorem State.statusEvent_event (s : State) (b : Bank) (c : CarNo) (k : CommandKind) (st : Status) :
    s.event (s.statusEvent b c k st) := by
  unfold State.statusEvent
  simp only
  refine .step (State.reportService_event _ _ _ _ _) (.step (State.formEnabled_event _ _ _) ?_)
  have h : ∀ {u : State}, s.event u →
      s.event (if st.fresh then u.takeCalls b c st.position [] st.calls else u) := fun g =>
    .ite (.step (State.takeCalls_event _ _ _ _ _ _) g) g
  refine h ?_
  exact .ite
    (.step (State.serveFloor_event _ _ _ _) (.step (State.setCar_event _ _ _ _) (.step (State.setService_event _ _ _ _)
      (.step (State.setCar_event _ _ _ _) (.refl _)))))
    (.step (State.setCar_event _ _ _ _) (.step (State.setService_event _ _ _ _)
      (.step (State.setCar_event _ _ _ _) (.refl _))))

theorem State.takeStatus_event (s : State) (b : Bank) (c : CarNo) (k : CommandKind) (st : Status) :
    s.event (s.takeStatus b c k st) := by
  unfold State.takeStatus
  exact .ite (s.statusEvent_event _ _ _ _) (.refl _)

theorem State.eachConfigured_event (s : State) (b : Bank) (f : Car → Car) :
    s.event (s.eachConfigured b f) :=
  .foldl (fun _ _ h => .ite (.step (State.setCar_event _ _ _ _) h) h) (.refl _)

theorem State.clearBank_event (s : State) (b : Bank) (r : CancelReason) : s.event (s.clearBank b r) := by
  unfold State.clearBank
  exact .step (State.eachConfigured_event _ _ _) (.step (State.filterTickets_event _ _)
    (.step (State.cancelAll_event _ _ _) (.refl _)))

theorem State.leaveFire_event (s : State) (b : Bank) : s.event (s.leaveFire b) :=
  .step (State.formBank_event _ _) (s.eachConfigured_event _ _)

theorem State.modeEffects_event (s : State) (b : Bank) (old new : BankMode) :
    s.event (s.modeEffects b old new) := by
  unfold State.modeEffects
  have h : s.event (if old = .fireRecall then s.leaveFire b else s) :=
    .ite (.step (State.leaveFire_event _ _) (.refl _)) (.refl _)
  cases new
  · exact .step (State.formBank_event _ _) (.step (State.clearBank_event _ _ _) h)
  · exact h
  · exact h
  · exact h
  · exact .step (State.eachConfigured_event _ _ _) (.step (State.clearBank_event _ _ _) h)

/-- After the mode itself is written, a change of mode is an event. -/
theorem State.changeMode_event {s : State} {b : Bank} {new old : BankMode} {i : Bool} (h : s.mode b = some old) :
    (s.setMode b new).event (s.changeMode b new i) := by
  unfold State.changeMode
  rw [h]
  exact .step (State.post_event _ _ _) (State.modeEffects_event _ _ _ _)

theorem State.changeFloors_event (s : State) (rs : List (Floor × FloorRec)) :
    s.event (s.changeFloors rs) := by
  unfold State.changeFloors
  simp only
  exact .foldl (fun _ _ h => .ite (.step (State.formBank_event _ _) h) h) (.step (State.cancelAll_event _ _ _)
    (.foldl (fun _ _ h => .step (State.setFloor_event _ _ _) h) (.refl _)))

theorem State.recount_event (s : State) (b : Bank) : s.event (s.recount b) := by
  refine .foldl (fun u c h => ?_) (.refl _)
  unfold State.recountCar
  simp only
  exact .ite (.ite h (.step (State.formEnabled_event _ _ _) (.step (State.setCar_event _ _ _ _) h)))
    (.ite (.step (State.setCar_event _ _ _ _) h) h)

theorem State.withdrawCar_event (s : State) (b : Bank) (c : CarNo) (w : Bool) :
    s.event (s.withdrawCar b c w) := by
  unfold State.withdrawCar
  simp only
  split
  · exact .refl _
  · exact .step (State.reportService_event _ _ _ _ _) (s.setService_event _ _ _)

theorem State.changeWithdrawn_event (s : State) (b : Bank) (c : CarNo) (w : Bool) :
    s.event (s.changeWithdrawn b c w) := by
  unfold State.changeWithdrawn
  simp only
  exact .ite (.refl _) (.step (State.withdrawCar_event _ _ _ _) (.step (State.setBank_event _ _ _) (.refl _)))

theorem State.restoreAll_event (s : State) (b : Bank) : s.event (s.restoreAll b) :=
  .foldl (fun _ _ h => .ite (.step (State.withdrawCar_event _ _ _ _) h) h) (.refl _)

theorem State.eraseBanks_event (s : State) : s.event s.eraseBanks :=
  .foldl (fun _ _ h => .step (State.recount_event _ _) (.step (State.restoreAll_event _ _) h)) (s.setPolicy_event _)

end Sys2Proof.Machine
end

