-- ==== Sys2Proof/Laws/Dispatch.lean ====
section
/-! SUPPORT. What cancelling, choosing and the close of an event do, said once: which bookings stand after a
cancellation, what a found car and a free id are, and that the close of an event makes every dirty queue exact. -/

namespace Sys2Proof.Machine

-- One proof at a time: many waiting side by side outrun the checker's memory.
set_option Elab.async false

/-! ### Cancelling (R87) -/

theorem State.dropFirstLegTicket_bookings (s : State) (k : Booking) :
    (s.dropFirstLegTicket k).disp.bookings = s.disp.bookings := by
  unfold State.dropFirstLegTicket
  split <;> rfl

theorem State.formEnabled_bookings (s : State) (b : Bank) (c : CarNo) :
    (s.formEnabled b c).disp.bookings = s.disp.bookings := by
  unfold State.formEnabled
  simp only
  split <;> rfl

/-- A cancelled booking leaves the table, and no other. -/
theorem State.cancel_bookings (s : State) (r : CancelReason) (k : Booking) :
    (s.cancel r k).disp.bookings = s.disp.bookings.filter fun j => j.id ≠ k.id := by
  show (State.dropFirstLegTicket _ k).disp.bookings = _
  rw [State.dropFirstLegTicket_bookings]
  cases k.state
  · rfl
  · simp only [State.formEnabled_bookings]
    rfl

theorem State.cancelAll_bookings (r : CancelReason) (ks : List Booking) (s : State) :
    (s.cancelAll r ks).disp.bookings = s.disp.bookings.filter fun j => ks.all fun k => j.id ≠ k.id := by
  unfold State.cancelAll
  induction ks generalizing s with
  | nil => simp
  | cons k ks ih =>
    simp only [List.foldl_cons, ih, State.cancel_bookings, List.filter_filter]
    congr 1
    funext j
    simp [Bool.and_comm]

theorem mem_insertSerial (x k : Booking) (xs : List Booking) : k ∈ insertSerial x xs ↔ k = x ∨ k ∈ xs := by
  induction xs with
  | nil => simp [insertSerial]
  | cons y ys ih =>
    unfold insertSerial
    split <;> simp [ih]
    tauto

/-- Serial order only reorders. -/
theorem mem_serialOrder (ks : List Booking) (k : Booking) : k ∈ serialOrder ks ↔ k ∈ ks := by
  induction ks with
  | nil => simp [serialOrder]
  | cons x xs ih => simp [serialOrder, mem_insertSerial, ih]

/-! ### Choosing (R79, R111) -/

/-- The free id is below 512 and names no booking. -/
theorem State.freeId_spec {s : State} {i : Nat} (h : s.freeId = some i) :
    i < 512 ∧ i ∉ s.disp.bookings.map fun k => k.id := by
  have h1 := List.mem_of_find?_eq_some h
  have h2 := List.find?_some h
  simp [Config.maxBookings] at h1 h2
  exact ⟨h1, by simpa using h2⟩

theorem lowestCost_mem {α : Type} {xs : List (α × Nat)} {x : α × Nat} (h : lowestCost xs = some x) : x ∈ xs := by
  induction xs generalizing x with
  | nil => simp [lowestCost] at h
  | cons y ys ih =>
    unfold lowestCost at h
    split at h
    · simp at h
      simp [h]
    · rename_i z hz
      have := ih hz
      split at h <;> simp at h <;> subst h <;> simp [this]

/-! ### The close of an event (R83, R139) -/

/-- A notice moves only the car it names, in or out as it has become dirty or clean. -/
theorem Line.mem_notice {l : Line} {c : CarNo} {was : Bool} (h : c ∈ l.queue ↔ was = true) (d : CarNo) (isNow : Bool) :
    d ∈ (l.notice c was isNow).queue ↔ if d = c then isNow = true else d ∈ l.queue := by
  unfold Line.notice
  split
  · rename_i e
    subst e
    split
    · rename_i e
      subst e
      exact h
    · rfl
  · split
    · rename_i e1 e2
      subst e2
      have : was = false := by cases was <;> simp_all
      subst this
      have hc : c ∉ l.queue := by rw [h]; simp
      rw [if_neg hc]
      simp only [List.mem_append, List.mem_singleton]
      split <;> rename_i e <;> simp [e]
    · rename_i e1 e2
      have : isNow = false := by cases isNow <;> simp_all
      subst this
      simp only [List.mem_filter]
      split
      · rename_i e
        subst e
        simp
      · rename_i e
        simp [e]

theorem Line.nodup_notice {l : Line} (h : l.queue.Nodup) (c : CarNo) (was isNow : Bool) :
    (l.notice c was isNow).queue.Nodup := by
  unfold Line.notice
  split
  · exact h
  · split
    · split
      · exact h
      · rename_i e
        rw [List.nodup_append]
        refine ⟨h, by simp, ?_⟩
        intro a ha b hb
        rw [List.mem_singleton] at hb
        subst hb
        rintro rfl
        exact e ha
    · exact h.filter _

theorem State.closeCar_car (s0 s : State) (b : Bank) (c : CarNo) :
    (s0.closeCar s (b, c)).car b c = Car.closeGeneration (s0.car b c) (s.car b c) := by
  unfold State.closeCar
  simp

theorem State.closeCar_car_ne (s0 s : State) {b l : Bank} {c d : CarNo} (h : (l, d) ≠ (b, c)) :
    (s0.closeCar s (b, c)).car l d = s.car l d := by
  unfold State.closeCar
  simp only [State.car_setLine]
  exact State.car_setCar_ne _ _ _ _ _ _ (by simpa [Prod.ext_iff, eq_comm] using h)

theorem State.closeCar_queue (s0 s : State) (b l : Bank) (c : CarNo) :
    ((s0.closeCar s (b, c)).line l).queue =
      if l = b then
        ((s.line b).notice c (s0.car b c).dirty (Car.closeGeneration (s0.car b c) (s.car b c)).dirty).queue
      else (s.line l).queue := by
  unfold State.closeCar
  by_cases e : l = b
  · subst e
    simp
  · rw [State.line_setLine_ne _ _ _ _ (Ne.symm e), if_neg e]
    simp

/-- R139: at the close of an event that left the queues as they were, each queue holds exactly the cars that are dirty
now, none twice, if it held exactly those that were dirty at the event's start. -/
theorem State.closeCars_queues {s0 u : State} (hn : ∀ l, (u.line l).queue.Nodup)
    (hq : ∀ l c, c ∈ (u.line l).queue ↔ (s0.car l c).dirty = true) :
    (∀ l, ((s0.closeCars u).line l).queue.Nodup) ∧
      ∀ l c, c ∈ ((s0.closeCars u).line l).queue ↔ ((s0.closeCars u).car l c).dirty = true := by
  have key : ∀ (ids : List (Bank × CarNo)) (v : State), ids.Nodup → (∀ l, (v.line l).queue.Nodup) →
      (∀ id ∈ ids, id.2 ∈ (v.line id.1).queue ↔ (s0.car id.1 id.2).dirty = true) →
      (∀ id, id ∉ ids → (id.2 ∈ (v.line id.1).queue ↔ (v.car id.1 id.2).dirty = true)) →
      (∀ l, ((ids.foldl (State.closeCar s0) v).line l).queue.Nodup) ∧
        ∀ id : Bank × CarNo, id.2 ∈ ((ids.foldl (State.closeCar s0) v).line id.1).queue ↔
          ((ids.foldl (State.closeCar s0) v).car id.1 id.2).dirty = true := by
    intro ids
    induction ids with
    | nil => exact fun v _ h1 _ h3 => ⟨h1, fun id => h3 id (by simp)⟩
    | cons i is ih =>
      intro v hd h1 h2 h3
      rw [List.nodup_cons] at hd
      have hi := h2 i (by simp)
      obtain ⟨b, c⟩ := i
      simp only [List.foldl_cons]
      refine ih (s0.closeCar v (b, c)) hd.2 ?_ ?_ ?_
      · intro l
        rw [State.closeCar_queue]
        split
        · exact Line.nodup_notice (h1 b) _ _ _
        · exact h1 l
      · intro id hid
        rw [State.closeCar_queue]
        have hne : id ≠ (b, c) := by
          rintro rfl
          exact hd.1 hid
        split
        · rename_i e
          rw [Line.mem_notice hi, if_neg fun e2 => hne (Prod.ext e e2), ← e]
          exact h2 id (by simp [hid])
        · exact h2 id (by simp [hid])
      · intro id hid
        rw [State.closeCar_queue]
        by_cases e : id = (b, c)
        · subst e
          simp only [if_true]
          rw [Line.mem_notice hi, if_pos rfl, State.closeCar_car]
        · rw [State.closeCar_car_ne _ _ (by simpa using e)]
          have := h3 id (by simp [hid]; exact fun h => e (by simpa using h))
          split
          · rename_i e1
            rw [Line.mem_notice hi, if_neg fun e2 => e (Prod.ext e1 e2), ← e1]
            exact this
          · exact this
  have hall : ∀ id : Bank × CarNo, id ∈ allCarIds := by decide
  obtain ⟨k1, k2⟩ := key allCarIds u (by decide) hn (fun id _ => hq id.1 id.2) fun id hid => absurd (hall id) hid
  exact ⟨k1, fun l c => k2 (l, c)⟩

end Sys2Proof.Machine
end

