-- ==== Sys2Proof/Laws/Host.lean ====
section
/-! SUPPORT. What the small operations on the Report Queue do, said once: marking the head keeps every class, and
dropping a ROUTINE report keeps every URGENT one. -/

namespace Sys2Proof.Machine

-- One proof at a time: many waiting side by side outrun the checker's memory.
set_option Elab.async false

/-- Marking the gap changes no report's class. -/
theorem markOldest_forall (cls : ReportClass) (g : Bool) (q : List Report) (P : ReportClass → Prop) :
    (∀ r ∈ markOldest cls g q, P r.cls) ↔ ∀ r ∈ q, P r.cls := by
  induction q with
  | nil => simp [markOldest]
  | cons x xs ih =>
    unfold markOldest
    split <;> simp [ih]

theorem markOldest_exists (cls : ReportClass) (g : Bool) (q : List Report) (P : ReportClass → Prop) :
    (∃ r ∈ markOldest cls g q, P r.cls) ↔ ∃ r ∈ q, P r.cls := by
  induction q with
  | nil => simp [markOldest]
  | cons x xs ih =>
    unfold markOldest
    split <;> simp [ih]

theorem markOldest_length (cls : ReportClass) (g : Bool) (q : List Report) :
    (markOldest cls g q).length = q.length := by
  induction q with
  | nil => rfl
  | cons x xs ih =>
    unfold markOldest
    split <;> simp [ih]

/-- The newest ROUTINE report leaves; every URGENT one stays. -/
theorem dropLastRoutine_spec {q q' : List Report} (h : dropLastRoutine q = some q') :
    (∀ r ∈ q', r ∈ q) ∧ (∀ r ∈ q, r.cls = .urgent → r ∈ q') ∧ q'.length + 1 = q.length := by
  induction q generalizing q' with
  | nil => simp [dropLastRoutine] at h
  | cons x xs ih =>
    unfold dropLastRoutine at h
    split at h
    · rename_i rs hrs
      simp at h
      subst h
      obtain ⟨a, b, c⟩ := ih hrs
      refine ⟨?_, ?_, by simp [c]⟩
      · simp
        exact fun r hr => .inr (a r hr)
      · simp
        exact fun r hr hc => .inr (b r hr hc)
    · split at h
      · rename_i hc
        simp at h
        subst h
        refine ⟨?_, ?_, by simp⟩
        · simp
          exact fun r hr => .inr hr
        · simp
          exact ⟨fun h => by rw [hc] at h; simp at h, fun r hr _ => hr⟩
      · simp at h

/-- R176: one ROUTINE report leaves, never the one being sent. -/
theorem dropUnsentRoutine_spec {b : Bool} {q q' : List Report} (h : dropUnsentRoutine b q = some q') :
    (∀ r ∈ q', r ∈ q) ∧ (∀ r ∈ q, r.cls = .urgent → r ∈ q') ∧ q'.length + 1 = q.length ∧
      (b = true → ∃ r ∈ q', r.cls = .routine) := by
  induction q generalizing q' with
  | nil => simp [dropUnsentRoutine] at h
  | cons x xs ih =>
    unfold dropUnsentRoutine at h
    split at h
    · split at h
      · rename_i hx
        rw [Option.map_eq_some_iff] at h
        obtain ⟨r, hr, rfl⟩ := h
        obtain ⟨a, c, d⟩ := dropLastRoutine_spec hr
        refine ⟨?_, ?_, by simp [d], fun _ => ⟨x, by simp, hx⟩⟩
        · simp
          exact fun r hr => .inr (a r hr)
        · simp
          exact fun r hr hc => .inr (c r hr hc)
      · rw [Option.map_eq_some_iff] at h
        obtain ⟨r, hr, rfl⟩ := h
        obtain ⟨a, c, d, e⟩ := ih hr
        refine ⟨?_, ?_, by simp [d], fun hb => ?_⟩
        · simp
          exact fun r hr => .inr (a r hr)
        · simp
          exact fun r hr hc => .inr (c r hr hc)
        · obtain ⟨y, hy, f⟩ := e hb
          exact ⟨y, by simp [hy], f⟩
    · rename_i hb
      obtain ⟨a, c, d⟩ := dropLastRoutine_spec h
      exact ⟨a, c, d, fun h => absurd h hb⟩

end Sys2Proof.Machine
end

