-- ==== Sys2Proof/Laws/Store.lean ====
section
/-! SUPPORT. The bytes of the store: what a read gives after a write, and that every operation keeps the canonical
form. -/

namespace Sys2Proof.Machine

-- One proof at a time: many waiting side by side outrun the checker's memory.
set_option Elab.async false

/-! ### The canonical form -/

/-- No listed address lies at or below `a`. -/
def Store.above (a : Nat) (m : List Host.Cell) : Prop := ∀ x ∈ m, a < x.1

theorem Store.wf_cons (k : Nat) (v : Byte) (m : List Host.Cell) :
    Store.wf ((k, v) :: m) = true ↔ v ≠ 255 ∧ Store.above k m ∧ Store.wf m = true := by
  induction m generalizing k v with
  | nil => simp [Store.wf, Store.above]
  | cons x xs ih =>
    obtain ⟨k', v'⟩ := x
    have h := ih k' v'
    constructor
    · intro hw
      simp only [Store.wf, Bool.and_eq_true, decide_eq_true_eq] at hw
      obtain ⟨⟨h1, h2⟩, h3⟩ := hw
      refine ⟨by simpa using h1, ?_, h3⟩
      have ha := (h.1 h3).2.1
      intro y hy
      rcases List.mem_cons.1 hy with rfl | hy
      · exact h2
      · exact Nat.lt_trans h2 (ha y hy)
    · rintro ⟨h1, h2, h3⟩
      have hk : k < k' := h2 (k', v') (by simp)
      simp only [Store.wf, Bool.and_eq_true, decide_eq_true_eq]
      exact ⟨⟨by simpa using h1, hk⟩, h3⟩

theorem Store.read_above {a : Nat} {m : List Host.Cell} (h : Store.above a m) : Store.read m a = 255 := by
  induction m with
  | nil => rfl
  | cons x xs ih =>
    obtain ⟨k, v⟩ := x
    have hk : a < k := h (k, v) (by simp)
    have hne : k ≠ a := by omega
    simp only [Store.read, hne, if_false]
    exact ih fun y hy => h y (by simp [hy])

theorem Store.above_write {a b : Nat} {m : List Host.Cell} {v : Byte} (h : Store.above a m) (hb : a < b) :
    Store.above a (Store.write m b v) := by
  induction m with
  | nil =>
    simp only [Store.write]
    split <;> simp [Store.above, hb]
  | cons x xs ih =>
    obtain ⟨k, w⟩ := x
    have hk : a < k := h (k, w) (by simp)
    have hxs : Store.above a xs := fun y hy => h y (by simp [hy])
    simp only [Store.write]
    split
    · split
      · exact h
      · intro y hy
        rcases List.mem_cons.1 hy with rfl | hy
        · exact hb
        · exact h y hy
    · split
      · split
        · exact hxs
        · intro y hy
          rcases List.mem_cons.1 hy with rfl | hy
          · exact hb
          · exact hxs y hy
      · intro y hy
        rcases List.mem_cons.1 hy with rfl | hy
        · exact hk
        · exact ih hxs y hy

/-- A write keeps the canonical form. -/
theorem Store.wf_write {m : List Host.Cell} (h : Store.wf m = true) (a : Nat) (v : Byte) :
    Store.wf (Store.write m a v) = true := by
  induction m with
  | nil =>
    simp only [Store.write]
    split <;> simp_all [Store.wf]
  | cons x xs ih =>
    obtain ⟨k, w⟩ := x
    obtain ⟨h1, h2, h3⟩ := (Store.wf_cons k w xs).1 h
    simp only [Store.write]
    split
    · rename_i hlt
      split
      · exact h
      · rename_i hv
        refine (Store.wf_cons _ _ _).2 ⟨hv, ?_, h⟩
        intro y hy
        rcases List.mem_cons.1 hy with rfl | hy
        · exact hlt
        · exact Nat.lt_trans hlt (h2 y hy)
    · rename_i hlt
      split
      · rename_i heq
        subst heq
        split
        · exact h3
        · rename_i hv
          exact (Store.wf_cons _ _ _).2 ⟨hv, h2, h3⟩
      · rename_i hne
        refine (Store.wf_cons _ _ _).2 ⟨h1, Store.above_write h2 (by omega), ih h3⟩

theorem Store.wf_writeBytes {m : List Host.Cell} (h : Store.wf m = true) (a : Nat) (bs : List Byte) :
    Store.wf (Store.writeBytes m a bs) = true := by
  induction bs generalizing m a with
  | nil => exact h
  | cons b bs ih => exact ih (Store.wf_write h a b) (a + 1)

/-- Programming a page keeps the canonical form. -/
theorem Store.wf_writePage {m : List Host.Cell} (h : Store.wf m = true) (p : Nat) (image : List Byte) :
    Store.wf (Store.writePage m p image) = true := Store.wf_writeBytes h _ _

/-! ### Reading after a write -/

theorem Store.read_cons_ne {k a : Nat} (w : Byte) (m : List Host.Cell) (h : k ≠ a) :
    Store.read ((k, w) :: m) a = Store.read m a := by simp [Store.read, h]

theorem Store.read_write_self {m : List Host.Cell} (h : Store.wf m = true) (a : Nat) (v : Byte) :
    Store.read (Store.write m a v) a = v := by
  induction m with
  | nil =>
    simp only [Store.write]
    split <;> simp_all [Store.read]
  | cons x xs ih =>
    obtain ⟨k, w⟩ := x
    obtain ⟨h1, h2, h3⟩ := (Store.wf_cons k w xs).1 h
    simp only [Store.write]
    split
    · rename_i hlt
      split
      · rename_i hv
        rw [Store.read_above, hv]
        intro y hy
        rcases List.mem_cons.1 hy with rfl | hy
        · exact hlt
        · exact Nat.lt_trans hlt (h2 y hy)
      · simp [Store.read]
    · split
      · rename_i heq
        subst heq
        split
        · rename_i hv
          rw [Store.read_above h2, hv]
        · simp [Store.read]
      · rename_i hne
        rw [Store.read_cons_ne _ _ (fun e => hne e.symm), ih h3]

theorem Store.read_write_ne (m : List Host.Cell) {a b : Nat} (v : Byte) (hab : a ≠ b) :
    Store.read (Store.write m a v) b = Store.read m b := by
  induction m with
  | nil =>
    simp only [Store.write]
    split <;> simp [Store.read, hab]
  | cons x xs ih =>
    obtain ⟨k, w⟩ := x
    simp only [Store.write]
    split
    · split
      · rfl
      · rw [Store.read_cons_ne _ _ hab]
    · split
      · rename_i heq
        subst heq
        split <;> simp [Store.read_cons_ne _ _ hab]
      · simp only [Store.read]
        rw [ih]

/-- Bytes outside the ones written read as before. -/
theorem Store.read_writeBytes_out (m : List Host.Cell) (a : Nat) (bs : List Byte) (b : Nat)
    (h : b < a ∨ a + bs.length ≤ b) : Store.read (Store.writeBytes m a bs) b = Store.read m b := by
  induction bs generalizing m a with
  | nil => rfl
  | cons x xs ih =>
    simp only [List.length_cons] at h
    simp only [Store.writeBytes]
    rw [ih _ _ (by omega), Store.read_write_ne _ _ (by omega)]

/-- Bytes written read as written. -/
theorem Store.read_writeBytes_in {m : List Host.Cell} (hm : Store.wf m = true) (a : Nat) (bs : List Byte) (i : Nat)
    (h : i < bs.length) : Store.read (Store.writeBytes m a bs) (a + i) = bs[i] := by
  induction bs generalizing m a i with
  | nil => simp at h
  | cons x xs ih =>
    simp only [Store.writeBytes]
    cases i with
    | zero =>
      rw [Store.read_writeBytes_out _ _ _ _ (by omega)]
      exact Store.read_write_self hm a x
    | succ j =>
      have e : a + (j + 1) = a + 1 + j := by omega
      rw [e, ih (Store.wf_write hm _ _) _ _ (by simpa using h)]
      rfl

/-- A page programmed from an image of 512 bytes reads as the image. -/
theorem Store.read_writePage_in {m : List Host.Cell} (hm : Store.wf m = true) (p : Nat) (image : List Byte)
    (hl : image.length = Config.pageBytes) (i : Nat) (h : i < image.length) :
    Store.read (Store.writePage m p image) (pageAddress p i) = image[i] := by
  have ht : image.take Config.pageBytes = image := by rw [← hl, List.take_length]
  have e : pageAddress p i = pageAddress p 0 + i := by simp [pageAddress]
  unfold Store.writePage
  rw [ht, e, Store.read_writeBytes_in hm _ _ _ h]

/-- Programming a page leaves every byte of every other page. -/
theorem Store.read_writePage_out (m : List Host.Cell) (p q : Nat) (image : List Byte) (i : Nat)
    (h : q ≠ p) (hi : i < Config.pageBytes) :
    Store.read (Store.writePage m p image) (pageAddress q i) = Store.read m (pageAddress q i) := by
  have hl : (image.take Config.pageBytes).length ≤ Config.pageBytes := by simp
  refine Store.read_writeBytes_out _ _ _ _ ?_
  simp only [pageAddress, Config.pageBytes] at *
  omega

/-- Equal memories are equal lists: two lists in canonical form that read alike are the same. -/
theorem Store.ext {m n : List Host.Cell} (hm : Store.wf m = true) (hn : Store.wf n = true)
    (h : ∀ a, Store.read m a = Store.read n a) : m = n := by
  induction m generalizing n with
  | nil =>
    cases n with
    | nil => rfl
    | cons y ys =>
      obtain ⟨k, v⟩ := y
      have h1 := (Store.wf_cons k v ys).1 hn
      have h2 := h k
      simp [Store.read] at h2
      exact absurd h2.symm h1.1
  | cons x xs ih =>
    obtain ⟨k, v⟩ := x
    obtain ⟨a1, a2, a3⟩ := (Store.wf_cons k v xs).1 hm
    cases n with
    | nil =>
      have h2 := h k
      simp [Store.read] at h2
      exact absurd h2 a1
    | cons y ys =>
      obtain ⟨k', v'⟩ := y
      obtain ⟨b1, b2, b3⟩ := (Store.wf_cons k' v' ys).1 hn
      have hk : k = k' := by
        rcases Nat.lt_trichotomy k k' with hlt | heq | hgt
        · have h2 := h k
          have h3 : Store.read ((k', v') :: ys) k = 255 := by
            refine Store.read_above fun z hz => ?_
            rcases List.mem_cons.1 hz with rfl | hz
            · exact hlt
            · exact Nat.lt_trans hlt (b2 z hz)
          rw [h3] at h2
          simp [Store.read] at h2
          exact absurd h2 a1
        · exact heq
        · have h2 := h k'
          have h3 : Store.read ((k, v) :: xs) k' = 255 := by
            refine Store.read_above fun z hz => ?_
            rcases List.mem_cons.1 hz with rfl | hz
            · exact hgt
            · exact Nat.lt_trans hgt (a2 z hz)
          rw [h3] at h2
          simp [Store.read] at h2
          exact absurd h2.symm b1
      subst hk
      have hv : v = v' := by
        have h2 := h k
        simpa [Store.read] using h2
      subst hv
      congr 1
      refine ih a3 b3 fun a => ?_
      by_cases hka : k = a
      · subst hka
        rw [Store.read_above a2, Store.read_above b2]
      · have h2 := h a
        rwa [Store.read_cons_ne _ _ hka, Store.read_cons_ne _ _ hka] at h2

end Sys2Proof.Machine
end

