-- ==== Sys2Proof/Laws/Pages.lean ====
section
/-! SUPPORT. Slots and records: what a write of one slot leaves of the others, the record of an erased slot, and the
image's sixteen slots, each said once. -/

namespace Sys2Proof.Machine

-- One proof at a time: many waiting side by side outrun the checker's memory.
set_option Elab.async false

/-- A slot's bytes, read one by one. -/
theorem slotRead_getElem? (m : List Host.Cell) (p k i : Nat) (h : i < 28) :
    (slotRead m p k)[i]? = some (Store.read m (pageAddress p (32 * k + i))) := by
  simp [slotRead, pageRead, h]

/-- Two stores that read alike over a slot give the same slot. -/
theorem slotRead_congr {m n : List Host.Cell} {p k : Nat}
    (h : ∀ i < 28, Store.read m (pageAddress p (32 * k + i)) = Store.read n (pageAddress p (32 * k + i))) :
    slotRead m p k = slotRead n p k := by
  simp only [slotRead, pageRead]
  exact List.map_congr_left fun i hi => h i (List.mem_range.mp hi)

/-- A write within one slot leaves every other slot. -/
theorem slotRead_writeBytes_other (m : List Host.Cell) {p k q j : Nat} {bs : List Byte} (hk : k < 16) (hj : j < 16)
    (hl : bs.length ≤ 28) (hne : ¬ (p = q ∧ k = j)) :
    slotRead (Store.writeBytes m (pageAddress q (32 * j)) bs) p k = slotRead m p k := by
  refine slotRead_congr fun i hi => Store.read_writeBytes_out m _ bs _ ?_
  simp only [pageAddress, Config.pageBytes]
  omega

/-- Every slot of an erased store is erased. -/
theorem slotRead_nil (p k : Nat) : slotRead [] p k = freeSlot := by
  simp [slotRead, pageRead, Store.read, freeSlot, List.map_const']

/-- An erased slot holds no record. -/
theorem StoreBlock.record_of_free {st : StoreBlock} {p k : Nat} (h : slotRead st.cells p k = freeSlot) :
    st.record p k = none := by
  have hd : decodeCredential freeSlot = none := by decide +kernel
  unfold StoreBlock.record rawRecord
  rw [h, hd]
  simp

/-- The slots of a credential page's image (R7 to R9). -/
theorem StoreBlock.imageSlots_credentialSlots (st : StoreBlock) (p k : Nat) (new : List Byte) :
    st.imageSlots p k new (st.credentialSlots p k new) := by
  refine ⟨by simp [StoreBlock.credentialSlots], fun j hj => ?_⟩
  unfold StoreBlock.credentialSlots
  exact List.getElem?_map.trans (congrArg (Option.map _) (List.getElem?_range hj))

end Sys2Proof.Machine
end

