-- ==== Sys2Proof/Laws/Requests.lean ====
section
/-! SUPPORT. What a good frame on the host line comes to, said once: refused, carried out, or a program begun, when the
port takes it (R163, R164). -/

namespace Sys2Proof.Machine

-- One proof at a time: many waiting side by side outrun the checker's memory.
set_option Elab.async false

/-- Hunting for a lead byte changes nothing that a request's checks read but the receiver. -/
@[simp] theorem State.hostHunt_host (s : State) : s.hostHunt.host = { s.host with rx := [] } := rfl

theorem State.hostFrame_of_canTake {s : State} (h : s.canTake) (tag : Byte) (r : Request) :
    s.hostFrame tag r = (s.hostHunt.takeRequest tag r).choose := by
  obtain ⟨h1, h2⟩ := h
  simp [State.hostFrame, State.goodFrame, State.takes, State.running, State.hostHunt, h1, h2]

theorem State.takes_hostHunt {s : State} (h : ¬ s.canTake) : s.hostHunt.takes = false := by
  cases hc : s.hostHunt.takes with
  | false => rfl
  | true =>
    rw [State.takes, Bool.and_eq_true] at hc
    exact absurd ⟨of_decide_eq_true hc.1, of_decide_eq_true hc.2⟩ h

/-- A refused request leaves the reply with its status and nothing else. -/
theorem State.hostFrame_refuse {s : State} (h : s.canTake) {tag : Byte} {r : Request} {st : ReplyStatus}
    (hj : s.hostHunt.judge r = .refuse st) : s.hostFrame tag r = s.replied r.type tag st .empty := by
  rw [State.hostFrame_of_canTake h, State.takeRequest, hj]
  simp only [State.replied, State.choose, State.reply, HostPort.reply, HostPort.choose, State.hostHunt, State.setHost]
  split <;> simp_all

/-- A request carried out at once leaves its effect and the reply DONE. -/
theorem State.hostFrame_done {s s' : State} (h : s.canTake) {tag : Byte} {r : Request} {b : ReplyBody}
    (hj : s.hostHunt.judge r = .done s'.hostHunt b) : s.hostFrame tag r = s'.replied r.type tag .done b := by
  rw [State.hostFrame_of_canTake h, State.takeRequest, hj]
  simp only [State.replied, State.choose, State.reply, HostPort.reply, HostPort.choose, State.hostHunt, State.setHost]
  split <;> simp_all

/-- A request carried out by a WRITE program leaves the program begun and the request EXECUTING. -/
theorem State.hostFrame_write {s : State} (h : s.canTake) {tag : Byte} {r : Request} {p n : Nat}
    {slots : List (List Byte)} {j : Job} (hn : s.store.stamp = some n)
    (hj : s.hostHunt.judge r = .write p slots j) : s.hostFrame tag r = s.writing r.type tag p n slots j := by
  rw [State.hostFrame_of_canTake h, State.takeRequest, hj]
  simp [State.writing, StoreBlock.beginWrite, State.setRequest, State.hostHunt, State.setHost, State.setStore, hn,
    Config.maxStamp]

/-- Every request command runs the one frame path (R162, R163). -/
theorem exec_of_requestOf {c : Instr} {tag : Byte} {r : Request} (h : requestOf c = some (tag, r)) (s : State) :
    exec c s = .next (s.hostFrame tag r) := by
  cases c <;> simp only [requestOf, Option.some.injEq, Prod.mk.injEq, reduceCtorEq] at h <;> obtain ⟨rfl, rfl⟩ := h <;>
    rfl

end Sys2Proof.Machine
end

