-- ==== Sys2Proof/WellFormed.lean ====
section
/-! DEFINITION. Which commands a line partner can send at all: the lists of a command fit the frame that carries it,
and a frame named by its kind is of that kind (R44, R162, R180 to R182). `exec` is total and does not need this. -/

namespace Sys2Proof

/-- The longest list of interval words in a LOAD-PROFILE frame: type, tag, profile, count and 4 n bytes are at most
250 (R162, R180). -/
def maxIntervalWords : Nat := 61

/-- The longest group and personal lists together in an ENROLL frame: 17 + n + m bytes are at most 250 (R180). -/
def maxEnrollList : Nat := 233

/-- The longest car-call list in a STATUS frame: the body length byte holds 10 + c (R182). -/
def maxCarCalls : Nat := 245

/-- A command that can arrive. -/
def WellFormed : Instr → Bool
  | .loadProfile _ _ intervals => intervals.length ≤ maxIntervalWords
  | .enroll _ _ _ _ _ groups _ personal _ _ _ => groups.length + personal.length ≤ maxEnrollList
  | .undefinedRequestType type _ => type.toNat = 0 ∨ 22 < type.toNat
  | .present _ _ _ kind => kind.toNat = 1 ∨ kind.toNat = 2
  | .status _ _ _ _ _ _ _ _ _ _ _ calls => calls.length ≤ maxCarCalls
  | .hostPartialFrameTimeout bytes => 0 < bytes.length ∧ bytes.length < 253
  | .readerPartialFrameTimeout _ bytes => 0 < bytes.length ∧ bytes.length < 258
  | .answerByteTimeout _ bytes => 0 < bytes.length ∧ bytes.length < 260
  | .badAnswer _ bytes => 4 < bytes.length ∧ bytes.length ≤ 260
  | .resetPin | .resetPinRelease | .startUpScanEnd | .setClock .. | .setNextDay .. | .loadSite .. | .loadFloor ..
  | .loadBank .. | .loadReader .. | .loadGroup .. | .loadTenant .. | .revoke .. | .setBadgeState .. | .erasePage ..
  | .setBankMode .. | .setCarService .. | .setFloorState .. | .setReports .. | .queryBadge .. | .queryCar ..
  | .queryBookings .. | .queryPart .. | .restart .. | .verifyMatch | .verifyMismatch | .recallInputAsserted ..
  | .recallInputDeasserted .. | .lrqAsserted .. | .lrqDeasserted .. | .ping .. | .replyShifterDone ..
  | .presentationTaking | .decisionMoment | .transactionChoice .. | .sweepDue .. | .commandSent ..
  | .readbackMismatch .. | .backoffEnd .. | .faultEnd .. | .hold .. | .resend .. | .resendPauseEnd ..
  | .answerWindowExpiry .. | .contactTimer .. | .abandonTimer | .ticketExpiry | .calendarSecondAdvance
  | .replySent | .busyReplySent | .reportSent | .reportStopIdleEnd => true

end Sys2Proof
end

