-- ==== Sys2Proof/Tests/Slice0.lean ====
section
/-! SUPPORT. Tests of the model: the refusals of WellFormed, the spec's own worked figures, one step of every command on
a small state, and for each statement with hypotheses a state and operands that meet them. -/

namespace Sys2Proof.Tests

open Sys2Proof.Machine

-- One kernel check at a time: many waiting side by side outrun the checker's memory.
set_option Elab.async false

/-! ### WellFormed refuses -/

theorem test_wf_profile_words : WellFormed (.loadProfile 0 1 (List.replicate 62 0)) = false := by decide
theorem test_wf_enroll_lists :
    WellFormed (.enroll 0 1 1 0 1 (List.replicate 200 0) 0 (List.replicate 34 0) 0 0 0) = false := by decide +kernel
theorem test_wf_undefined_type_low : WellFormed (.undefinedRequestType 1 0) = false := by decide
theorem test_wf_undefined_type_high : WellFormed (.undefinedRequestType 22 0) = false := by decide
theorem test_wf_present_kind : WellFormed (.present 0 1 255 3) = false := by decide
theorem test_wf_status_calls :
    WellFormed (.status 0 0 0 0 0 0 0 0 0 0 0 (List.replicate 246 0)) = false := by decide +kernel
theorem test_wf_host_bytes : WellFormed (.hostPartialFrameTimeout []) = false := by decide
theorem test_wf_host_bytes_long : WellFormed (.hostPartialFrameTimeout (List.replicate 253 0)) = false := by
  decide +kernel
theorem test_wf_reader_bytes : WellFormed (.readerPartialFrameTimeout 0 (List.replicate 258 0)) = false := by
  decide +kernel
theorem test_wf_timeout_bytes : WellFormed (.answerByteTimeout 0 []) = false := by decide
theorem test_wf_bad_answer_short : WellFormed (.badAnswer 0 [0x69, 0, 0, 0]) = false := by decide
theorem test_wf_bad_answer_long : WellFormed (.badAnswer 0 (List.replicate 261 0)) = false := by decide +kernel
theorem test_wf_accepts : WellFormed (.undefinedRequestType 23 0) = true ∧ WellFormed (.present 0 1 255 2) = true := by
  decide

/-! ### A small running part

Bank A (0) has two cars in NORMAL; the other banks are OUT. Floor 0 is a LOBBY and floor 5 an ordinary floor, both OPEN and
served by bank A. Reader 0 is a kiosk at floor 0. Badge 305419896 lies in its home page 186, slot 0. -/

def record0 : Credential :=
  { badge := 305419896, state := .active, tenant := 3, units := 1, groups := [7], defaultFloor := none, personal := [],
    validFrom := 0, validUntil := none }

def bank0 : BankRec := { BankRec.erased with carCount := 2, storedMode := .normal }

def floor0 : FloorRec := { label := { c0 := 32, c1 := 32, c2 := 71 }, kind := .lobby, state := .isOpen, banks := 1 }

def floor5 : FloorRec := { label := { c0 := 32, c1 := 32, c2 := 53 }, kind := .ordinary, state := .isOpen, banks := 1 }

def group7 : Group := { floors := 0b1000100000, profile := 0, enabled := true, override := false }

def status0 : Status :=
  { position := 0, direction := none, motion := .stopped, doors := .closed, carMode := .normal, load := 0,
    accepted := none, fresh := true, calls := [] }

def car0 : Car := { Car.reset with service := .inService, status := some status0, age := some 990, enabled := 1 }

def running : State :=
  { State.reset with
    part := { state := .running, resetPin := false, scanning := false, cause := .pin, clock := 1000 },
    store :=
      { cells := Store.writeBytes [] (pageAddress 186 0) (encodeCredential record0), badPages := some [], freed := [],
        slotsInUse := 1, stamp := some 5, programmer := none },
    policy :=
      { Policy.erased with
        groups := Policy.erased.groups.set 7 group7,
        tenants := Policy.erased.tenants.set 3 { floors := 0b100001, state := .normal },
        floors := (Policy.erased.floors.set 0 floor0).set 5 floor5,
        banks := Policy.erased.banks.set 0 bank0,
        readers := Policy.erased.readers.set 0 { enabled := true, home := 0, banks := 1, kind := .kiosk, holdTime := 8 } },
    disp :=
      { DispatchBlock.reset with
        cars := (Vector.replicate 32 Car.reset).set 0 car0,
        modes := (Vector.replicate 4 (some .out)).set 0 (some .normal) },
    lines := (Vector.replicate 4 Line.reset).set 0 { Line.reset with queue := [0] } }

/-- The state after a command that answers a next state. -/
def after (c : Instr) (s : State) : State :=
  match exec c s with
  | .next t => t
  | .fault _ | .refused _ => State.reset

/-- The status of the reply that a request command leaves. -/
def verdict (c : Instr) (s : State) : Option ReplyStatus :=
  match (after c s).host.request with
  | .replying r => some r.status
  | .idle | .executing _ _ => none

/-- The job of the program that a request command begins. -/
def jobOf (c : Instr) (s : State) : Option Job := (after c s).store.programmer.map fun g => g.job

/-- A state with a program in flight for a request of this type. -/
def programming (page : Nat) (job : Job) (s : State) : State :=
  { s with
    store := { s.store with programmer := some { page := page, image := eraseImage, erase := false, job := job } },
    host := { s.host with request := .executing 7 9 } }

def setLine0 (l : Line) (s : State) : State := s.setLine 0 l

def poll0 : Transaction :=
  { kind := .poll, car := 0, frame := .poll, source := .sweep, attempt := 1, holds := 0, resends := 0 }

/-- Line 0 waits for the answer to a poll of car 0. -/
def listening : State := running.setLine 0 { Line.reset with state := .awaiting, inHand := some poll0, sweep := some 0,
                                                             queue := [0], ends := some 3 }

def sendingLine : State := running.setLine 0 { Line.reset with state := .sending, inHand := some poll0, sweep := some 0,
                                                               queue := [0] }

def booking0 : Booking :=
  { id := 0, serial := 0, badge := 305419896, port := 0, bank := 0, car := 0, origin := 0, dest := 5, units := 1,
    state := .waiting, leg := .direct, created := 900 }

/-- The running part with one WAITING booking on car 0 of bank A. -/
def booked : State :=
  (running.setDisp { running.disp with bookings := [booking0], serial := 1 }).setCar 0 0
    { car0 with stops := [{ key := { floor := 0, dir := .up }, pickup := true, drop := false, call := false }],
                planned := some .up }

def taken0 : Presentation := { port := 0, badge := 305419896, floor := some 5, supersedes := none, arrival := 999 }

/-- The engine has a tap at port 0 for floor 5 in hand. -/
def deciding : State :=
  (running.setPort 0 { Port.reset with state := .pending, slot := some { pres := taken0, taken := true } }).setEngine
    { inHand := some taken0, entryCopy := some (0, 1), pointer := 0 }

/-! ### The spec's figures -/

/-- The check byte of a PING frame: 5A 01 02 and the byte that makes the sum 0 (R178). -/
theorem test_ping_frame_check : checkByte [0x5A, 0x01, 0x02] = 0xA3 := by decide
theorem test_home_page : homePage 2046 = 2046 ∧ homePage 2048 = 1 ∧ homePage 305419896 = 186 := by decide +kernel
theorem test_probe_range_wraps : probeRange 2046 = [2046, 2047, 0, 1] := by decide +kernel
theorem test_lookup_finds : running.store.lookup 305419896 = .found record0 186 0 := by decide +kernel
theorem test_lookup_missing : running.store.lookup 305419897 = .missing := by decide +kernel

/-- A port's own DENY report has port, badge and reason (R50); the engine's has the two floors too (R77). -/
theorem test_deny_report_bodies :
    (ReportBody.deny 2 1 .badRequest none none).bytes = [2, 1, 0, 0, 0, DenyReason.badRequest.code] ∧
      (ReportBody.deny 2 1 .noRoute (some 9) (some 9)).bytes = [2, 1, 0, 0, 0, DenyReason.noRoute.code, 9, 9] := by
  decide +kernel

/-- The sweep order example of R82: a car at 12 reporting UP, then at 16 reporting DOWN. -/
def sweepKeys : List Stop :=
  [({ floor := 8, dir := .up } : Key), { floor := 5, dir := .down }, { floor := 27, dir := .up },
    { floor := 15, dir := .down }, { floor := 20, dir := .up }].map fun k =>
    { key := k, pickup := true, drop := false, call := false }

theorem test_sweep_up :
    (sortStops .up 12 sweepKeys).map (fun e => (e.key.floor.val, e.key.dir)) =
      [(20, .up), (27, .up), (15, .down), (5, .down), (8, .up)] := by decide +kernel

theorem test_sweep_down :
    (sortStops .down 16 sweepKeys).map (fun e => (e.key.floor.val, e.key.dir)) =
      [(15, .down), (5, .down), (8, .up), (20, .up), (27, .up)] := by decide +kernel

/-- The example tower (00): bank A serves 0 to 30, B serves 2 and 31 to 59, C serves 2 and 60, D serves 60 to 120. -/
def towerFloor (f : Floor) : FloorRec :=
  let banks : BankSet :=
    (if f.val ≤ 30 then 1 else 0) ||| (if f.val = 2 ∨ (31 ≤ f.val ∧ f.val ≤ 59) then 2 else 0) |||
      (if f.val = 2 ∨ f.val = 60 then 4 else 0) ||| (if 60 ≤ f.val ∧ f.val ≤ 120 then 8 else 0)
  { label := floor0.label, state := .isOpen, banks := banks,
    kind := if f.val = 2 then .lobby else if f.val = 60 then .skyLobby else if f.val = 120 then .amenity else .ordinary }

def towerPolicy : Policy :=
  { Policy.erased with
    floors := Vector.ofFn towerFloor,
    tenants := Policy.erased.tenants.set 12 { floors := BitVec.ofNat 128 (255 * 2 ^ 40), state := .normal },
    groups :=
      (Policy.erased.groups.set 3
        { floors := BitVec.ofNat 128 (255 * 2 ^ 40), profile := 5, enabled := true, override := false }).set 9
        { floors := BitVec.ofNat 128 (2 ^ 44 + 2 ^ 90), profile := 0, enabled := true, override := false },
    profiles := Policy.erased.profiles.set 5 [{ days := 1, start := 420, stop := 1200 }] }

def towerBadge : Credential :=
  { badge := 305419896, state := .active, tenant := 12, units := 1, groups := [3, 9], defaultFloor := none,
    personal := [101], validFrom := 0, validUntil := none }

def tower : State :=
  { running with
    policy := towerPolicy,
    calendar := { Calendar.reset with isSet := true, minute := 1290 },
    disp := { DispatchBlock.reset with modes := Vector.replicate 4 (some .normal) } }

/-- The permitted set of the worked case of 02: 2, 44, 60, 101 and 120 at 21:30. -/
theorem test_permitted_set :
    allFloors.filter (fun f => (tower.permitted towerBadge).has f) = [2, 44, 60, 101, 120] ∧
      tower.overrideFlag towerBadge = false := by decide +kernel

/-- The candidate floors of the worked case of 04: 44 and 101. -/
theorem test_candidate_floors :
    tower.candidateFloors (tower.permitted towerBadge) 2 15 = [44, 101] := by decide +kernel

/-- The one pair (C, 60) of the worked case of 04. -/
theorem test_transfer_route : tower.route 2 15 101 = some (.transfer [(2, 60)]) := by decide +kernel

def stopAt (f : Floor) (d : Dir) : Stop :=
  { key := { floor := f, dir := d }, pickup := true, drop := false, call := false }

def statusAt (p : Floor) (d : Option Dir) (doors : Doors) : Status :=
  { status0 with position := p, direction := d, doors := doors }

def bookingOf (id units : Nat) (car : CarNo) (o d : Floor) (st : BookingState) : Booking :=
  { booking0 with id := id, serial := BitVec.ofNat 32 id, car := car, origin := o, dest := d, units := units,
                  state := st }

/-- Cars A1 to A3 of the worked case of 06. -/
def fourCars : State :=
  { tower with
    disp :=
      { tower.disp with
        bookings :=
          [bookingOf 0 2 0 2 27 .riding, bookingOf 1 1 0 20 24 .waiting, bookingOf 2 1 1 25 2 .riding,
            bookingOf 3 1 1 18 6 .waiting],
        cars :=
          ((tower.disp.cars.set 0
            { Car.reset with service := .inService, status := some (statusAt 12 (some .up) .closed),
                             stops := [stopAt 20 .up, stopAt 27 .up] }).set 1
            { Car.reset with service := .inService, status := some (statusAt 25 (some .down) .closed),
                             stops := [stopAt 18 .down, stopAt 2 .down] }).set 2
            { Car.reset with service := .inService, status := some (statusAt 30 none .closed) } } }

/-- The lanes of the worked case of 06: 1400, 955 and 810, and 65535 for the others; A3 wins. -/
theorem test_lanes :
    (allCars.map fun c => fourCars.lane 0 { origin := 2, dest := 28, units := 1 } c) =
      [1400, 955, 810, 65535, 65535, 65535, 65535, 65535] := by decide +kernel

theorem test_winner : fourCars.evaluate 0 { origin := 2, dest := 28, units := 1 } = some (2, 810) := by
  decide +kernel

/-- Car B1 of the second worked case of 06, standing open: lane 90. -/
theorem test_stands_open :
    waitTerm BankRec.erased
      { Car.reset with status := some (statusAt 2 none .opened), planned := some .up, stops := [stopAt 45 .up] }
      { origin := 2, dest := 0, units := 1 } = 0 := by decide +kernel

/-- An included lane of a car under way, and one of a car that stands open at the trip's origin. -/
theorem witness_LanesAndTheWinningCar :
    (fourCars.lane 0 { origin := 2, dest := 28, units := 1 } 0 ≠ 65535 ∧
      ((fourCars.car 0 0).status.map fun st => st.position) = some 12) ∧
      ((fourCars.setCar 0 2 { fourCars.car 0 2 with status := some (statusAt 30 none .opened) }).lane 0
        { origin := 30, dest := 2, units := 1 } 2 ≠ 65535) ∧
      ((statusAt 30 none .opened).position = 30 ∧ (statusAt 30 none .opened).doors = .opened ∧
        (statusAt 30 none .opened).direction = none) := by decide +kernel

/-- Overflow (worked case of 10): the thirty-third report, ROUTINE, is lost and sets the gap mark. -/
theorem test_overflow :
    let r : Report := { cls := .routine, clock := 0, body := .recallInput 0 true, gap := false }
    let h : HostPort := { HostPort.reset with queue := List.replicate 32 { r with cls := .urgent } }
    (h.post r).queue = h.queue ∧ (h.post r).gap = true := by decide +kernel

/-- The FULL flag at threshold 90 (R92): set at 90, cleared below 80, kept between. -/
theorem test_full_flag :
    fullFlag 90 92 false = true ∧ fullFlag 90 85 true = true ∧ fullFlag 90 80 true = true ∧
      fullFlag 90 79 true = false := by decide

/-- A page of 255s is GOOD (R18); one changed byte makes it BAD. -/
theorem test_erased_page_good : judgeGood [] 3 = true := by decide +kernel
theorem test_one_byte_bad : judgeGood [(1540, 0)] 3 = false := by decide +kernel

/-! ### One step of each command -/

theorem test_reset_pin :
    (after .resetPin booked).part.state = .starting ∧ (after .resetPin booked).disp.bookings = [] ∧
      (after .resetPin booked).host.enables = 0b1111111011 := by decide +kernel
theorem test_release_begins_the_scan :
    (after .resetPinRelease State.reset).part.scanning = true ∧
      (after .resetPinRelease State.reset).part.resetPin = false := by decide +kernel

/-- The part at the end of a scan of the store that holds `running`'s working copies. -/
def scanned : State :=
  { running with
    part := { State.reset.part with resetPin := false, scanning := true },
    disp := DispatchBlock.reset, lines := Vector.replicate 4 Line.reset }

theorem test_scan_end_modes :
    (after .startUpScanEnd scanned).part.state = .running ∧ (after .startUpScanEnd scanned).mode 0 = some .normal ∧
      (after .startUpScanEnd scanned).mode 1 = some .out := by decide +kernel
theorem test_scan_end_cars :
    ((after .startUpScanEnd scanned).car 0 1).service = .outOfContact ∧
      ((after .startUpScanEnd scanned).car 0 2).service = .absent ∧
      ((after .startUpScanEnd scanned).port 0).state = .idle ∧
      ((after .startUpScanEnd scanned).port 1).state = .disabled := by decide +kernel

theorem test_set_clock :
    (after (.setClock 9 20000 4 1410 30 0 255) running).calendar.day = 20000 ∧
      (after (.setClock 9 20000 4 1410 30 0 255) running).calendar.minute = 1410 ∧
      verdict (.setClock 9 20000 4 1410 30 0 255) running = some .done := by decide +kernel
theorem test_set_clock_bad_minute :
    verdict (.setClock 9 20000 4 1440 0 0 255) running = some .badValue := by decide +kernel
theorem test_set_next_day : (after (.setNextDay 9 3) running).calendar.pendingType = some .holiday := by decide +kernel
theorem test_set_next_day_bad : verdict (.setNextDay 9 4) running = some .badValue := by decide +kernel
theorem test_load_site_clamps : jobOf (.loadSite 9 5000) running = some (.site 1800) := by decide +kernel
theorem test_load_floor_needs_out :
    verdict (.loadFloor 9 5 32 32 65 0 0 0) running = some .bankActive := by decide +kernel
theorem test_load_floor :
    jobOf (.loadFloor 9 5 32 32 65 3 1 3) running =
      some (.floor 5 { label := { c0 := 32, c1 := 32, c2 := 65 }, kind := .amenity, state := .isClosed, banks := 3 }) := by
  decide +kernel
theorem test_load_bank_needs_out :
    verdict (.loadBank 9 0 4 16 15 80 10 4 300 3 90 0) running = some .bankActive := by decide +kernel
theorem test_load_bank_clamps :
    jobOf (.loadBank 9 1 0 40 4 10 60 1 1000 0 30 7) running =
      some (.bank 1
        { carCount := 1, capacity := 32, floorTime := 5, stopTime := 20, loadBias := 50, tripCap := 2, maxWait := 900,
          contactTime := 1, fullThreshold := 50, recallFloor := 7, withdrawn := 0, storedMode := .out }) := by
  decide +kernel
theorem test_load_reader :
    jobOf (.loadReader 9 2 1 60 8 2 99) running =
      some (.reader 2 { enabled := true, home := 60, banks := 8, kind := .gate, holdTime := 30 }) := by decide +kernel
theorem test_load_reader_bad_kind : verdict (.loadReader 9 2 1 60 8 3 8) running = some .badValue := by decide +kernel
theorem test_load_group_bad_profile : verdict (.loadGroup 9 255 1 64 3) running = some .badValue := by decide +kernel
theorem test_load_group :
    jobOf (.loadGroup 9 255 1 5 3) running =
      some (.group 255 { floors := 1, profile := 5, enabled := true, override := true }) := by decide +kernel

/-- The interval of the worked case of 02: WORKDAY, start 420, end 1200. -/
theorem test_load_profile :
    jobOf (.loadProfile 9 5 [BitVec.ofNat 32 (420 + 1200 * 2048 + 1 * 4194304)]) running =
      some (.profile 5 [{ days := 1, start := 420, stop := 1200 }]) := by decide +kernel
theorem test_load_profile_zero : verdict (.loadProfile 9 0 []) running = some .badValue := by decide +kernel
theorem test_load_tenant :
    jobOf (.loadTenant 9 127 1 1) running = some (.tenant 127 { floors := 1, state := .locked }) := by decide +kernel
theorem test_load_tenant_bad : verdict (.loadTenant 9 128 1 0) running = some .badValue := by decide +kernel
theorem test_enroll_place :
    (after (.enroll 9 2048 1 3 1 [7] 255 [] 0 0 0) running).store.programmer.map (fun g => g.page) = some 1 := by
  decide +kernel
theorem test_enroll_bad_groups :
    verdict (.enroll 9 2048 1 3 1 [] 255 [] 0 0 0) running = some .badValue := by decide +kernel
theorem test_revoke :
    (after (.revoke 9 305419896) running).store.programmer.map (fun g => g.page) = some 186 := by decide +kernel
theorem test_revoke_missing : verdict (.revoke 9 305419897) running = some .noSuch := by decide +kernel
theorem test_set_badge_state :
    ((after (.setBadgeState 9 305419896 3) running).store.programmer.map fun g => g.image.getD 4 255) = some 3 := by
  decide +kernel
theorem test_set_badge_state_bad : verdict (.setBadgeState 9 305419896 4) running = some .badValue := by
  decide +kernel
theorem test_erase_page_guarded : verdict (.erasePage 9 2076) running = some .bankActive := by decide +kernel
theorem test_erase_page :
    ((after (.erasePage 9 2048) running).store.programmer.map fun g => g.image.getD 511 0) = some 255 := by
  decide +kernel
theorem test_set_bank_mode : jobOf (.setBankMode 9 0 4) running = some (.bankMode 0 .fireRecall) := by decide +kernel
theorem test_set_bank_mode_bad : verdict (.setBankMode 9 0 5) running = some .badValue := by decide +kernel
theorem test_set_car_service : jobOf (.setCarService 9 0 1 1) running = some (.carService 0 1 true) := by
  decide +kernel
theorem test_set_car_service_bad : verdict (.setCarService 9 0 1 3) running = some .badValue := by decide +kernel
theorem test_set_floor_state :
    jobOf (.setFloorState 9 5 1) running = some (.floor 5 { floor5 with state := .isClosed }) := by decide +kernel
theorem test_set_floor_state_bad : verdict (.setFloorState 9 128 1) running = some .badValue := by decide +kernel
theorem test_set_reports : (after (.setReports 9 4) running).host.enables = 4 := by decide +kernel
theorem test_set_reports_bad : verdict (.setReports 9 1024) running = some .badValue := by decide +kernel
theorem test_query_badge : verdict (.queryBadge 9 305419896) running = some .done := by decide +kernel
theorem test_query_badge_missing : verdict (.queryBadge 9 1) running = some .noSuch := by decide +kernel
theorem test_query_car : verdict (.queryCar 9 3 7) running = some .done := by decide +kernel
theorem test_query_car_bad : verdict (.queryCar 9 0 8) running = some .badValue := by decide +kernel
theorem test_query_bookings :
    (after (.queryBookings 9 0 0 0) booked).host.request =
      .replying { type := 20, tag := 9, status := .done, body := .bookings 1 [booking0] } := by decide +kernel
theorem test_query_bookings_bad : verdict (.queryBookings 9 4 0 0) running = some .badValue := by decide +kernel
theorem test_query_part : verdict (.queryPart 9) running = some .done := by decide +kernel
theorem test_restart_replies :
    verdict (.restart 9) running = some .done ∧ (after (.restart 9) running).part.state = .running := by
  decide +kernel
theorem test_undefined_type : verdict (.undefinedRequestType 23 9) running = some .badValue := by decide +kernel

/-- A QUERY-PART frame but for its check byte, then silence: nothing is left of it (R162). -/
theorem test_host_timeout :
    (after (.hostPartialFrameTimeout [0xC3, 2, 21, 9]) running).host.request = .idle ∧
      (after (.hostPartialFrameTimeout [0xC3, 2, 21, 9]) running).host.rx = [] := by decide +kernel

theorem test_verify_match_site :
    (after .verifyMatch (programming 2084 (.site 90) running)).policy.ticketLife = 90 ∧
      verdict .verifyMatch (programming 2084 (.site 90) running) = some .done := by decide +kernel
theorem test_verify_match_closes_floor :
    (after .verifyMatch (programming 2076 (.floor 5 { floor5 with state := .isClosed }) booked)).disp.bookings = [] := by
  decide +kernel
theorem test_verify_mismatch :
    (after .verifyMismatch (programming 2084 (.site 90) running)).policy.ticketLife = 600 ∧
      verdict .verifyMismatch (programming 2084 (.site 90) running) = some .storeFault ∧
      (after .verifyMismatch (programming 2084 (.site 90) running)).store.badPages = some [2084] := by
  decide +kernel

theorem test_recall_asserted :
    (after (.recallInputAsserted 0) booked).mode 0 = some .fireRecall ∧
      (after (.recallInputAsserted 0) booked).disp.bookings = [] ∧
      ((after (.recallInputAsserted 0) booked).car 0 0).service = .recalled := by decide +kernel
theorem test_recall_deasserted_keeps_mode :
    (after (.recallInputDeasserted 0) (after (.recallInputAsserted 0) booked)).mode 0 = some .fireRecall := by
  decide +kernel
theorem test_lrq_asserted : ((after (.lrqAsserted 0) listening).line 0).state = .released := by decide +kernel
theorem test_lrq_deasserted :
    ((after (.lrqDeasserted 0) (after (.lrqAsserted 0) listening)).line 0).state = .idle := by decide +kernel

theorem test_present_enters :
    ((after (.present 0 305419896 5 1) running).port 0).state = .pending := by decide +kernel
/-- Floor 130 at a kiosk (worked case of 04). -/
theorem test_present_bad_floor :
    ((after (.present 0 305419896 130 1) running).port 0).shifter = some (.deny .badRequest) := by decide +kernel
theorem test_ping : ((after (.ping 0) running).port 0).shifter = some (.pong .running) := by decide +kernel
/-- A PING frame but for its check byte, then silence (R43). -/
theorem test_reader_timeout :
    (after (.readerPartialFrameTimeout 0 [0x5A, 1, 2]) running).port 0 = Port.reset := by decide +kernel
theorem test_reader_whole_frame :
    ((after (.readerPartialFrameTimeout 0 [0x5A, 1, 2, 0xA3]) running).port 0).shifter = some (.pong .running) := by
  decide +kernel
theorem test_shifter_done :
    ((after (.replyShifterDone 0) (after (.present 0 305419896 130 1) running)).port 0).state = .idle := by
  decide +kernel
theorem test_taking :
    (after .presentationTaking (after (.present 0 305419896 5 1) running)).engine =
      { inHand := some { port := 0, badge := 305419896, floor := some 5, supersedes := none, arrival := 1000 },
        entryCopy := some (0, 1), pointer := 0 } := by decide +kernel
theorem test_decision_grants :
    ((after .decisionMoment deciding).disp.bookings.map fun k => (k.id, k.car, k.origin, k.dest, k.leg)) =
      [(0, 0, 0, 5, .direct)] ∧
      ((after .decisionMoment deciding).port 0).shifter = some (.grant 0 0 floor5.label false none) := by
  decide +kernel
theorem test_decision_takes_a_generation :
    ((after .decisionMoment deciding).car 0 0).gen = 1 ∧ ((after .decisionMoment deciding).car 0 0).confirmed = none :=
  by decide +kernel

theorem test_choice_delivers :
    ((after (.transactionChoice 0) running).line 0).inHand.map (fun t => (t.kind, t.car, t.source)) =
      some (.stopset, 0, .delivery) := by decide +kernel
theorem test_choice_polls :
    ((after (.transactionChoice 0) (running.setLine 0 { Line.reset with queue := [] })).line 0).inHand.map
      (fun t => t.kind) = some .poll := by decide +kernel
theorem test_sweep_due :
    ((after (.sweepDue 0) (running.setLine 0 { Line.reset with lastSweep := some 7 })).line 0).time = 107 := by
  decide +kernel
theorem test_command_sent : ((after (.commandSent 0) sendingLine).line 0).ends = some 3 := by decide +kernel
theorem test_readback_mismatch :
    ((after (.readbackMismatch 0) sendingLine).line 0).state = .backoff ∧
      ((after (.readbackMismatch 0) sendingLine).line 0).mismatches = 1 := by decide +kernel
theorem test_backoff_end :
    ((after (.backoffEnd 0) (after (.readbackMismatch 0) sendingLine)).line 0).state = .sending := by decide +kernel

/-- Line 0 in FAULT. -/
def faulted : State := running.setLine 0 { Line.reset with state := .fault, ends := some 1000, faultMark := true }

theorem test_fault_end :
    ((after (.faultEnd 0) faulted).line 0).state = .idle ∧ ((after (.faultEnd 0) faulted).line 0).faultMark = true := by
  decide +kernel
theorem test_status_taken :
    ((after (.status 0 0 7 1 1 0 0 92 1 0 0 []) listening).car 0 0).refPos = 7 ∧
      ((after (.status 0 0 7 1 1 0 0 92 1 0 0 []) listening).car 0 0).full = true := by decide +kernel
theorem test_status_boards :
    ((after (.status 0 0 0 1 0 2 0 0 1 0 0 []) (booked.setLine 0 (listening.line 0))).disp.bookings.map fun k => k.state)
      = [.riding] := by decide +kernel
theorem test_hold : ((after (.hold 0 0) listening).line 0).ends = some 13 := by decide +kernel
theorem test_resend :
    ((after (.resend 0 0) listening).line 0).pausing = true ∧
      ((after (.resend 0 0) listening).line 0).ends = some 5 := by decide +kernel
theorem test_resend_pause_end :
    ((after (.resendPauseEnd 0) (after (.resend 0 0) listening)).line 0).state = .sending := by decide +kernel
theorem test_window_expiry :
    ((after (.answerWindowExpiry 0) listening).line 0).inHand.map (fun t => t.attempt) = some 2 := by decide +kernel
theorem test_answer_cut :
    ((after (.answerByteTimeout 0 [0x69, 0]) listening).line 0).inHand.map (fun t => t.attempt) = some 2 := by
  decide +kernel
/-- Bytes without a lead byte begin no answer (R131). -/
theorem test_answer_noise : ((after (.answerByteTimeout 0 [1, 2]) listening).line 0).state = .awaiting := by
  decide +kernel
theorem test_bad_answer :
    ((after (.badAnswer 0 [0x69, 0, 2, 0, 0]) listening).line 0).inHand.map (fun t => t.attempt) = some 2 := by
  decide +kernel

/-- Car A1 was last heard 31 ds ago, over its bank's 3 s. -/
def silentCar : State :=
  booked.setPart { booked.part with clock := 1021 }

theorem test_contact_timer : ((after (.contactTimer 0 0) silentCar).car 0 0).service = .outOfContact := by
  decide +kernel
theorem test_contact_timer_in_time : ((after (.contactTimer 0 0) booked).car 0 0).service = .inService := by
  decide +kernel
theorem test_abandon_timer :
    (after .abandonTimer (booked.setPart { booked.part with clock := 3901 })).disp.bookings = [] := by decide +kernel
theorem test_abandon_timer_in_time :
    (after .abandonTimer (booked.setPart { booked.part with clock := 3900 })).disp.bookings = [booking0] := by
  decide +kernel

def ticket0 : Ticket :=
  { badge := 305419896, transfer := 60, dest := 101, firstBank := 2, onward := 8, firstLeg := none, expiry := 1000 }

theorem test_ticket_expiry : (after .ticketExpiry (running.setTickets [ticket0])).disp.tickets = [] := by
  decide +kernel
theorem test_ticket_not_yet :
    (after .ticketExpiry (running.setTickets [{ ticket0 with expiry := 1001 }])).disp.tickets.length = 1 := by
  decide +kernel

/-- Day 20,003, 23:59:59, weekday 4: the next day is weekday 5, SATURDAY (R38). -/
theorem test_rollover :
    let c := (after .calendarSecondAdvance
      (running.setCalendar
        { isSet := true, day := 20003, weekday := 4, minute := 1439, second := 59, dayType := .workday,
          pendingType := none, lastAdvance := 990 })).calendar
    (c.day, c.weekday, c.minute, c.second, c.dayType) = (20004, 5, 0, 0, .saturday) := by decide +kernel

theorem test_reply_sent : (after .replySent (after (.queryPart 9) running)).host.request = .idle := by decide +kernel
theorem test_busy_sent :
    (after .busyReplySent (after (.queryPart 8) (programming 2084 (.site 90) running))).host.owedBusy = none ∧
      (after (.queryPart 8) (programming 2084 (.site 90) running)).host.tx = .sendingBusy := by decide +kernel

/-- One ROUTINE report being sent. -/
def sendingReport : State := after (.lrqAsserted 0) running

theorem test_report_sent : (after .reportSent sendingReport).host.queue = [] := by decide +kernel
theorem test_urgent_stops_routine :
    (after (.recallInputAsserted 0) sendingReport).host.tx = .stopIdle ∧
      (after .reportStopIdleEnd (after (.recallInputAsserted 0) sendingReport)).host.tx = .sendingReport .urgent := by
  decide +kernel
theorem test_tick : step running = .next running.tick ∧ running.tick.part.clock = 1001 := ⟨rfl, by decide +kernel⟩

/-! ### Witnesses: the hypotheses of the statements can be met -/

theorem running_canTake : running.canTake := ⟨rfl, rfl⟩
theorem running_transmitterOk : running.transmitterOk := ⟨fun _ h => (nomatch h), rfl, rfl⟩
theorem running_storeOk : running.storeOk := by unfold State.storeOk; decide +kernel

/-- A state with a request in hand. -/
def busy : State := programming 2084 (.site 90) running

theorem busy_cannotTake : ¬ busy.canTake := fun h => nomatch h.2

theorem witness_StepRunsTheFrontCommandOrTicks :
    (running.setPending [.abandonTimer]).pending = .abandonTimer :: [] ∧ running.pending = [] ∧
      running.part.resetPin = false ∧ State.reset.pending = [] ∧ State.reset.part.resetPin = true := by
  decide +kernel

theorem witness_ResetPinGivesTheResetValues :
    running.store.programmer = none ∧ busy.store.programmer.isSome = true ∧ (0 : Nat) < 512 * 2084 := by
  decide +kernel

/-- A store with one programmed page. -/
def onePage : List Host.Cell := Store.writePage [] 5 (writeImage 5 7 (List.replicate 16 freeSlot))

theorem witness_ScanJudgesPagesAndLoadsItems :
    State.reset.part.resetPin = true ∧ judgeGood onePage 5 = true ∧ pageStamp onePage 5 = some 7 ∧
      slotRead onePage 2084 4 = freeSlot ∧ slotRead onePage 2063 15 = freeSlot := by decide +kernel

/-- A slot of these first bytes, the others 0. -/
def slotOf (bs : List Byte) : List Byte := bs ++ List.replicate (28 - bs.length) 0

/-- Page `p` is GOOD and slot `k` of it holds the 28 bytes, which are not erased. -/
def heldIn (p k : Nat) (bs : List Byte) : Bool :=
  let m := Store.writePage [] p (writeImage p 7 (List.replicate k freeSlot ++ bs :: List.replicate (15 - k) freeSlot))
  judgeGood m p && slotRead m p k == bs && bs != freeSlot

/-- A slot of each kind on its page, with the last value that loads fields and the first that loads the default. -/
theorem witness_ScanJudgesPagesAndLoadsItems_tables :
    heldIn 2063 15 (slotOf (List.replicate 16 0 ++ [63, 254])) = true ∧
      heldIn 2063 15 (slotOf (List.replicate 16 0 ++ [64, 1])) = true ∧
      heldIn 2064 1 (slotOf [1, 0x9F, 0x05, 0xED, 0x03]) = true ∧ heldIn 2064 1 (slotOf [1, 0xA0, 0x05, 0x2D, 0]) = true ∧
      heldIn 2064 1 (slotOf [7]) = true ∧ heldIn 2064 1 (slotOf [1, 0, 0x08, 0, 0x04]) = true ∧
      heldIn 2075 15 (slotOf (List.replicate 16 0 ++ [1])) = true ∧
      heldIn 2075 15 (slotOf (List.replicate 16 0 ++ [2])) = true := by decide +kernel

theorem witness_ScanJudgesPagesAndLoadsItems_floorsAndSite :
    heldIn 2083 15 (slotOf [32, 126, 45, 3, 1, 15]) = true ∧ heldIn 2083 15 (slotOf [32, 127, 45, 3, 1, 15]) = true ∧
      heldIn 2083 15 (slotOf [32, 126, 45, 4, 1, 15]) = true ∧
      heldIn 2084 3 (slotOf [0, 33, 4, 255, 255, 51, 1, 0, 0, 0, 49, 127, 255, 4]) = true ∧
      heldIn 2084 3 (slotOf [8, 32, 15, 80, 0, 10, 4, 44, 1, 3, 90, 128, 0, 0]) = true ∧
      heldIn 2084 4 (slotOf [59, 0]) = true ∧ heldIn 2084 4 (slotOf [0x09, 0x07]) = true ∧
      heldIn 2085 15 (slotOf [2, 127, 15, 2, 31]) = true ∧ heldIn 2085 15 (slotOf [1, 127, 16, 1, 8]) = true ∧
      heldIn 2085 15 (slotOf [1, 128, 15, 1, 8]) = true ∧ heldIn 2085 15 (slotOf [1, 127, 15, 0, 8]) = true := by
  decide +kernel

/-- Page 186 with the record of one badge in two slots. -/
def twice : List Host.Cell :=
  Store.writePage [] 186
    (writeImage 186 7
      ([encodeCredential record0, encodeCredential { record0 with units := 4 }] ++ List.replicate 14 freeSlot))

theorem witness_ScanKeepsOneSlotForABadge :
    State.reset.part.resetPin = true ∧ judgeGood twice 186 = true ∧
      decodeCredential (slotRead twice 186 0) = some record0 ∧
      decodeCredential (slotRead twice 186 1) = some { record0 with units := 4 } ∧ 186 ∈ probeRange record0.badge ∧
      (encodeCredential record0).length = 28 ∧ freeSlot.length = 28 ∧ decodeCredential freeSlot = none := by
  decide +kernel

theorem witness_ScanEndStartsEveryBlock :
    scanned.part.state = .starting ∧ scanned.part.scanning = true ∧ scanned.host.queue = [] ∧
      scanned.host.enables = HostPort.resetEnables ∧ (scanned.bank 0).carCount ≤ (2 : CarNo).val ∧
      (1 : CarNo).val < (scanned.bank 0).carCount := by decide +kernel

theorem witness_FramesAreTakenOrAnsweredBusy :
    running.canTake ∧ ¬ busy.canTake ∧ requestOf (.queryPart 8) = some (8, .queryPart) ∧ busy.host.owedBusy = none ∧
      (after (.queryPart 8) busy).host.owedBusy = some (21, 8) ∧ ¬ (after (.queryPart 8) busy).canTake :=
  ⟨running_canTake, busy_cannotTake, rfl, rfl, by decide +kernel, fun h => nomatch h.2⟩

theorem witness_CalendarRequestsSetTheCalendar :
    running.canTake ∧ (6 : Byte).toNat = (6 : Fin 7).val ∧ (1439 : BitVec 16).toNat = (1439 : Fin 1440).val ∧
      (59 : Byte).toNat = (59 : Fin 60).val ∧ (3 : Byte) = DayType.holiday.code ∧
      (255 : Byte) = ((none : Option DayType).map DayType.code).getD 255 ∧ 7 ≤ (7 : Byte).toNat ∧
      1440 ≤ (1440 : BitVec 16).toNat ∧ 60 ≤ (60 : Byte).toNat ∧ 4 ≤ (4 : Byte).toNat ∧ (4 : Byte) ≠ 255 :=
  ⟨running_canTake, by decide⟩

theorem witness_ClockEventsTakeTheirEffects_calendar :
    let c : Calendar := { Calendar.reset with isSet := true, second := 59, minute := 1439 }
    running.calendar.isSet = false ∧ (running.setCalendar { c with lastAdvance := 991 }).calendar.isSet = true ∧
      (running.part.clock - 991).toNat < 10 ∧ 10 ≤ (running.part.clock - 990).toNat ∧ c.second = 59 ∧
      c.minute = 1439 ∧ (58 : Fin 60).val + 1 = (59 : Fin 60).val ∧ (1438 : Fin 1440).val + 1 = (1439 : Fin 1440).val :=
  by decide +kernel

theorem witness_PostedReportJoinsOrIsLost_enables :
    running.canTake ∧ 1024 ≤ (1024 : BitVec 16).toNat ∧ (1023 : BitVec 16).toNat < 1024 :=
  ⟨running_canTake, by decide⟩

/-- Page 1 is BAD. -/
def pageOneBad : State := running.setStore { running.store with badPages := some [1] }

theorem witness_QueriesReadTheState_badge :
    running.canTake ∧ pageOneBad.canTake ∧ running.store.answer 2048 = .missing ∧
      pageOneBad.store.answer 2048 = .missingBad ∧ running.store.answer 305419896 = .found record0 186 0 ∧
      (2048 : Badge) ≠ 0 ∧ (2048 : Badge) ≠ 4294967295 :=
  ⟨running_canTake, running_canTake, by decide +kernel⟩

theorem witness_QueriesReadTheState_carAndPart :
    (∀ k ∈ [{ booking0 with serial := 5 }, { booking0 with serial := 4294967295 }],
      (k.serial - 4294967290).toNat < 2147483648) ∧ running.canTake ∧ 4 ≤ (4 : Byte).toNat ∧ 8 ≤ (8 : Byte).toNat ∧ (3 : Byte).toNat = (3 : Bank).val ∧
      (7 : Byte).toNat = (7 : CarNo).val := ⟨by decide, running_canTake, by decide⟩

theorem witness_RestartResetsAfterItsReply :
    running.canTake ∧ (after (.restart 9) running).host.tx = .sendingReply ∧
      (after (.restart 9) running).host.request =
        .replying { type := 22, tag := 9, status := .done, body := .empty } ∧
      (after (.restart 9) running).store.programmer = none :=
  ⟨running_canTake, by decide +kernel⟩

theorem witness_TableLoadsBeginTheirPrograms :
    running.canTake ∧ running.store.stamp = some 5 ∧ (255 : BitVec 16).toNat = (255 : Fin 256).val ∧
      256 ≤ (256 : BitVec 16).toNat ∧ (63 : Byte).toNat = (63 : Fin 64).val ∧ 64 ≤ (64 : Byte).toNat ∧
      (127 : Byte).toNat = (127 : Fin 128).val ∧ 128 ≤ (128 : Byte).toNat ∧ (1 : Byte) = TenantState.locked.code ∧
      2 ≤ (2 : Byte).toNat ∧ (15 : Byte).toNat = (15 : PortNo).val ∧ 16 ≤ (16 : Byte).toNat ∧
      (2 : Byte) = ReaderKind.gate.code ∧ ((3 : Byte) ≠ 1 ∧ (3 : Byte) ≠ 2) ∧ (15 : Byte).toNat = (15 : BankSet).toNat :=
  ⟨running_canTake, by decide +kernel⟩

/-- The interval words at the ends of their ranges: accepted, and refused for the start, the end 0, the end 1441, and a
set bit 26. -/
theorem witness_TableLoadsBeginTheirPrograms_words :
    (∀ x ∈ [BitVec.ofNat 32 (1439 + 2048 * 1440 + 4194304 * 15), BitVec.ofNat 32 (2048 * 1)],
      (x.extractLsb' 0 11).toNat < 1440 ∧ 0 < (x.extractLsb' 11 11).toNat ∧
        (x.extractLsb' 11 11).toNat ≤ 1440 ∧ x.extractLsb' 26 6 = 0) ∧
    1440 ≤ ((BitVec.ofNat 32 (1440 + 2048)).extractLsb' 0 11).toNat ∧
    ((BitVec.ofNat 32 7).extractLsb' 11 11).toNat = 0 ∧
    1440 < ((BitVec.ofNat 32 (2048 * 1441)).extractLsb' 11 11).toNat ∧
    (BitVec.ofNat 32 (2048 + 67108864)).extractLsb' 26 6 ≠ 0 ∧
    6 < (List.replicate 7 (2048 : BitVec 32)).length ∧ (List.replicate 6 (2048 : BitVec 32)).length ≤ 6 := by
  refine ⟨List.forall_mem_cons.mpr ⟨?_, List.forall_mem_cons.mpr ⟨?_, List.forall_mem_nil _⟩⟩, ?_⟩ <;> decide

theorem witness_GuardedRequestsBeginTheirPrograms_floor :
    running.canTake ∧ running.store.stamp = some 5 ∧ (5 : Byte).toNat = (5 : Floor).val ∧
      (3 : Byte) = FloorKind.amenity.code ∧ (1 : Byte) = FloorState.isClosed.code ∧
      (∀ x ∈ [(32 : Byte), 126, 65], 32 ≤ x.toNat ∧ x.toNat ≤ 126) ∧
      (∃ b, (running.floor 5).banks.has b ≠ (0 : BankSet).has b ∧ running.mode b ≠ some .out) ∧
      (∀ b, (running.floor 5).banks.has b ≠ (15 : BankSet).has b → running.mode b = some .out) ∧
      (31 : Byte).toNat < 32 ∧ 126 < (127 : Byte).toNat ∧ 128 ≤ (128 : Byte).toNat ∧ 16 ≤ (16 : Byte).toNat :=
  ⟨running_canTake, by decide +kernel⟩

theorem witness_GuardedRequestsBeginTheirPrograms_bank :
    running.canTake ∧ running.store.stamp = some 5 ∧ (3 : Byte).toNat = (3 : Bank).val ∧ 4 ≤ (4 : Byte).toNat ∧
      (127 : Byte).toNat = (127 : Floor).val ∧ 128 ≤ (128 : Byte).toNat ∧ running.mode 0 ≠ some .out ∧
      running.mode 3 = some .out := ⟨running_canTake, by decide +kernel⟩

/-- Bank A's recall input is asserted. -/
def recallHigh : State := running.setPins { running.pins with rcl := running.pins.rcl.set 0 true }

theorem witness_GuardedRequestsBeginTheirPrograms_states :
    running.canTake ∧ recallHigh.canTake ∧ recallHigh.store.stamp = some 5 ∧ recallHigh.pins.rcl.get 0 = true ∧
      recallHigh.pins.rcl.get 1 = false ∧ BankMode.normal ≠ .fireRecall ∧ (4 : Byte) = BankMode.fireRecall.code ∧
      5 ≤ (5 : Byte).toNat ∧ (2 : Byte) = 2 ∧ ((0 : Byte) ≠ 1 ∧ (0 : Byte) ≠ 2) ∧ (1 : Byte) = FloorState.isClosed.code :=
  ⟨running_canTake, running_canTake, by decide +kernel⟩

theorem witness_PolicyImageChangesOneItem : (15 : Nat) < 16 ∧ (63 : Fin 64) ≠ 0 := by decide

theorem witness_CredentialCheckRefusesAndClamps :
    checkCredential 305419896 1 127 0 [7] 128 [127, 128] 5 1 5 =
      some { badge := 305419896, state := .active, tenant := 127, units := 1, groups := [7], defaultFloor := none,
             personal := [127], validFrom := 5, validUntil := some 5 } := by decide +kernel

theorem witness_LookupSearchesFourPagesFromHome :
    running.store.record 186 0 = some record0 ∧ running.store.lookup 305419896 ≠ .inProgram := by decide +kernel

theorem witness_EnrollPlacesTheRecord :
    running.canTake ∧ running.store.stamp = some 5 ∧ checkCredential 2048 1 128 0 [7] 255 [] 0 0 0 = none ∧
      (checkCredential 2048 1 3 0 [7] 255 [] 0 0 0).isSome = true ∧
      running.store.search 305419896 = some (record0, 186, 0) ∧ running.store.search 2048 = none ∧
      (probeSlots 2048)[0]? = some (1, 0) ∧ running.store.bad 1 = false ∧ running.store.record 1 0 = none :=
  ⟨running_canTake, by decide +kernel⟩

/-- Every page of badge 2048's probe range is BAD. -/
def rangeBad : State := running.setStore { running.store with badPages := some [1, 2, 3, 4] }

theorem witness_EnrollPlacesTheRecord_noRoom :
    rangeBad.canTake ∧ rangeBad.store.search 2048 = none ∧
      ∀ x ∈ probeSlots 2048, rangeBad.store.bad x.1 = true ∨ rangeBad.store.record x.1 x.2 ≠ none :=
  ⟨running_canTake, by decide +kernel⟩

theorem witness_RevokeAndSetStateRewriteTheFoundSlot :
    running.canTake ∧ running.store.stamp = some 5 ∧ (3 : Byte) = BadgeState.lost.code ∧
      running.store.search 305419896 = some (record0, 186, 0) ∧ running.store.search 2048 = none ∧
      (∀ p ∈ probeRange 2048, running.store.bad p = false) ∧ pageOneBad.canTake ∧
      pageOneBad.store.search 2048 = none ∧ (∃ p ∈ probeRange 2048, pageOneBad.store.bad p = true) :=
  ⟨running_canTake, by decide +kernel, by decide +kernel, by decide +kernel, by decide +kernel, by decide +kernel,
    running_canTake, by decide +kernel, by decide +kernel⟩

theorem witness_ErasePageIsGuarded :
    running.canTake ∧ 2112 ≤ (2112 : BitVec 16).toNat ∧
      ((2084 : BitVec 16).toNat = 2084 ∧ ∃ b, running.mode b ≠ some .out) ∧
      (∃ (f : Floor) (b : Bank), (2076 : BitVec 16).toNat = 2076 + f.val / 16 ∧ running.serves b f = true ∧
        running.mode b ≠ some .out) ∧
      (2111 : BitVec 16).toNat < 2112 ∧
      ¬ (((2077 : BitVec 16).toNat = 2084 ∧ ∃ b, running.mode b ≠ some .out) ∨
        ∃ (f : Floor) (b : Bank), (2077 : BitVec 16).toNat = 2076 + f.val / 16 ∧ running.serves b f = true ∧
          running.mode b ≠ some .out) :=
  ⟨running_canTake, by decide +kernel⟩

/-- A program of the home page of badge 305419896. -/
def programmingCredential : State := programming 186 .credential running

theorem witness_CredentialVerifyMatchStoresThePage :
    programmingCredential.storeOk ∧
      programmingCredential.store.programmer =
        some { page := 186, image := eraseImage, erase := false, job := .credential } ∧
      eraseImage.length = 512 ∧ programmingCredential.host.request = .executing 7 9 ∧
      programmingCredential.store.badPages ≠ none ∧
      programmingCredential.store.pageInUse 186 ≤ programmingCredential.store.slotsInUse :=
  ⟨running_storeOk, rfl, by decide +kernel, rfl, by decide +kernel, by decide +kernel⟩

theorem witness_PolicyVerifyMatchTakesEffect :
    ((programming 2063 (.group 255 group7) running).store.programmer.map fun g => g.job) = some (.group 255 group7) ∧
      ((programming 2067 (.profile 63 []) running).store.programmer.map fun g => g.job) = some (.profile 63 []) ∧
      ((programming 2075 (.tenant 127 Tenant.erased) running).store.programmer.map fun g => g.job) =
        some (.tenant 127 Tenant.erased) ∧
      (busy.store.programmer.map fun g => g.job) = some (.site 90) ∧
      ((programming 2085 (.reader 0 ReaderRec.erased) deciding).store.programmer.map fun g => g.job) =
        some (.reader 0 ReaderRec.erased) ∧
      (deciding.port 0).state = .pending ∧ (deciding.port 0).isTaken = true ∧ (running.port 0).state = .idle := by
  decide +kernel

/-- What State.stores rests on, in a state with a policy program in flight; its page's ends and the bytes beside it. -/
theorem witness_PolicyVerifyMatchTakesEffect_stores :
    busy.storeOk ∧ eraseImage.length = 512 ∧ busy.store.badPages ≠ none ∧ busy.host.request = .executing 7 9 ∧
      2048 ≤ 2084 ∧ 511 < 512 ∧ 512 * 2084 - 1 < 512 * 2084 ∧ 512 * 2084 + 512 ≤ 512 * 2085 ∧ 2083 ≠ 2084 :=
  ⟨running_storeOk, by decide +kernel⟩

/-- The program of a SET-FLOOR-STATE CLOSED for floor 5. -/
def closingFive : Program :=
  { page := 2076, image := eraseImage, erase := false, job := .floor 5 { floor5 with state := .isClosed } }

theorem booked_bookingsOk : booked.bookingsOk := by unfold State.bookingsOk; decide +kernel

theorem witness_FloorVerifyMatchTakesEffect :
    (programming 2076 closingFive.job booked).bookingsOk ∧
      (programming 2076 closingFive.job booked).store.programmer = some closingFive ∧
      (booked.floor 5).state = .isOpen ∧ FloorState.isClosed = .isClosed :=
  ⟨booked_bookingsOk, rfl, by decide +kernel, rfl⟩

/-- Floor 5 stays OPEN and becomes an AMENITY: nothing is shut, and bank A is concerned, bank B not. -/
theorem witness_FloorVerifyMatchTakesEffect_open :
    (programming 2076 (.floor 5 { floor5 with kind := .amenity }) booked).bookingsOk ∧
      ((programming 2076 (.floor 5 { floor5 with kind := .amenity }) booked).store.programmer.map fun g => g.job) =
        some (.floor 5 { floor5 with kind := .amenity }) ∧
      ¬ ((booked.floor 5).state = .isOpen ∧ floor5.state = .isClosed) ∧ (booked.floor 5).banks.has 0 = true ∧
      (booked.car 0 0).service ≠ .absent ∧ (booked.floor 5).banks.has 1 = false ∧ floor5.banks.has 1 = false :=
  ⟨booked_bookingsOk, rfl, by decide +kernel⟩

/-- A LOAD-BANK of bank A completes: car 0 is configured, car 1 newly within the count, car 2 beyond it; and so in
FIRE_RECALL. -/
theorem witness_BankAndCarVerifyMatchTakeEffect_bank :
    ((programming 2084 (.bank 0 bank0) running).store.programmer.map fun g => g.job) = some (.bank 0 bank0) ∧
      (∀ k ∈ running.disp.bookings, k.bank ≠ 0) ∧ (0 : CarNo).val < bank0.carCount ∧
      (running.car 0 0).service ≠ .absent ∧ (1 : CarNo).val < bank0.carCount ∧ (running.car 0 1).service = .absent ∧
      bank0.carCount ≤ (2 : CarNo).val ∧ running.mode 0 ≠ some .fireRecall ∧
      (running.setMode 0 .fireRecall).mode 0 = some .fireRecall := by decide +kernel

/-- Car A1 stands WITHDRAWN, last heard of at this moment. -/
def withdrawnCar (age : Option Clock) : State :=
  (running.setBank 0 { bank0 with withdrawn := 1 }).setCar 0 0 { car0 with service := .withdrawn, age := age }

/-- A withdrawal of an IN_SERVICE car, a restoration of a car just heard of and of a silent one, and a repeat. -/
theorem witness_BankAndCarVerifyMatchTakeEffect_car :
    (programming 2084 (.carService 0 0 true) booked).bookingsOk ∧
      ((programming 2084 (.carService 0 0 true) booked).store.programmer.map fun g => g.job) =
        some (.carService 0 0 true) ∧
      (booked.bank 0).withdrawn.has 0 = false ∧ (booked.car 0 0).service = .inService ∧
      ((withdrawnCar (some 970)).bank 0).withdrawn.has 0 = true ∧
      ((withdrawnCar (some 970)).car 0 0).service = .withdrawn ∧
      ¬ (10 * ((withdrawnCar (some 970)).bank 0).contactTime < ((1000 : Clock) - 970).toNat) ∧
      ((withdrawnCar (some 970)).car 0 0).status = some status0 ∧ ((withdrawnCar none).car 0 0).age = none :=
  ⟨booked_bookingsOk, rfl, by decide +kernel⟩

/-- An ERASE program in flight for any page: each range of pages at its ends. -/
theorem witness_ErasedPageTakesItsDefaults (p : Nat) :
    (programming p .erase running).storeOk ∧ (programming p .erase running).store.badPages = some [] ∧
      (programming p .erase running).store.programmer =
        some { page := p, image := eraseImage, erase := false, job := .erase } ∧
      eraseImage = List.replicate 512 255 ∧ running.disp.bookings = [] ∧ booked.bookingsOk :=
  ⟨running_storeOk, rfl, rfl, rfl, rfl, booked_bookingsOk⟩

theorem witness_VerifyMismatchMakesThePageBad :
    busy.store.programmer = some { page := 2084, image := eraseImage, erase := false, job := .site 90 } ∧
      busy.host.request = .executing 7 9 ∧ busy.host.enables.getLsbD 1 = true ∧ busy.host.queue.length < 32 ∧
      busy.store.badPages = some [] ∧ ([] : List Nat).Pairwise (· < ·) :=
  ⟨rfl, rfl, by decide +kernel, by decide +kernel, rfl, .nil⟩

/-- The one slot in use of the running part. -/
theorem running_record {p k : Nat} (hk : k < 16) (h : running.store.record p k ≠ none) : p = 186 ∧ k = 0 := by
  by_contra hne
  refine h (StoreBlock.record_of_free ?_)
  have hw := slotRead_writeBytes_other [] (q := 186) (j := 0) (bs := encodeCredential record0) hk (by decide)
    (by decide +kernel) hne
  rw [slotRead_nil] at hw
  exact hw

theorem running_badgesOk : running.badgesOk := by
  refine ⟨fun p k q j r x hk hj hr hx _ => ?_, fun g hg => by cases hg⟩
  obtain ⟨rfl, rfl⟩ := running_record (p := p) hk (by rw [hr]; exact Option.some_ne_none r)
  obtain ⟨rfl, rfl⟩ := running_record (p := q) hj (by rw [hx]; exact Option.some_ne_none x)
  exact ⟨rfl, rfl⟩

/-- A new badge with a free slot, and a badge found, whose state is set and which is revoked. -/
theorem witness_CredentialProgramsReachTheLookups :
    running.canTake ∧ running.storeOk ∧ running.store.stamp = some 5 ∧ running.store.badPages = some [] ∧
      running.store.programmer = none ∧ running.badgesOk ∧
      (checkCredential 2048 1 3 0 [7] 255 [] 0 0 0).isSome = true ∧ running.store.search 2048 = none ∧
      running.store.firstFree 2048 = some (1, 0) ∧ running.store.search 305419896 = some (record0, 186, 0) ∧
      (∀ q ∈ probeRange 305419896, running.store.bad q = false) :=
  ⟨running_canTake, running_storeOk, rfl, rfl, rfl, running_badgesOk, by decide +kernel, by decide +kernel,
    by decide +kernel, by decide +kernel, by decide +kernel⟩

/-- Bank A in FIRE_RECALL with a silent RECALLED car. -/
def inRecall : State :=
  (running.setMode 0 .fireRecall).setCar 0 0
    { Car.reset with service := .recalled, recallDue := true }

theorem witness_EnteringOutOrRecallClearsTheBank :
    booked.part.state = .running ∧ booked.pins.rcl.get 0 = false ∧ booked.mode 0 = some .normal ∧
      BankMode.normal ≠ .fireRecall ∧ booked.bookingsOk ∧ recallHigh.part.state = .running ∧
      recallHigh.pins.rcl.get 0 = true ∧ (programming 2084 (.bankMode 0 .out) booked).bookingsOk ∧
      (programming 2084 (.bankMode 0 .out) booked).store.programmer =
        some { page := 2084, image := eraseImage, erase := false, job := .bankMode 0 .out } :=
  ⟨rfl, by decide +kernel, by decide +kernel, by decide, booked_bookingsOk, rfl, by decide +kernel,
    booked_bookingsOk, rfl⟩

/-- The edge's reports; an assertion edge in FIRE_RECALL; the levels while STARTING. -/
theorem witness_EnteringOutOrRecallClearsTheBank_reports :
    booked.host.queue = [] ∧ booked.host.enables.getLsbD 8 = true ∧ booked.host.enables.getLsbD 7 = true ∧
      inRecall.part.state = .running ∧ inRecall.pins.rcl.get 0 = false ∧ inRecall.mode 0 = some .fireRecall ∧
      State.reset.part.state = .starting := by decide +kernel

theorem booked_carsOk : booked.carsOk := by
  unfold State.carsOk State.carOk Car.listOk State.enabledAt sweepBefore sweepPhase
  decide +kernel

/-- The car number 7 of bank A is ABSENT and in step with the Booking Table. -/
theorem witness_EnteringOutOrRecallClearsTheBank_absent :
    booked.carOk 0 7 ∧ (booked.car 0 7).service = .absent ∧
      (programming 2084 (.bankMode 0 .out) booked).carOk 0 7 ∧
      (programming 2084 (.bankMode 0 .fireRecall) booked).carOk 0 7 :=
  ⟨booked_carsOk 0 7, by decide +kernel, booked_carsOk 0 7, booked_carsOk 0 7⟩

/-- SET-BANK-MODE OUT of a bank in FIRE_RECALL whose input is deasserted: its silent car goes out of contact. -/
theorem witness_EnteringOutOrRecallClearsTheBank_fromRecall :
    let s := programming 2084 (.bankMode 0 .out) inRecall
    s.pins.rcl.get 0 = false ∧ s.mode 0 = some .fireRecall ∧ (s.car 0 0).service = .recalled ∧
      (s.car 0 0).age = none ∧ (s.car 0 7).service = .absent ∧
      ((after .verifyMatch s).car 0 0).service = .outOfContact := by decide +kernel

/-- A SET-BANK-MODE completes: taken, kept by the recall input, the same as before, and leaving FIRE_RECALL. -/
theorem witness_CompletedModeRequestsTakeEffect :
    (programming 2084 (.bankMode 0 .fireRecall) booked).bookingsOk ∧
      ((programming 2084 (.bankMode 0 .fireRecall) booked).store.programmer.map fun g => g.job) =
        some (.bankMode 0 .fireRecall) ∧
      booked.mode 0 = some .normal ∧ ¬ ((booked.pins.rcl.get 0 = true ∧ BankMode.upPeak ≠ .fireRecall) ∨
        BankMode.upPeak = .normal) ∧ recallHigh.pins.rcl.get 0 = true ∧ inRecall.mode 0 = some .fireRecall ∧
      (inRecall.car 0 0).service = .recalled ∧ (inRecall.car 0 0).age = none ∧ booked.host.queue = [] ∧
      booked.host.enables.getLsbD 7 = true :=
  ⟨booked_bookingsOk, rfl, by decide +kernel⟩

theorem witness_LineReleaseAndReturn :
    running.part.state = .running ∧ (running.line 0).state ≠ .released ∧
      ((after (.lrqAsserted 0) running).line 0).state = .released ∧
      (after (.lrqAsserted 0) running).part.state = .running ∧ State.reset.part.state = .starting := by decide +kernel

/-- Port 0 in a given state, with nothing in its hands. -/
def portIn (st : PortState) : State := running.setPort 0 { Port.reset with state := st }

/-- Port 0 sends an answer. -/
def portSending (st : PortState) : State := running.setPort 0 { Port.reset with state := st, shifter := some .retry }

theorem reset_transmitterOk : State.reset.transmitterOk := ⟨fun _ h => (nomatch h), rfl, rfl⟩

theorem witness_PortAnswersAtOnce :
    State.reset.part.state = .starting ∧ State.reset.transmitterOk ∧ (State.reset.port 0).shifter = none ∧
      running.part.state = .running ∧ running.transmitterOk ∧ (running.port 0).shifter = none ∧
      (running.port 0).state = .idle ∧ (portSending .answering).transmitterOk ∧
      ((portSending .answering).port 0).shifter ≠ none ∧ ((portIn .disabled).port 0).state = .disabled ∧
      ((portIn .pending).port 0).state = .pending ∧ ((portIn .deferred).port 0).state = .deferred ∧
      (1 : Byte) = ReaderKind.kiosk.code ∧ ReaderKind.kiosk = (running.reader 0).kind ∧
      128 ≤ (128 : Byte).toNat ∧ (128 : Byte) ≠ 255 ∧ 128 ≤ (254 : Byte).toNat ∧ (254 : Byte) ≠ 255 ∧
      ReaderKind.gate ≠ (running.reader 0).kind :=
  ⟨rfl, reset_transmitterOk, by decide +kernel, rfl, running_transmitterOk, by decide +kernel, by decide +kernel,
    running_transmitterOk, by decide +kernel⟩

def memory0 : GrantMemory :=
  { badge := 305419896, booking := 0, dest := 5, time := 1000, bank := 0, car := 0, transfer := none }

/-- Port 0 remembers a grant of floor 5 at moment 1000. -/
def remembering : State := running.setPort 0 { Port.reset with memory := some memory0 }

/-- Each span of the repeat filter at its ends: under 10 ds, 10 to under 80 ds, and from 80 ds on (hold time 8 s). -/
theorem witness_RepeatFilterDecidesTheTap :
    remembering.part.state = .running ∧ remembering.transmitterOk ∧ (remembering.port 0).shifter = none ∧
      (remembering.port 0).state = .idle ∧ (1 : Byte) = (remembering.reader 0).kind.code ∧
      (305419896 : Badge) ≠ 0 ∧ (305419896 : Badge) ≠ 4294967295 ∧ (running.port 0).memory = none ∧
      (remembering.port 0).memory = some memory0 ∧ ((1009 : Clock) - memory0.time).toNat < 10 ∧
      10 ≤ ((1010 : Clock) - memory0.time).toNat ∧
      ((1079 : Clock) - memory0.time).toNat < 10 * (remembering.reader 0).holdTime ∧
      10 * (remembering.reader 0).holdTime ≤ ((1080 : Clock) - memory0.time).toNat ∧
      (some 9 : Option Floor) ≠ some memory0.dest ∧ (5 : Floor).val = (5 : Byte).toNat ∧
      ((none : Option Floor) = none ↔ (remembering.reader 0).kind = .gate ∨ (255 : Byte) = 255) :=
  ⟨rfl, running_transmitterOk, by decide +kernel⟩

theorem witness_ShifterDoneMovesTheBufferUp :
    ((portSending .answering).port 0).shifter ≠ none ∧ ((portSending .answering).port 0).state = .answering ∧
      ((portSending .answering).port 0).buffer = none ∧ ((portSending .answering).port 0).reload = none ∧
      ((portSending .pending).port 0).state ≠ .answering := by decide +kernel

theorem witness_FramesAreTakenOrAnsweredBusy_cut :
    running.transmitterOk ∧ running.host.rx = [] ∧ 1 ≤ (250 : Byte).toNat ∧ (250 : Byte).toNat ≤ 250 ∧
      (List.replicate 250 (0 : Byte)).length ≤ (250 : Byte).toNat ∧ ([0] : List Byte).length ≤ (1 : Byte).toNat :=
  ⟨running_transmitterOk, rfl, by decide +kernel⟩

theorem witness_PortAnswersAtOnce_cut :
    running.transmitterOk ∧ (running.port 0).rx = [] ∧ ([0] : List Byte).length ≤ (1 : Byte).toNat ∧
      (List.replicate 255 (0 : Byte)).length ≤ (255 : Byte).toNat :=
  ⟨running_transmitterOk, by decide +kernel⟩

theorem witness_EngineTakesAndDefers :
    deciding.engine.inHand ≠ none ∧ running.part.state = .running ∧ running.engine.inHand = none ∧
      (∀ p, (running.port p).slot = none) ∧
      (let s := after (.present 0 305419896 5 1) running;
        s.part.state = .running ∧ s.engine.inHand = none ∧ (s.port 0).state = .pending ∧
          ((s.port 0).slot.map fun x => x.taken) = some false ∧
          (0 : PortNo).val = (s.engine.pointer.val + 1 + 0) % 16) := by decide +kernel

/-- The page of the badge in hand is under program. -/
def decidingInProgram : State := programming 189 .credential deciding

theorem witness_EngineTakesAndDefers_handedBack :
    decidingInProgram.engine.inHand = some taken0 ∧ decidingInProgram.engine.entryCopy = some (0, 1) ∧
      decidingInProgram.store.lookup taken0.badge = .inProgram ∧ decidingInProgram.transmitterOk :=
  ⟨rfl, rfl, by decide +kernel, ⟨fun _ h => (nomatch h), rfl, rfl⟩⟩

/-- The engine decides on the badge with this record. -/
def decidingOn (r : Credential) : State :=
  deciding.setStore
    { deciding.store with cells := Store.writeBytes [] (pageAddress 186 0) (encodeCredential r) }

/-- Each of steps 1 to 4 can fail. -/
theorem witness_CredentialAndFloorStepsDeny_steps1to4 :
    deciding.engine.inHand = some taken0 ∧ deciding.engine.entryCopy = some (0, 1) ∧
      (deciding.setStore { deciding.store with cells := [], badPages := some [189] }).store.lookup taken0.badge =
        .missingBad ∧
      (deciding.setStore { deciding.store with cells := [] }).store.lookup taken0.badge = .missing ∧
      (decidingOn { record0 with state := .lost }).store.lookup taken0.badge =
        .found { record0 with state := .lost } 186 0 ∧
      (decidingOn { record0 with state := .suspended }).store.lookup taken0.badge =
        .found { record0 with state := .suspended } 186 0 ∧
      ((decidingOn { record0 with validFrom := 1 }).setCalendar { Calendar.reset with isSet := true }).valid
        { record0 with validFrom := 1 } = false ∧
      deciding.valid record0 = true ∧
      ((deciding.setPolicy
        { deciding.policy with tenants := deciding.policy.tenants.set 3 { floors := 0, state := .locked } }).policy.tenants.get
        record0.tenant).state = .locked := by decide +kernel

/-- Each of steps 7 to 9 can fail: the home floor, a CLOSED floor, an OPEN floor outside the set. -/
theorem witness_CredentialAndFloorStepsDeny_steps7to9 :
    deciding.store.lookup taken0.badge = .found record0 186 0 ∧ record0.state = .active ∧
      deciding.valid record0 = true ∧ (deciding.policy.tenants.get record0.tenant).state = .normal ∧
      deciding.disp.tickets = [] ∧ taken0.floor = some 5 ∧ (deciding.floor 6).state = .isClosed ∧
      (deciding.floor 5).state = .isOpen ∧
      (deciding.permitted { record0 with groups := [8] }).has 5 = false := by decide +kernel

/-- The engine has this presentation in hand, with home floor 0 and these banks. -/
def decidingFor (x : Presentation) (banks : BankSet) : State :=
  deciding.setEngine { inHand := some x, entryCopy := some (0, banks), pointer := 0 }

theorem no_ticketHeld {s : State} (h : s.disp.tickets = []) (x : Presentation) (home : Floor) (k : Ticket) :
    ¬ s.ticketHeld x home k := fun hk => List.not_mem_nil (h ▸ hk.1)

/-- The floor keyed at a kiosk is the destination of a badge without a ticket. -/
theorem resolves_keyed {s : State} {x : Presentation} {d : Floor} (ht : s.disp.tickets = []) (hx : x.floor = some d)
    (r : Credential) (home : Floor) (banks : BankSet) : s.resolves x r home banks (some d) :=
  .inr ⟨fun k hk => no_ticketHeld ht x home k hk.1, .inl hx⟩

theorem empty_ticketsOk {s : State} (h : s.disp.tickets = []) : s.ticketsOk := by simp [State.ticketsOk, h]

/-- No floor keyed and no bank to enter: no destination. -/
theorem witness_DestinationRouteAndRoomStepsDeny_noDestination :
    let x : Presentation := { taken0 with floor := none }
    (decidingFor x 0).engine.inHand = some x ∧ (decidingFor x 0).engine.entryCopy = some (0, 0) ∧
      (decidingFor x 0).store.lookup x.badge = .found record0 186 0 ∧ (decidingFor x 0).valid record0 = true ∧
      ((decidingFor x 0).policy.tenants.get record0.tenant).state = .normal ∧ (decidingFor x 0).ticketsOk ∧
      (decidingFor x 0).resolves x record0 0 0 none := by
  refine ⟨rfl, rfl, by decide +kernel, by decide +kernel, by decide +kernel, empty_ticketsOk rfl,
    fun k hk => no_ticketHeld rfl _ 0 k hk.1, rfl, And.intro (fun f hf => nomatch hf) ?_⟩
  rintro ⟨d, hd⟩
  obtain ⟨-, -, -, ⟨b, hb, -⟩ | ⟨b, t, hb, -⟩⟩ := (hd d).mpr rfl
  · simp [State.enters] at hb
  · simp [State.enters] at hb

/-- Floor 5 keyed by a badge that passes steps 1 to 4: the premises, and one state for each of the reasons NO_ROUTE,
NO_SERVICE and NO_CAR; floor 0 keyed is the home floor. -/
theorem witness_DestinationRouteAndRoomStepsDeny_reasons :
    deciding.engine.inHand = some taken0 ∧ deciding.engine.entryCopy = some (0, 1) ∧
      deciding.store.lookup taken0.badge = .found record0 186 0 ∧ record0.state = .active ∧
      deciding.valid record0 = true ∧ (deciding.policy.tenants.get record0.tenant).state = .normal ∧
      deciding.ticketsOk ∧ deciding.resolves taken0 record0 0 1 (some 5) ∧
      deciding.refuses record0 0 1 0 .sameFloor ∧ deciding.refuses record0 0 0 5 .noRoute ∧
      (deciding.setMode 0 .out).refuses record0 0 1 5 .noService ∧
      (deciding.setCar 0 0 Car.reset).refuses record0 0 1 5 .noCar := by
  refine ⟨rfl, rfl, by decide +kernel, rfl, by decide +kernel, by decide +kernel, empty_ticketsOk rfl,
    resolves_keyed rfl rfl _ _ _, .inl ⟨rfl, rfl⟩, .inr ⟨by decide, .inr ⟨by decide +kernel, .inr ⟨by decide +kernel,
      .inl ⟨?_, rfl⟩⟩⟩⟩, .inr ⟨by decide, .inr ⟨by decide +kernel, .inr ⟨by decide +kernel, .inr ⟨?_, .inl ⟨?_, ?_⟩⟩⟩⟩⟩,
    .inr ⟨by decide, .inr ⟨by decide +kernel, .inr ⟨by decide +kernel, .inr ⟨?_, .inr ⟨?_, .inr ⟨?_, ?_, rfl⟩⟩⟩⟩⟩⟩⟩
  · rintro (⟨b, hb, -⟩ | ⟨b, t, hb, -⟩) <;> simp [State.enters] at hb
  · exact .inl ⟨0, by unfold State.direct State.enters; decide +kernel⟩
  · rintro (h | ⟨h, -⟩)
    · revert h; unfold State.direct State.enters State.bankPasses; decide +kernel
    · exact h 0 (by unfold State.direct State.enters; decide +kernel)
  · have hm : ∀ b, (deciding.setMode 0 .out).mode b ≠ some .fireRecall ∧
        (deciding.setMode 0 .out).mode b ≠ some .lockdown := by decide +kernel
    exact .inr (.inr ⟨fun ⟨b, _, hb⟩ => (hm b).1 hb, fun ⟨b, _, hb⟩ => (hm b).2 hb, rfl⟩)
  · exact .inl ⟨0, by unfold State.direct State.enters; decide +kernel⟩
  · exact .inl ⟨0, by unfold State.direct State.enters State.bankPasses; decide +kernel⟩
  · rintro (h | ⟨h, -⟩)
    · obtain ⟨k, hk, -⟩ := h 0 (by decide); exact absurd hk List.not_mem_nil
    · exact h 0 (by unfold State.direct State.enters; decide +kernel)
  · exact ⟨by unfold State.direct State.enters State.bankPasses; decide +kernel,
      fun h => absurd (by unfold State.direct State.enters; decide +kernel) (h 0)⟩

theorem noRoom_of_ids {s : State} {bs : List Booking} (h : ∀ i < 512, ∃ k ∈ bs, k.id = i) (r : Credential) (home : Floor)
    (banks : BankSet) (d : Floor) : (s.setBookings bs).noRoom r home banks d := .inl h

/-- A Booking Table with no free id: FULL. -/
theorem witness_DestinationRouteAndRoomStepsDeny_full :
    (deciding.setBookings ((List.range 512).map fun i => { booking0 with id := i })).noRoom record0 0 1 5 :=
  noRoom_of_ids (fun i hi =>
    ⟨{ booking0 with id := i }, List.mem_map.mpr ⟨i, List.mem_range.mpr hi, rfl⟩, rfl⟩) _ _ _ _

theorem witness_GrantMakesOneBooking_direct :
    deciding.engine.inHand = some taken0 ∧ deciding.engine.entryCopy = some (0, 1) ∧
      deciding.store.lookup taken0.badge = .found record0 186 0 ∧ record0.state = .active ∧
      deciding.valid record0 = true ∧ (deciding.policy.tenants.get record0.tenant).state = .normal ∧
      deciding.bookingsOk ∧ deciding.ticketsOk ∧ deciding.resolves taken0 record0 0 1 (some 5) ∧
      taken0.supersedes = none ∧
      deciding.testTrip record0 0 1 5 = .ok (0, { bank := 0, car := 0, transfer := none }) ∧
      (deciding.port 0).shifter = none ∧ (deciding.port 0).reload ≠ some false :=
  ⟨rfl, rfl, by decide +kernel, rfl, by decide +kernel, by decide +kernel, by unfold State.bookingsOk; decide +kernel,
    empty_ticketsOk rfl, resolves_keyed rfl rfl _ _ _, rfl, by decide +kernel, by decide +kernel, by decide +kernel⟩

/-- A reload that disables the port waits. -/
theorem witness_GrantMakesOneBooking_reloaded :
    let s := deciding.setPort 0 { deciding.port 0 with reload := some false }
    s.engine.inHand = some taken0 ∧ s.engine.entryCopy = some (0, 1) ∧
      s.testTrip record0 0 1 5 = .ok (0, { bank := 0, car := 0, transfer := none }) ∧
      (s.port taken0.port).reload = some false := by decide +kernel

/-- The port's shifter is sending: the GRANT waits in the buffer. -/
theorem witness_GrantMakesOneBooking_waiting :
    let s := deciding.setPort 0 { deciding.port 0 with shifter := some .retry }
    s.engine.inHand = some taken0 ∧ s.engine.entryCopy = some (0, 1) ∧
      s.testTrip record0 0 1 5 = .ok (0, { bank := 0, car := 0, transfer := none }) ∧
      (s.port taken0.port).shifter = some .retry ∧
      ((after .decisionMoment s).port 0).buffer = some (.grant 0 0 floor5.label false none) := by decide +kernel

/-- The badge holds a ticket for its home floor, to floor 5. -/
def ticketHome : Ticket := { ticket0 with transfer := 0, dest := 5 }

/-- A ticket is used: no floor keyed. -/
theorem witness_GrantMakesOneBooking_ticket :
    let x : Presentation := { taken0 with floor := none }
    let s := (decidingFor x 1).setTickets [ticketHome]
    s.ticketUsed x 0 ticketHome ∧ s.resolves x record0 0 1 (some 5) ∧ s.ticketsOk ∧
      s.testTrip record0 0 1 5 = .ok (0, { bank := 0, car := 0, transfer := none }) := by
  have h : ((decidingFor { taken0 with floor := none } 1).setTickets [ticketHome]).ticketUsed
      { taken0 with floor := none } 0 ticketHome := ⟨⟨List.mem_singleton.mpr rfl, rfl, rfl⟩, .inl rfl⟩
  exact ⟨h, .inl ⟨_, h, rfl⟩, by unfold State.ticketsOk; decide +kernel, by decide +kernel⟩

/-- The tap supersedes the WAITING booking of the same badge at the same port. -/
theorem witness_GrantMakesOneBooking_superseding :
    let x : Presentation := { taken0 with supersedes := some 0 }
    let s := (decidingFor x 1).setBookings [{ booking0 with dest := 6 }]
    s.bookingsOk ∧ s.resolves x record0 0 1 (some 5) ∧ x.supersedes = some booking0.id ∧
      booking0.state = .waiting ∧ booking0.badge = x.badge ∧ booking0.port = x.port ∧
      s.testTrip record0 0 1 5 = .ok (1, { bank := 0, car := 0, transfer := none }) :=
  ⟨by unfold State.bookingsOk; decide +kernel, resolves_keyed rfl rfl _ _ _, rfl, rfl, rfl, rfl, by decide +kernel⟩

/-- Floor 3 is a SKY_LOBBY of banks A and B, and floor 7, leased, is served by bank B alone. -/
def skyDeciding : State :=
  ((decidingFor { taken0 with floor := some 7 } 1).setMode 1 .normal).setPolicy
    { deciding.policy with
      floors := (deciding.policy.floors.set 3 { floor0 with kind := .skyLobby, banks := 3 }).set 7 { floor5 with banks := 2 },
      groups := deciding.policy.groups.set 7 { group7 with floors := 128 },
      tenants := deciding.policy.tenants.set 3 { floors := 128, state := .normal } }

theorem witness_GrantMakesOneBooking_transfer :
    skyDeciding.store.lookup 305419896 = .found record0 186 0 ∧ skyDeciding.bookingsOk ∧ skyDeciding.ticketsOk ∧
      skyDeciding.resolves { taken0 with floor := some 7 } record0 0 1 (some 7) ∧
      skyDeciding.testTrip record0 0 1 7 = .ok (0, { bank := 0, car := 0, transfer := some 3 }) :=
  ⟨by decide +kernel, by unfold State.bookingsOk; decide +kernel, empty_ticketsOk rfl, resolves_keyed rfl rfl _ _ _,
    by decide +kernel⟩

theorem witness_RouteChoosesTheLowestCost :
    ([0, 1] : List Bank).Pairwise (· < ·) ∧
      ([(2, 60), (2, 61)] : List (Bank × Floor)).Pairwise (fun p q => p.1 < q.1 ∨ (p.1 = q.1 ∧ p.2 < q.2)) ∧
      deciding.route 0 1 5 = some (.direct [0]) ∧
      deciding.filterRoute false 5 (.direct [0]) = .ok (.direct [0]) ∧ deciding.freeId = some 0 ∧
      deciding.ticketRoom 305419896 (.direct [0]) = true ∧
      deciding.chooseCar 0 5 1 (.direct [0]) = some { bank := 0, car := 0, transfer := none } ∧
      deciding.chooseCar 0 5 33 (.direct [0]) = none := by decide +kernel

/-- Line 0 IDLE at 200 ms, after two deliveries, with this queue, sweep position and last sweep start. -/
def idleLine (queue : List CarNo) (sweep lastSweep : Option Nat) (history : List CommandKind) : State :=
  running.setLine 0
    { Line.reset with queue := queue, sweep := sweep, lastSweep := lastSweep, history := history, time := 200 }

theorem witness_LineChoosesItsTransaction :
    running.part.state = .running ∧ ((idleLine [0] none (some 100) []).line 0).state = .idle ∧
      (∃ t, ((idleLine [] none (some 100) []).line 0).lastSweep = some t ∧ t + 100 ≤
        ((idleLine [] none (some 100) []).line 0).time) ∧
      ((idleLine [0] (some 7) (some 101) [.stopset, .recallCar]).line 0).history = [.stopset, .recallCar] ∧
      ((idleLine [0] (some 7) (some 101) [.stopset, .recallCar]).line 0).sweep = some (7 : CarNo).val ∧
      ((idleLine [0] none none []).line 0).queue = [0] ∧ ((idleLine [] none (some 101) []).line 0).queue = [] ∧
      ((idleLine [] none (some 101) []).line 0).sweep = none ∧
      ¬ (101 + 100 ≤ ((idleLine [] none (some 101) []).line 0).time) := by
  refine ⟨rfl, by decide +kernel, ⟨100, by decide +kernel⟩, by decide +kernel⟩

/-- The count of bank A is 2, and the sweep stands at position 2, the count. -/
theorem witness_LineChoosesItsTransaction_positionAtTheCount :
    let s := idleLine [] (some 2) (some 101) []
    s.part.state = .running ∧ (s.line 0).state = .idle ∧ (s.line 0).queue = [] ∧
      (s.line 0).sweep = some (2 : CarNo).val ∧ (s.bank 0).carCount = 2 ∧
      (after (.transactionChoice 0) s).line 0 =
        { s.line 0 with state := .sending, inHand := some { poll0 with car := 2 } } := by decide +kernel

theorem witness_LinesSendWaitAndListen :
    (sendingLine.line 0).state = .sending ∧
      ((running.setLine 0 { Line.reset with state := .backoff }).line 0).state = .backoff ∧
      ((after (.resend 0 0) listening).line 0).state = .awaiting ∧
      ((after (.resend 0 0) listening).line 0).pausing = true ∧ (faulted.line 0).state = .fault ∧
      ((idleLine [] none (some 100) []).line 0).lastSweep = some 100 ∧ (listening.line 0).state = .awaiting ∧
      (listening.line 0).pausing = false ∧ (listening.line 0).inHand = some poll0 ∧
      (0 : Byte).toNat = poll0.car.val ∧ ({ poll0 with holds := 3 } : Transaction).holds < 4 ∧
      ({ poll0 with resends := 2 } : Transaction).resends < 3 := by decide +kernel

theorem listening_transmitterOk : listening.transmitterOk := ⟨fun _ h => (nomatch h), rfl, rfl⟩

/-- Line 0 sends after this many mismatches. -/
def sendingAfter (n : Nat) : State := sendingLine.setLine 0 { sendingLine.line 0 with mismatches := n }

theorem witness_ReadbackMismatchBacksOffThenFaults :
    ((sendingAfter 1).line 0).state = .sending ∧ ((sendingAfter 1).line 0).inHand = some poll0 ∧
      ((sendingAfter 1).line 0).mismatches < 2 ∧ (sendingAfter 1).transmitterOk ∧
      2 ≤ ((sendingAfter 2).line 0).mismatches ∧ ((sendingAfter 2).line 0).inHand = some poll0 ∧
      poll0.source = .sweep ∧ ((sendingAfter 2).line 0).faultMark = false :=
  ⟨by decide +kernel, by decide +kernel, by decide +kernel, ⟨fun _ h => (nomatch h), rfl, rfl⟩, by decide +kernel⟩

/-- The sweep at the last car of two; a delivery to a car in the queue. -/
theorem witness_ReadbackMismatchBacksOffThenFaults_sources :
    let s := sendingAfter 2
    let last := s.setLine 0 { s.line 0 with sweep := some 1 }
    let delivery := s.setLine 0 { s.line 0 with inHand := some { poll0 with kind := .stopset, source := .delivery } }
    (last.line 0).sweep = some 1 ∧ (last.bank 0).carCount = 2 ∧ poll0.source = .sweep ∧
      ((after (.readbackMismatch 0) last).line 0).sweep = none ∧
      ((after (.readbackMismatch 0) s).line 0).sweep = some 1 ∧
      (delivery.line 0).inHand = some { poll0 with kind := .stopset, source := .delivery } ∧
      poll0.car ∈ (delivery.line 0).queue ∧ ((after (.readbackMismatch 0) delivery).line 0).sweep = some 0 := by
  decide +kernel

theorem witness_FailedAttemptsAreTriedTwice :
    (listening.line 0).state = .awaiting ∧ (listening.line 0).pausing = false ∧ (listening.line 0).rx = [] ∧
      (listening.line 0).inHand = some poll0 ∧ (listening.line 0).faultMark = false ∧ listening.transmitterOk ∧
      poll0.attempt = 1 ∧ (1 : Byte).toNat ≠ poll0.car.val ∧ (0 : Byte).toNat = poll0.car.val ∧
      4 ≤ ({ poll0 with holds := 4, attempt := 2 } : Transaction).holds ∧
      3 ≤ ({ poll0 with resends := 3, attempt := 2 } : Transaction).resends :=
  ⟨by decide +kernel, by decide +kernel, by decide +kernel, by decide +kernel, by decide +kernel,
    listening_transmitterOk, by decide +kernel⟩

/-- Line 0 listens with its fault mark set, on attempt 2, this many mismatches counted. -/
def marked (n : Nat) : State :=
  listening.setLine 0
    { listening.line 0 with inHand := some { poll0 with attempt := 2 }, faultMark := true, mismatches := n }

/-- A mark that the end clears, and one that stays. -/
theorem witness_FailedAttemptsAreTriedTwice_mark :
    ((marked 0).line 0).state = .awaiting ∧ ((marked 0).line 0).pausing = false ∧ ((marked 0).line 0).rx = [] ∧
      ((marked 0).line 0).inHand = some { poll0 with attempt := 2 } ∧ (marked 0).transmitterOk ∧
      ((marked 0).line 0).faultMark = true ∧ ((marked 0).line 0).mismatches = 0 ∧
      ((marked 1).line 0).faultMark = true ∧ ((marked 1).line 0).mismatches ≠ 0 :=
  ⟨by decide +kernel, by decide +kernel, by decide +kernel, by decide +kernel, ⟨fun _ h => (nomatch h), rfl, rfl⟩,
    by decide +kernel⟩

/-- An answer cut after its lead byte and before its check byte, skipped bytes before it, and bad answers: an undefined
kind, another car's address, a wrong sum, a HOLD with a body, a STATUS whose count is wrong and one whose position is out of
range. -/
theorem witness_FailedAttemptsAreTriedTwice_bytes :
    (∀ x ∈ ([0, 0x68] : List Byte), x ≠ 0x69) ∧ (∀ len, ([] : List Byte)[2]? = some len → ([] : List Byte).length < len.toNat + 4) ∧
      (∀ len, ([0, 1, 1, 7] : List Byte)[2]? = some len → ([0, 1, 1, 7] : List Byte).length < len.toNat + 4) ∧
      answerBad 0 0 9 0 [] (checkByte [0x69, 0, 9, 0]) ∧ answerBad 0 1 2 0 [] (checkByte [0x69, 1, 2, 0]) ∧
      answerBad 0 0 2 0 [] 0 ∧ answerBad 0 0 2 1 [5] (checkByte [0x69, 0, 2, 1, 5]) ∧
      answerBad 0 0 1 1 [5] (checkByte [0x69, 0, 1, 1, 5]) ∧
      answerBad 0 0 1 10 [128, 0, 0, 0, 0, 0, 1, 0, 0, 0] 0 ∧ statusBad 128 0 0 0 0 1 [] ∧
      statusBad 0 0 0 0 0 0 [] ∧ statusBad 0 0 0 0 0 1 [128] :=
  ⟨by decide, fun len h => (nomatch h), fun len h => by cases h; decide, .inr (.inr (.inl (by decide))),
    .inr (.inl (by decide)), .inl (by decide), .inr (.inr (.inr (.inl (by decide)))),
    .inr (.inr (.inr (.inr ⟨rfl, .inl fun _ _ _ _ _ _ _ _ _ _ _ h => nomatch h⟩))),
    .inr (.inr (.inr (.inr ⟨rfl, .inr ⟨_, _, _, _, _, _, _, _, _, _, _, rfl, .inl (by decide)⟩⟩))), .inl (by decide),
    .inr (.inr (.inr (.inr (.inr (.inl (by decide)))))),
    .inr (.inr (.inr (.inr (.inr (.inr (.inr ⟨128, by decide⟩))))))⟩

theorem witness_StatusIsTakenByTheCar :
    (listening.line 0).state = .awaiting ∧ (listening.line 0).pausing = false ∧
      (listening.line 0).inHand = some poll0 ∧ (0 : Byte).toNat = poll0.car.val ∧
      (listening.car 0 0).service ≠ .absent ∧ (checkStatus 127 2 1 3 3 255 1 0 0 [0, 1, 2, 127]).isSome = true ∧
      (checkStatus 0 0 0 0 0 80 2 1 255 []).isSome = true := by decide +kernel

/-- The STATUS of a car made ABSENT while its answer was awaited, and of a configured one with the fault mark set. -/
theorem witness_StatusIsTakenByTheCar_absentAndMark :
    ((listening.setCar 0 0 Car.reset).line 0).state = .awaiting ∧
      ((listening.setCar 0 0 Car.reset).line 0).pausing = false ∧
      ((listening.setCar 0 0 Car.reset).line 0).inHand = some poll0 ∧ (0 : Byte).toNat = poll0.car.val ∧
      (listening.setCar 0 0 Car.reset).transmitterOk ∧
      ((listening.setCar 0 0 Car.reset).car 0 poll0.car).service = .absent ∧
      (checkStatus 0 0 0 0 0 80 2 1 255 []).isSome = true ∧ poll0.source = .sweep ∧
      ((listening.setCar 0 0 Car.reset).line 0).sweep = some 0 ∧
      ((marked 0).car 0 0).service ≠ .absent ∧ ((marked 0).line 0).faultMark = true ∧
      ((marked 0).line 0).mismatches = 0 ∧ (marked 0).host.enables.getLsbD 6 = true ∧
      (marked 0).host.queue.length + (marked 0).disp.bookings.length + 2 ≤ 32 :=
  ⟨by decide +kernel, by decide +kernel, by decide +kernel, by decide +kernel, ⟨fun _ h => (nomatch h), rfl, rfl⟩,
    by decide +kernel⟩

/-- Car A1, with a WAITING booking, is polled. -/
def bookedListening : State := booked.setLine 0 (listening.line 0)

/-- The sweep's POLL of car 0 is answered, its bank has two cars, and the STATUS takes the car out of IN_SERVICE. -/
theorem witness_StatusIsTakenByTheCar_sweepAndReport :
    bookedListening.dirtyOk ∧ poll0.source = .sweep ∧ (bookedListening.line 0).sweep = some 0 ∧
      (bookedListening.bank 0).carCount = 2 ∧ (bookedListening.car 0 0).service = .inService ∧
      ((after (.status 0 0 0 0 0 0 1 0 1 0 0 []) bookedListening).car 0 0).service = .carHeld ∧
      ((after (.status 0 0 0 0 0 0 1 0 1 0 0 []) bookedListening).line 0).sweep = some 1 ∧
      ((after (.status 0 0 0 0 0 0 1 0 1 0 0 []) bookedListening).host.queue.map fun r => r.body.kind) = [4, 5] :=
  ⟨by unfold State.dirtyOk; decide +kernel, by decide +kernel⟩

/-- The car stands at the WAITING booking's origin with its doors opening; and at floor 5, doors closed, with floor 0
keyed, which its list has room for. -/
theorem witness_StatusServesTheFloor :
    (bookedListening.line 0).state = .awaiting ∧ (bookedListening.line 0).pausing = false ∧
      (bookedListening.line 0).inHand = some poll0 ∧ (0 : Byte).toNat = poll0.car.val ∧
      (bookedListening.car 0 0).service ≠ .absent ∧ bookedListening.bookingsOk ∧ bookedListening.carOk 0 0 ∧
      ((checkStatus 0 0 0 1 0 0 1 0 0 []).map fun st => (st.fresh, st.doors)) = some (true, .opening) ∧
      ((after (.status 0 0 0 0 0 1 0 0 1 0 0 []) bookedListening).car 0 0).service = .inService ∧
      ((checkStatus 5 0 0 0 0 0 1 0 0 [0]).map fun st => st.calls) = some [0] ∧
      (bookedListening.car 0 0).enabled.has 0 = true ∧
      ({ floor := 0, dir := .down } : Key) ∉ (bookedListening.car 0 0).keys ∧
      bookedListening.projected 0 0 + 1 ≤ 24 :=
  ⟨by decide +kernel, by decide +kernel, by decide +kernel, by decide +kernel, by decide +kernel, booked_bookingsOk,
    booked_carsOk 0 0, by decide +kernel⟩

/-- Car A1 has 24 car calls, at AMENITY floors 1 to 24. -/
def fullList : State :=
  (listening.setPolicy { listening.policy with floors := Vector.replicate 128 { floor0 with kind := .amenity } }).setCar 0 0
    { car0 with
      enabled := BitVec.allOnes 128, planned := some .up,
      stops := (List.range 24).map fun i =>
        { key := { floor := Fin.ofNat 128 (i + 1), dir := .up }, pickup := false, drop := false, call := true } }

/-- No room for a call at floor 25. -/
theorem witness_StatusServesTheFloor_full :
    fullList.carOk 0 0 ∧ 24 ≤ fullList.projected 0 0 ∧ (fullList.car 0 0).enabled.has 25 = true ∧
      ((checkStatus 0 0 0 0 0 0 1 0 0 [25]).map fun st => st.calls) = some [25] ∧
      ({ floor := 25, dir := .up } : Key) ∉ (fullList.car 0 0).keys ∧ fullList.pendingDrops 0 0 = [] := by
  unfold State.carOk Car.listOk State.enabledAt sweepBefore sweepPhase
  decide +kernel

theorem witness_CarThatLeavesServiceMovesItsWaiting :
    (bookedListening.line 0).state = .awaiting ∧ (bookedListening.line 0).pausing = false ∧
      (bookedListening.line 0).inHand = some poll0 ∧ (0 : Byte).toNat = poll0.car.val ∧
      (bookedListening.car 0 poll0.car).service = .inService ∧ bookedListening.bookingsOk ∧
      (checkStatus 0 0 0 0 1 0 1 0 0 []).isSome = true ∧
      (∃ u, exec (.status 0 0 0 0 0 0 1 0 1 0 0 []) bookedListening = .next u) ∧
      ((after (.status 0 0 0 0 0 0 1 0 1 0 0 []) bookedListening).car 0 poll0.car).service ≠ .inService :=
  ⟨by decide +kernel, by decide +kernel, by decide +kernel, by decide +kernel, by decide +kernel, booked_bookingsOk,
    by decide +kernel, ⟨_, rfl⟩, by decide +kernel⟩

/-- Car A2 can take the booking of car A1, whose port remembers it. -/
def secondCar : State :=
  (bookedListening.setCar 0 1 car0).setPort 0 { Port.reset with memory := some memory0 }

/-- The oldest WAITING booking of car A1: with another included lane, the lowest, and with none; the car serving floor 0 in
the same event; and room for its report. -/
theorem witness_CarThatLeavesServiceMovesItsWaiting_moves :
    (bookedListening.waitingOn 0 0).head? = some booking0 ∧
      (∀ h : CarNo, h ≠ 0 → bookedListening.lane 0 booking0.trip h = 65535) ∧
      bookedListening.host.enables.getLsbD 4 = true ∧
      bookedListening.host.queue.length + bookedListening.disp.bookings.length + 2 ≤ 32 ∧
      (secondCar.waitingOn 0 0).head? = some booking0 ∧ secondCar.lane 0 booking0.trip 1 ≠ 65535 ∧
      (∀ h : CarNo, h ≠ 0 → secondCar.lane 0 booking0.trip 1 ≤ secondCar.lane 0 booking0.trip h ∧
        (h < 1 → secondCar.lane 0 booking0.trip 1 < secondCar.lane 0 booking0.trip h)) ∧
      ((secondCar.port booking0.port).memory.map fun m => m.booking) = some booking0.id ∧
      ((after (.status 0 0 0 0 0 1 1 0 1 0 0 []) secondCar).car 0 0).service = .carHeld ∧
      (after (.status 0 0 0 0 0 1 1 0 1 0 0 []) secondCar).disp.bookings = [{ booking0 with car := 1 }] ∧
      ((after (.status 0 0 0 0 0 1 1 0 1 0 0 []) secondCar).port 0).memory = some { memory0 with car := 1 } ∧
      (after (.status 0 0 0 0 0 1 1 0 1 0 0 []) bookedListening).disp.bookings = [] := by decide +kernel

/-- The contact timer of 3 s: 31 ds is over it, 30 ds is not. -/
theorem witness_ClockEventsTakeTheirEffects_contactAndAbandon :
    silentCar.part.state = .running ∧ (silentCar.car 0 0).age = some 990 ∧
      10 * (silentCar.bank 0).contactTime < ((1021 : Clock) - 990).toNat ∧ silentCar.part.clock = 1021 ∧
      (silentCar.car 0 0).service = .inService ∧ ((1020 : Clock) - 990).toNat ≤ 10 * (silentCar.bank 0).contactTime ∧
      (silentCar.car 0 1).age = none ∧ silentCar.host.enables.getLsbD 5 = true ∧ silentCar.host.queue = [] ∧
      booked.bookingsOk :=
  ⟨rfl, by decide +kernel, by decide +kernel, rfl, by decide +kernel, by decide +kernel, by decide +kernel,
    by decide +kernel, rfl, booked_bookingsOk⟩

/-- Booking 0 of port 0 waited from 900: 300 s end at 3900, and at 3901 it goes, with the port's memory of it. The contact
timer of its car, silent since 990, moves it or cancels it. -/
theorem witness_ClockEventsTakeTheirEffects_abandon :
    let s := (booked.setPort 0 { Port.reset with memory := some memory0 }).setPart { booked.part with clock := 3901 }
    s.part.state = .running ∧ 10 * (s.bank 0).maxWait < (s.part.clock - booking0.created).toNat ∧
      (after .abandonTimer s).disp.bookings = [] ∧ ((after .abandonTimer s).port 0).memory = none ∧
      10 * (s.bank 0).contactTime < (s.part.clock - 990).toNat ∧ (s.car 0 0).age = some 990 ∧
      (s.car 0 0).service = .inService ∧ s.waitingOn 0 0 = [booking0] := by decide +kernel

theorem witness_ClockEventsTakeTheirEffects_tickets :
    let s := sendingReport.setTickets [ticket0]
    s.part.state = .running ∧ s.host.enables.getLsbD 9 = true ∧ s.host.tx ≠ .free ∧
      s.host.queue.length + (s.disp.tickets.filter fun x => (s.part.clock - x.expiry).toNat < 2147483648).length ≤ 32 ∧
      (s.part.clock - ticket0.expiry).toNat < 2147483648 := by decide +kernel

theorem witness_TransmitterEndsAndChoices :
    (after (.queryPart 9) running).host.tx = .sendingReply ∧
      (after (.undefinedRequestType 23 9) running).host.request =
        .replying { type := 23, tag := 9, status := .badValue, body := .empty } ∧
      (after (.queryPart 8) busy).host.tx = .sendingBusy ∧ sendingReport.host.tx = .sendingReport .routine ∧
      (sendingReport.host.queue.map fun r => r.cls) = [.routine] ∧
      (after (.recallInputAsserted 0) sendingReport).host.tx = .stopIdle ∧ HostPort.reset.tx = .free ∧
      HostPort.reset.owedBusy = none ∧ HostPort.reset.queue = [] := by decide +kernel

def routine0 : Report := { cls := .routine, clock := 0, body := .recallInput 0 true, gap := false }

def urgent0 : Report := { routine0 with cls := .urgent }

/-- A full Report Queue: one URGENT report and 31 ROUTINE ones, the oldest of which is being sent. -/
def fullPort : HostPort :=
  { HostPort.reset with tx := .sendingReport .routine, queue := [urgent0] ++ routine0 :: List.replicate 30 routine0 }

theorem witness_PostedReportJoinsOrIsLost :
    HostPort.resetEnables.getLsbD 2 = false ∧ fullPort.enables.getLsbD routine0.body.kind = true ∧
      32 ≤ fullPort.queue.length ∧ fullPort.tx = .sendingReport .routine ∧
      fullPort.queue = [urgent0] ++ routine0 :: List.replicate 29 routine0 ++ routine0 :: [] ∧
      (List.replicate 31 routine0).length < 32 ∧
      ({ fullPort with tx := .sendingReply } : HostPort).tx ≠ .sendingReport .routine ∧
      32 ≤ (List.replicate 31 urgent0 ++ routine0 :: []).length ∧
      (∀ y ∈ List.replicate 32 urgent0, y.cls = .urgent) ∧ (fullPort.post urgent0).tx = .stopIdle := by decide +kernel

theorem witness_StoredSlotsReadBack :
    (checkCredential 305419896 3 127 2 [7, 8, 9, 10] 127 [0, 127] 65535 255 65535).isSome = true ∧
      (checkProfile (List.replicate 6 (BitVec.ofNat 32 (1439 + 2048 * 1440)))).isSome = true ∧
      (checkBank 0 99 0 999 99 0 9999 0 0 127 255 .fireRecall).isSome = true ∧
      (checkReader 7 127 15 2 255).isSome = true ∧ 60 ≤ 60 ∧ 1800 ≤ 1800 ∧
      (∀ x ∈ [(32 : Byte), 126, 45], 32 ≤ x.toNat ∧ x.toNat ≤ 126) := by decide +kernel

theorem witness_WrittenPageIsJudgedGood :
    Store.wf running.store.cells = true ∧ 2111 < 2112 ∧ 1 ≤ 4294967294 ∧
      (List.replicate 16 freeSlot).length = 16 ∧ ∀ x ∈ List.replicate 16 freeSlot, x.length = 28 := by
  decide +kernel

theorem witness_StepKeepsTheStoreAndTheHostPort_store :
    (busy.setPending [.verifyMatch]).storeOk ∧ (busy.setPending [.verifyMatch]).queueOk ∧
      ∃ t, step (busy.setPending [.verifyMatch]) = .next t :=
  ⟨running_storeOk, by unfold State.queueOk; decide +kernel, ⟨_, rfl⟩⟩

theorem witness_StepKeepsTheStoreAndTheHostPort_transmitter :
    (running.setPending [.queryPart 9]).transmitterOk ∧ ∃ t, step (running.setPending [.queryPart 9]) = .next t :=
  ⟨running_transmitterOk, ⟨_, rfl⟩⟩

theorem booked_dirtyOk : booked.dirtyOk := by unfold State.dirtyOk; decide +kernel

theorem witness_StepKeepsTheDirtyQueuesExact :
    (booked.setPending [.abandonTimer]).dirtyOk ∧ ∃ t, step (booked.setPending [.abandonTimer]) = .next t :=
  ⟨booked_dirtyOk, ⟨_, rfl⟩⟩

/-- Cars A1 and A2 are dirty, and the second attempt of a delivery to A1 waits for its answer. -/
def delivering : State :=
  (booked.setCar 0 1 car0).setLine 0
    { Line.reset with
      state := .awaiting, queue := [0, 1], ends := some 3,
      inHand := some { poll0 with kind := .stopset, source := .delivery, attempt := 2 } }

/-- The end of a delivery, after which its car stands at the tail, and an abandon timer that finds nothing due. -/
theorem witness_StepKeepsTheDirtyQueuesExact_order :
    delivering.dirtyOk ∧ (delivering.line 0).inHand = some { poll0 with kind := .stopset, source := .delivery, attempt := 2 } ∧
      ((after (.answerWindowExpiry 0) delivering).line 0).inHand = none ∧
      ((after (.answerWindowExpiry 0) delivering).line 0).queue = [1, 0] ∧
      ((after .abandonTimer delivering).line 0).inHand ≠ none ∧
      ((after .abandonTimer delivering).line 0).queue = [0, 1] :=
  ⟨by unfold State.dirtyOk; decide +kernel, by decide +kernel⟩

theorem deciding_port0 :
    deciding.port 0 = { Port.reset with state := .pending, slot := some { pres := taken0, taken := true } } := by
  decide +kernel

theorem deciding_others (p : PortNo) (h : p ≠ 0) : deciding.port p = Port.reset := by revert p; decide +kernel

theorem deciding_startingOk : deciding.startingOk := ⟨fun h => (nomatch h), fun h => (nomatch h)⟩

theorem deciding_portsOk : deciding.portsOk := by
  refine ⟨fun p => ?_, fun p x hx => ?_, fun x hx => ?_⟩
  · by_cases h : p = 0
    · subst h; rw [deciding_port0]
      exact ⟨fun h => (nomatch h), fun h => (nomatch h), rfl, fun h => absurd rfl h⟩
    · rw [deciding_others p h]; exact ⟨fun h => (nomatch h), rfl, rfl, rfl⟩
  · by_cases h : p = 0
    · subst h; rw [deciding_port0] at hx; cases hx; exact ⟨rfl, fun _ => rfl⟩
    · rw [deciding_others p h] at hx; cases hx
  · cases hx; exact ⟨congrArg Port.state deciding_port0, congrArg Port.slot deciding_port0⟩

theorem witness_StepKeepsPortsAndEngineInStep :
    (deciding.setPending [.decisionMoment]).startingOk ∧ (deciding.setPending [.decisionMoment]).portsOk ∧
      ∃ t, step (deciding.setPending [.decisionMoment]) = .next t :=
  ⟨deciding_startingOk, deciding_portsOk, ⟨_, rfl⟩⟩

theorem booked_ticketsOk : (booked.setTickets [ticket0]).ticketsOk := by unfold State.ticketsOk; decide +kernel

theorem witness_StepKeepsTheTablesAndQuietBanks_tables :
    ((booked.setTickets [ticket0]).setPending [.ticketExpiry]).bookingsOk ∧
      ((booked.setTickets [ticket0]).setPending [.ticketExpiry]).ticketsOk ∧
      ∃ t, step ((booked.setTickets [ticket0]).setPending [.ticketExpiry]) = .next t :=
  ⟨booked_bookingsOk, booked_ticketsOk, ⟨_, rfl⟩⟩

theorem booked_quietOk : booked.quietOk := by unfold State.quietOk State.quiet; decide +kernel

theorem witness_StepKeepsTheTablesAndQuietBanks_quiet :
    (booked.setPending [.recallInputAsserted 0]).quietOk ∧
      ∃ t, step (booked.setPending [.recallInputAsserted 0]) = .next t :=
  ⟨booked_quietOk, ⟨_, rfl⟩⟩

theorem witness_StepKeepsCarsInStep :
    (booked.setPending [.abandonTimer]).startingOk ∧ (booked.setPending [.abandonTimer]).bookingsOk ∧
      (booked.setPending [.abandonTimer]).quietOk ∧ (booked.setPending [.abandonTimer]).programOk ∧
      (booked.setPending [.abandonTimer]).carsOk ∧ ∃ t, step (booked.setPending [.abandonTimer]) = .next t :=
  ⟨⟨fun h => (nomatch h), fun h => (nomatch h)⟩, booked_bookingsOk, booked_quietOk,
    fun _ hg => (nomatch hg), booked_carsOk, ⟨_, rfl⟩⟩

/-- A recall empties car A1's stop set; an abandon timer that is not due leaves it. -/
theorem witness_GenerationFollowsTheStopSet :
    Instr.recallInputAsserted 0 ≠ .resetPin ∧ Instr.recallInputAsserted 0 ≠ .replySent ∧
      Instr.recallInputAsserted 0 ≠ .startUpScanEnd ∧ (∃ t, exec (.recallInputAsserted 0) booked = .next t) ∧
      (booked.car 0 0).service ≠ .absent ∧
      ((after (.recallInputAsserted 0) booked).car 0 0).service ≠ .absent ∧
      ((after (.recallInputAsserted 0) booked).car 0 0).enabled ≠ (booked.car 0 0).enabled ∧
      ((after .abandonTimer booked).car 0 0).keys = (booked.car 0 0).keys :=
  ⟨by decide, by decide, by decide, ⟨_, rfl⟩, by decide +kernel⟩

theorem witness_StepKeepsBadgesOnce :
    (running.setPending [.revoke 9 305419896]).storeOk ∧ (running.setPending [.revoke 9 305419896]).badgesOk ∧
      ∃ t, step (running.setPending [.revoke 9 305419896]) = .next t :=
  ⟨running_storeOk, running_badgesOk, ⟨_, rfl⟩⟩

end Sys2Proof.Tests
end

section
/-! SUPPORT and PROOF for O15 (R5, R6): the home page and the probe range of a badge, the record of a slot in use, and
the lookup read as a search of the 64 slots by their places. -/

namespace Sys2Proof.Machine

/-! ### The home page and the probe range (R5) -/

theorem homePage_eq_xor (badge : Badge) :
    homePage badge = (badge.toNat % 2048) ^^^ (badge.toNat / 2048 % 2048) ^^^ (badge.toNat / 4194304) := by
  have high_lt : badge.toNat / 4194304 < 1024 := by have := badge.isLt; omega
  have high_lt' : badge.toNat / 4194304 < 2048 := by omega
  simp [homePage, BitVec.extractLsb'_toNat, Nat.shiftRight_eq_div_pow, Nat.mod_eq_of_lt high_lt,
    Nat.mod_eq_of_lt high_lt']

theorem homePage_lt (badge : Badge) : homePage badge < 2048 := BitVec.isLt _

theorem probeRange_eq (badge : Badge) :
    probeRange badge = [homePage badge, (homePage badge + 1) % 2048, (homePage badge + 2) % 2048,
      (homePage badge + 3) % 2048] :=
  calc probeRange badge
    _ = [homePage badge % 2048, (homePage badge + 1) % 2048, (homePage badge + 2) % 2048,
          (homePage badge + 3) % 2048] := rfl
    _ = _ := by rw [Nat.mod_eq_of_lt (homePage_lt badge)]

theorem probeRange_nodup (badge : Badge) : (probeRange badge).Nodup := by
  have home_lt := homePage_lt badge
  rw [probeRange_eq]
  simp only [List.nodup_cons, List.mem_cons, List.not_mem_nil, or_false, not_or, not_false_eq_true, List.nodup_nil,
    and_true]
  omega

/-- The 64 slots as one list by place: the page counts up every sixteen places. -/
theorem probeSlots_eq_map (badge : Badge) :
    probeSlots badge = (List.range 64).map fun i => ((homePage badge + i / 16) % 2048, i % 16) := rfl

@[simp] theorem probeSlots_length (badge : Badge) : (probeSlots badge).length = 64 := by simp [probeSlots_eq_map]

theorem probeSlots_getElem? (badge : Badge) {i : Nat} (hi : i < 64) :
    (probeSlots badge)[i]? = some ((homePage badge + i / 16) % 2048, i % 16) := by
  simp [probeSlots_eq_map, hi]

/-! ### The record of a slot in use (R2, R3, R19) -/

theorem rawRecord_eq_some_iff {m : List Host.Cell} {p k : Nat} {r : Credential} :
    rawRecord m p k = some r ↔ decodeCredential (slotRead m p k) = some r ∧ p ∈ probeRange r.badge := by
  unfold rawRecord
  cases decodeCredential (slotRead m p k) with
  | none => simp
  | some c =>
    simp only [Option.ite_none_right_eq_some, Option.some.injEq]
    constructor
    · rintro ⟨inRange, rfl⟩
      exact ⟨rfl, inRange⟩
    · rintro ⟨rfl, inRange⟩
      exact ⟨inRange, rfl⟩

theorem StoreBlock.record_eq_some_iff {st : StoreBlock} {p k : Nat} {r : Credential} :
    st.record p k = some r ↔ st.bad p = false ∧ (p, k) ∉ st.freed ∧ rawRecord st.cells p k = some r := by
  simp [StoreBlock.record, and_assoc]

/-- R5: a slot in use lies on a GOOD page of its record's probe range. -/
theorem StoreBlock.record_lies_in_probeRange {st : StoreBlock} {p k : Nat} {r : Credential}
    (h : st.record p k = some r) : st.bad p = false ∧ p ∈ probeRange r.badge := by
  obtain ⟨good, -, raw⟩ := record_eq_some_iff.1 h
  exact ⟨good, (rawRecord_eq_some_iff.1 raw).2⟩

/-! ### The search of the slots (R6) -/

/-- A first match, said by its place in the list. -/
theorem findSome?_eq_some_iff_getElem? {α β : Type} {f : α → Option β} {l : List α} {b : β} :
    l.findSome? f = some b ↔
      ∃ (i : Nat) (a : α), l[i]? = some a ∧ f a = some b ∧ ∀ j < i, ∀ x, l[j]? = some x → f x = none := by
  rw [List.findSome?_eq_some_iff]
  constructor
  · rintro ⟨before, a, after, rfl, found, none_before⟩
    refine ⟨before.length, a, by simp, found, fun j hj x hx => none_before x ?_⟩
    rw [List.getElem?_append_left hj] at hx
    exact List.mem_of_getElem? hx
  · rintro ⟨i, a, at_i, found, none_before⟩
    obtain ⟨hi, rfl⟩ := List.getElem?_eq_some_iff.1 at_i
    refine ⟨l.take i, l[i], l.drop (i + 1), by simp, found, fun x hx => ?_⟩
    obtain ⟨j, hj, rfl⟩ := List.mem_take_iff_getElem.1 hx
    exact none_before j (by omega) _ (List.getElem?_eq_getElem _)

/-- What the search takes from one slot. -/
def StoreBlock.slotMatch (st : StoreBlock) (badge : Badge) (x : Nat × Nat) : Option (Credential × Nat × Nat) :=
  match st.record x.1 x.2 with
  | some r => if r.badge = badge then some (r, x.1, x.2) else none
  | none => none

/-- The slot at place `i` of the probe range holds no record of the badge. -/
def StoreBlock.mismatchAt (st : StoreBlock) (badge : Badge) (i : Nat) : Prop :=
  ∀ p k r, (probeSlots badge)[i]? = some (p, k) → st.record p k = some r → r.badge ≠ badge

theorem StoreBlock.search_eq_findSome? (st : StoreBlock) (badge : Badge) :
    st.search badge = (probeSlots badge).findSome? (st.slotMatch badge) := rfl

theorem StoreBlock.slotMatch_eq_some_iff {st : StoreBlock} {badge : Badge} {x : Nat × Nat} {r : Credential}
    {p k : Nat} :
    st.slotMatch badge x = some (r, p, k) ↔ x = (p, k) ∧ st.record p k = some r ∧ r.badge = badge := by
  obtain ⟨q, j⟩ := x
  unfold slotMatch
  constructor
  · intro h
    split at h
    · next c held =>
      split at h
      · next same => cases h; exact ⟨rfl, held, same⟩
      · cases h
    · cases h
  · rintro ⟨⟨⟩, held, same⟩
    simp [held, same]

theorem StoreBlock.slotMatch_eq_none_iff {st : StoreBlock} {badge : Badge} {p k : Nat} :
    st.slotMatch badge (p, k) = none ↔ ∀ r, st.record p k = some r → r.badge ≠ badge := by
  unfold slotMatch
  cases st.record p k <;> simp

/-- A place is passed over exactly when the search takes nothing from its slot. -/
theorem StoreBlock.mismatchAt_iff {st : StoreBlock} {badge : Badge} {i : Nat} :
    st.mismatchAt badge i ↔ ∀ x, (probeSlots badge)[i]? = some x → st.slotMatch badge x = none := by
  constructor
  · rintro h ⟨p, k⟩ at_i
    exact slotMatch_eq_none_iff.2 fun r => h p k r at_i
  · intro h p k r at_i
    exact slotMatch_eq_none_iff.1 (h (p, k) at_i) r

theorem StoreBlock.search_eq_some_iff {st : StoreBlock} {badge : Badge} {r : Credential} {p k : Nat} :
    st.search badge = some (r, p, k) ↔
      ∃ i, (probeSlots badge)[i]? = some (p, k) ∧ st.record p k = some r ∧ r.badge = badge ∧
        ∀ j < i, st.mismatchAt badge j := by
  simp only [search_eq_findSome?, findSome?_eq_some_iff_getElem?, slotMatch_eq_some_iff, mismatchAt_iff]
  constructor
  · rintro ⟨i, _, at_i, ⟨rfl, held, same⟩, before⟩
    exact ⟨i, at_i, held, same, before⟩
  · rintro ⟨i, at_i, held, same, before⟩
    exact ⟨i, (p, k), at_i, ⟨rfl, held, same⟩, before⟩

theorem StoreBlock.search_eq_none_iff {st : StoreBlock} {badge : Badge} :
    st.search badge = none ↔ ∀ i, st.mismatchAt badge i := by
  simp only [search_eq_findSome?, List.findSome?_eq_none_iff, List.mem_iff_getElem?, mismatchAt_iff]
  exact ⟨fun h i x at_i => h x ⟨i, at_i⟩, fun h x ⟨i, at_i⟩ => h i x at_i⟩

/-! ### The answer of the probe range, and the lookup (R6, R13) -/

theorem StoreBlock.answer_eq_found_iff {st : StoreBlock} {badge : Badge} {r : Credential} {p k : Nat} :
    st.answer badge = .found r p k ↔ st.search badge = some (r, p, k) := by
  unfold answer
  split
  · next found => simp [found]
  · next noMatch => rw [noMatch]; split <;> simp

theorem StoreBlock.answer_eq_missingBad_iff {st : StoreBlock} {badge : Badge} :
    st.answer badge = .missingBad ↔ st.search badge = none ∧ ∃ p ∈ probeRange badge, st.bad p = true := by
  unfold answer
  split
  · next found => simp [found]
  · next noMatch => simp [noMatch]

theorem StoreBlock.answer_eq_missing_iff {st : StoreBlock} {badge : Badge} :
    st.answer badge = .missing ↔ st.search badge = none ∧ ∀ p ∈ probeRange badge, st.bad p = false := by
  unfold answer
  split
  · next found => simp [found]
  · next noMatch => simp [noMatch]

theorem StoreBlock.answer_ne_inProgram (st : StoreBlock) (badge : Badge) : st.answer badge ≠ .inProgram := by
  unfold answer
  split
  · simp
  · split <;> simp

theorem StoreBlock.underProgram_iff {st : StoreBlock} {p : Nat} :
    st.underProgram p = true ↔ ∃ g, st.programmer = some g ∧ g.page = p := by
  unfold underProgram
  cases st.programmer <;> simp

theorem StoreBlock.lookup_eq_inProgram_iff {st : StoreBlock} {badge : Badge} :
    st.lookup badge = .inProgram ↔ ∃ p ∈ probeRange badge, ∃ g, st.programmer = some g ∧ g.page = p := by
  simp only [lookup, ← underProgram_iff, ← List.any_eq_true]
  split
  · next busy => simp [busy]
  · next idle => simp [idle, answer_ne_inProgram]

theorem StoreBlock.lookup_eq_answer {st : StoreBlock} {badge : Badge} (h : st.lookup badge ≠ .inProgram) :
    st.lookup badge = st.answer badge := by
  unfold lookup at h ⊢
  split
  · next busy => exact absurd (if_pos busy) h
  · rfl

/-- Settles O15: the home page and its 64 slots by arithmetic, the records by what makes a slot count as in use, and
each outcome of the lookup by the places the search passes over. -/
theorem lookupSearchesFourPagesFromHome : Obligations.LookupSearchesFourPagesFromHome := by
  refine ⟨fun badge => ?home, fun st p k r => StoreBlock.record_lies_in_probeRange,
    fun st badge => ⟨StoreBlock.lookup_eq_inProgram_iff, fun idle => ?outcomes⟩⟩
  case home =>
    exact ⟨homePage_eq_xor badge, homePage_lt badge, probeRange_eq badge, probeRange_nodup badge,
      probeSlots_length badge, fun i => probeSlots_getElem? badge⟩
  case outcomes =>
    rw [StoreBlock.lookup_eq_answer idle]
    exact ⟨fun r p k => StoreBlock.answer_eq_found_iff.trans StoreBlock.search_eq_some_iff,
      StoreBlock.answer_eq_missingBad_iff.trans (and_congr_left' StoreBlock.search_eq_none_iff),
      StoreBlock.answer_eq_missing_iff.trans (and_congr_left' StoreBlock.search_eq_none_iff)⟩

end Sys2Proof.Machine
end

section
/-! SUPPORT and PROOF for O8 (R35 to R37): the codes of the day types, the calendar that SET-CLOCK gives or refuses, and
the second advance. -/

namespace Sys2Proof.Machine

/-! ### The codes of the day types (00_scope, "Time") -/

@[simp] theorem DayType.ofCode_code (d : DayType) : DayType.ofCode d.code = some d := by cases d <;> rfl

theorem DayType.code_ne_absent (d : DayType) : d.code ≠ 255 := by cases d <;> decide

theorem DayType.ofCode_eq_none {b : Byte} (h : 4 ≤ b.toNat) : DayType.ofCode b = none := by
  unfold DayType.ofCode
  split
  case h_5 => rfl
  all_goals omega

/-! ### SET-CLOCK and SET-NEXT-DAY (R36, R37) -/

/-- The code of a pending type that a SET-CLOCK may give: 255 stands for an absent one. -/
def pendingCode (p : Option DayType) : Byte := (p.map DayType.code).getD 255

theorem clockSet_eq_some (now : Clock) (day : BitVec 16) {weekday : Byte} {minute : BitVec 16} {second : Byte}
    {w : Fin 7} {m : Fin 1440} {x : Fin 60} (d : DayType) (p : Option DayType) (hw : weekday.toNat = w.val)
    (hm : minute.toNat = m.val) (hx : second.toNat = x.val) :
    clockSet now day weekday minute second d.code (pendingCode p) =
      some { isSet := true, day := day, weekday := w, minute := m, second := x, dayType := d, pendingType := p,
             lastAdvance := now } := by
  cases p with
  | none => simp [clockSet, pendingCode, hw, hm, hx]
  | some e =>
    have pending : pendingCode (some e) = e.code := rfl
    simp only [clockSet, pending, if_neg e.code_ne_absent]
    simp [hw, hm, hx]

theorem clockSet_eq_none (now : Clock) (day : BitVec 16) {weekday : Byte} {minute : BitVec 16}
    {second dayType pend : Byte}
    (h : 7 ≤ weekday.toNat ∨ 1440 ≤ minute.toNat ∨ 60 ≤ second.toNat ∨ 4 ≤ dayType.toNat ∨
      (4 ≤ pend.toNat ∧ pend ≠ 255)) :
    clockSet now day weekday minute second dayType pend = none := by
  obtain badWeekday | badMinute | badSecond | badType | ⟨badPending, notAbsent⟩ := h
  · exact dif_neg (by omega)
  · exact dif_neg (by omega)
  · exact dif_neg (by omega)
  · simp [clockSet, DayType.ofCode_eq_none badType]
  · simp only [clockSet, if_neg notAbsent, DayType.ofCode_eq_none badPending]
    simp

theorem exec_setClock_of_some {s : State} (taken : s.canTake) (tag : Byte) {day : BitVec 16} {weekday : Byte}
    {minute : BitVec 16} {second dayType pend : Byte} {c : Calendar}
    (h : clockSet s.now day weekday minute second dayType pend = some c) :
    exec (.setClock tag day weekday minute second dayType pend) s =
      .next ((s.setCalendar c).replied 1 tag .done .empty) := by
  have judged : s.hostHunt.judge (.setClock day weekday minute second dayType pend) =
      .done (s.setCalendar c).hostHunt .empty := by
    simp only [State.judge, State.judgeSetClock, State.now_hostHunt, h]
    rfl
  rw [exec_of_requestOf rfl, State.hostFrame_done taken judged]
  rfl

theorem exec_setClock_of_none {s : State} (taken : s.canTake) (tag : Byte) {day : BitVec 16} {weekday : Byte}
    {minute : BitVec 16} {second dayType pend : Byte}
    (h : clockSet s.now day weekday minute second dayType pend = none) :
    exec (.setClock tag day weekday minute second dayType pend) s = .next (s.replied 1 tag .badValue .empty) := by
  have judged : s.hostHunt.judge (.setClock day weekday minute second dayType pend) = .refuse .badValue := by
    simp only [State.judge, State.judgeSetClock, State.now_hostHunt, h]
  rw [exec_of_requestOf rfl, State.hostFrame_refuse taken judged]
  rfl

theorem exec_setNextDay_code {s : State} (taken : s.canTake) (tag : Byte) (d : DayType) :
    exec (.setNextDay tag d.code) s =
      .next ((s.setCalendar { s.calendar with pendingType := some d }).replied 2 tag .done .empty) := by
  have judged : s.hostHunt.judge (.setNextDay d.code) =
      .done (s.setCalendar { s.calendar with pendingType := some d }).hostHunt .empty := by
    simp only [State.judge, State.judgeSetNextDay, DayType.ofCode_code]
    rfl
  rw [exec_of_requestOf rfl, State.hostFrame_done taken judged]
  rfl

theorem exec_setNextDay_undefined {s : State} (taken : s.canTake) (tag : Byte) {dayType : Byte}
    (h : 4 ≤ dayType.toNat) :
    exec (.setNextDay tag dayType) s = .next (s.replied 2 tag .badValue .empty) := by
  have judged : s.hostHunt.judge (.setNextDay dayType) = .refuse .badValue := by
    simp only [State.judge, State.judgeSetNextDay, DayType.ofCode_eq_none h]
  rw [exec_of_requestOf rfl, State.hostFrame_refuse taken judged]
  rfl

/-! ### The second advance (R35) -/

theorem Calendar.due_iff {c : Calendar} {now : Clock} :
    c.due now = true ↔ c.isSet = true ∧ 10 ≤ (now - c.lastAdvance).toNat := by simp [due]

theorem exec_calendarSecondAdvance_due {s : State} (h : s.calendar.due s.now = true) :
    exec .calendarSecondAdvance s = .next (s.setCalendar s.calendar.advance) := if_pos h

theorem exec_calendarSecondAdvance_early {s : State} (h : ¬ s.calendar.due s.now = true) :
    exec .calendarSecondAdvance s = .next s := if_neg h

/-- An advance within the minute, into the next minute, or over the end of the day: the second counts up modulo 60. -/
theorem Calendar.advance_second (c : Calendar) : c.advance.second.val = (c.second.val + 1) % 60 := by
  unfold advance nextSecond
  split
  · next last =>
    split
    · simp [rollover, last]
    · simp [last]
  · exact Fin.val_add c.second 1

/-- Only the end of the day touches the day types. -/
theorem Calendar.advance_keepsTypes {c : Calendar} (h : ¬ (c.minute = 1439 ∧ c.second = 59)) :
    c.advance.dayType = c.dayType ∧ c.advance.pendingType = c.pendingType := by
  unfold advance nextSecond
  split
  · next lastSecond =>
    split
    · next lastMinute => exact absurd ⟨Fin.ext lastMinute, Fin.ext lastSecond⟩ h
    · exact ⟨rfl, rfl⟩
  · exact ⟨rfl, rfl⟩

/-- Settles O8: each request by the calendar it gives or the code it refuses, the advance by when it is due. -/
theorem calendarRequestsSetTheCalendar : Obligations.CalendarRequestsSetTheCalendar := by
  refine ⟨fun s tag day weekday minute second dayType pend taken => ⟨?set, ?refused⟩,
    fun s tag dayType taken => ⟨?next, exec_setNextDay_undefined taken tag⟩, fun s unset => ?unset,
    fun s isSet => ⟨fun early => ?early, fun late => ?due⟩⟩
  case set =>
    rintro w m x d p hw hm hx rfl rfl
    exact exec_setClock_of_some taken tag (clockSet_eq_some _ day d p hw hm hx)
  case refused => exact fun h => exec_setClock_of_none taken tag (clockSet_eq_none _ day h)
  case next =>
    rintro d rfl
    exact exec_setNextDay_code taken tag d
  case unset => exact exec_calendarSecondAdvance_early (by simp [Calendar.due_iff, unset])
  case early =>
    refine exec_calendarSecondAdvance_early fun due => ?_
    obtain ⟨-, late⟩ := Calendar.due_iff.1 due
    exact Nat.not_le.2 early late
  case due =>
    exact ⟨s.calendar.advance, exec_calendarSecondAdvance_due (Calendar.due_iff.2 ⟨isSet, late⟩),
      s.calendar.advance_second, Calendar.advance_keepsTypes⟩

end Sys2Proof.Machine
end

section
/-! SUPPORT and PROOF for O32 (R25, R41, R42): which minutes an interval and a profile cover, when a group is admitted,
and the validity test. -/

namespace Sys2Proof.Machine

/-- R25: an interval's span lies between its ends, wraps over midnight, or is the whole day. -/
theorem Interval.admits_iff {i : Interval} {d : DayType} {m : Nat} :
    i.admits d m = true ↔ i.days.getLsbD d.code.toNat = true ∧
      ((i.start < i.stop ∧ i.start ≤ m ∧ m < i.stop) ∨ (i.stop < i.start ∧ (i.start ≤ m ∨ m < i.stop)) ∨
        i.start = i.stop) := by
  simp only [admits, Bool.and_eq_true]
  refine and_congr_right fun _ => ?_
  obtain within | whole | wraps := lt_trichotomy i.start i.stop
  · simp [within, within.asymm, within.ne]
  · simp [whole]
  · simp [wraps, wraps.asymm, wraps.ne']

theorem Policy.profileAdmits_iff {t : Policy} {n : Fin 64} {d : DayType} {m : Nat} :
    t.profileAdmits n d m = true ↔ n = 0 ∨ ∃ i ∈ t.profiles.get n, i.admits d m = true := by
  simp [profileAdmits]

/-- R39: while UNSET only profile 0 admits. -/
theorem State.admitted_iff {s : State} {n : Byte} :
    s.admitted n = true ↔ (s.group n).enabled = true ∧
      (if s.calendar.isSet then
          s.policy.profileAdmits (s.group n).profile s.calendar.dayType s.calendar.minute.val = true
        else (s.group n).profile = 0) := by
  cases isSet : s.calendar.isSet <;> simp [admitted, isSet]

theorem State.overrideFlag_iff {s : State} {r : Credential} :
    s.overrideFlag r = true ↔ ∃ n ∈ r.groups, s.admitted n = true ∧ (s.group n).override = true := by
  simp [overrideFlag]

theorem State.valid_iff {s : State} {r : Credential} :
    s.valid r = true ↔ s.calendar.isSet = false ∨
      (r.validFrom.toNat ≤ s.calendar.day.toNat ∧ ∀ d, r.validUntil = some d → s.calendar.day.toNat ≤ d.toNat) := by
  cases noEnd : r.validUntil <;> simp [valid, noEnd]

/-- Settles O32: each of the model's tests by its own rule. -/
theorem profilesOverrideAndValidity : Obligations.ProfilesOverrideAndValidity := by
  refine ⟨fun t n d m => ?profile, fun s r => ⟨?override, State.valid_iff⟩⟩
  case profile => simp only [Policy.profileAdmits_iff, Interval.admits_iff]
  case override =>
    rw [State.overrideFlag_iff]
    refine exists_congr fun n => and_congr_right fun _ => ?_
    rw [State.admitted_iff, and_comm]
    refine and_congr_right fun _ => and_congr_right fun _ => ?_
    cases s.calendar.isSet <;> simp

end Sys2Proof.Machine
end

section
/-! SUPPORT and PROOF for O33 (R39, R40): floor sets by their members, and the permitted set step by step. -/

namespace Sys2Proof.Machine

/-! ### Floor sets by their members -/

theorem FloorSet.has_zero (f : Floor) : FloorSet.has 0 f = false := BitVec.getLsbD_zero

theorem FloorSet.has_or (a b : FloorSet) (f : Floor) : FloorSet.has (a ||| b) f = (a.has f || b.has f) :=
  BitVec.getLsbD_or

theorem FloorSet.has_and (a b : FloorSet) (f : Floor) : FloorSet.has (a &&& b) f = (a.has f && b.has f) :=
  BitVec.getLsbD_and

theorem FloorSet.has_not (a : FloorSet) (f : Floor) : FloorSet.has (~~~a) f = !a.has f := by
  simp only [FloorSet.has, BitVec.getLsbD_not, f.isLt, decide_true, Bool.true_and]

theorem FloorSet.has_single (f g : Floor) : (FloorSet.single f).has g = decide (g = f) := by
  simp only [FloorSet.has, FloorSet.single, BitVec.getLsbD_ofNat, Nat.testBit_two_pow, g.isLt, decide_true,
    Bool.true_and, Fin.ext_iff, eq_comm]

theorem has_floorSetOf {f : Floor} {fs : List Floor} : (floorSetOf fs).has f = true ↔ f ∈ fs := by
  induction fs with
  | nil => simp only [floorSetOf, FloorSet.has_zero, List.not_mem_nil, Bool.false_eq_true]
  | cons g gs ih =>
    simp only [floorSetOf, FloorSet.has_or, FloorSet.has_single, Bool.or_eq_true, decide_eq_true_eq, ih, List.mem_cons]

theorem has_floorSetOf_filter {f : Floor} {p : Floor → Bool} :
    (floorSetOf (allFloors.filter p)).has f = true ↔ p f = true := by
  rw [has_floorSetOf, List.mem_filter]
  exact and_iff_right (List.mem_finRange f)

/-! ### The permitted set (R40) -/

theorem State.has_groupFloors {s : State} {f : Floor} {ns : List Byte} :
    (s.groupFloors ns).has f = true ↔ ∃ n ∈ ns, (s.group n).floors.has f = true := by
  induction ns with
  | nil => simp only [groupFloors, FloorSet.has_zero, List.not_mem_nil, Bool.false_eq_true, false_and, exists_false]
  | cons n ns ih => simp only [groupFloors, FloorSet.has_or, Bool.or_eq_true, ih, List.exists_mem_cons_iff]

theorem State.has_freeFloors {s : State} {f : Floor} : s.freeFloors.has f = true ↔ (s.floor f).kind ≠ .ordinary := by
  rw [freeFloors, has_floorSetOf_filter]
  exact decide_eq_true_iff

theorem State.has_closedFloors {s : State} {f : Floor} :
    s.closedFloors.has f = false ↔ (s.floor f).state = .isOpen := by
  rw [← Bool.not_eq_true, closedFloors, has_floorSetOf_filter]
  cases (s.floor f).state <;> simp

/-- The four steps of R40, with the admitted groups not yet spelled out. -/
theorem State.has_permitted {s : State} {r : Credential} {f : Floor} :
    (s.permitted r).has f = true ↔
      (((s.groupFloors (r.groups.filter s.admitted)).has f = true ∧
            (s.policy.tenants.get r.tenant).floors.has f = true) ∨
          (floorSetOf r.personal).has f = true ∨ s.freeFloors.has f = true) ∧ s.closedFloors.has f = false := by
  simp only [permitted, FloorSet.has_and, FloorSet.has_or, FloorSet.has_not, Bool.and_eq_true, Bool.or_eq_true,
    Bool.not_eq_true', or_assoc]

/-- Settles O33: the members of each step's set, one after the other. -/
theorem permittedSetOfACredential : Obligations.PermittedSetOfACredential := by
  intro s r f
  rw [State.has_permitted, State.has_groupFloors, has_floorSetOf, State.has_freeFloors, State.has_closedFloors,
    and_comm]
  simp only [List.mem_filter, State.admitted_iff, and_assoc]

end Sys2Proof.Machine
end

section
/-! SUPPORT and PROOF for O30 (R50 step 4, R51, R54, R55): a port after two writes, the transmitter that has nothing to
choose, the way of a good tap to the repeat filter, and what the filter does in each span. -/

namespace Sys2Proof.Machine

/-! ### Writing a port twice, and a transmitter with nothing to choose -/

@[simp] theorem State.setPort_setPort (s : State) (p : PortNo) (x y : Port) :
    (s.setPort p x).setPort p y = s.setPort p y := by
  simp [setPort, setPorts]

@[simp] theorem State.port_readerHunt_self (s : State) (p : PortNo) :
    (s.readerHunt p).port p = { s.port p with rx := [] } := s.port_setPort_self p _

/-- R166, R174: while the transmitter is in order, an event that leaves the host's side alone gives it no choice. -/
theorem State.choose_of_transmitterOk {s : State} (h : s.transmitterOk) : s.choose = s := by
  have keeps : s.host.choose = s.host := by
    unfold HostPort.choose
    split
    · next free =>
      simp only [transmitterOk, free] at h
      obtain ⟨noReply, noBusy, noReport⟩ := h
      split
      · next replying => exact absurd replying (noReply _)
      · simp [noBusy, noReport, headClass, oldestOf]
    · rfl
  simp only [choose, keeps, setHost]

/-! ### The way of a good tap to the repeat filter (R44, R50) -/

@[simp] theorem ReaderKind.ofCode_code (k : ReaderKind) : ReaderKind.ofCode k.code = some k := by cases k <;> rfl

/-- A good PRESENT reaches the port as an arrival. -/
theorem exec_present_code (s : State) (p : PortNo) (badge : Badge) (floor : Byte) (k : ReaderKind) :
    exec (.present p badge floor k.code) s = .next ((s.readerHunt p).presentArrival p badge floor k).choose := by
  have taken : exec (.present p badge floor k.code) s = execPresent p badge floor k.code s := rfl
  rw [taken, execPresent, ReaderKind.ofCode_code]
  rfl

theorem badBadge_eq_false {badge : Badge} (h0 : badge ≠ 0) (h1 : badge ≠ 4294967295) : badBadge badge = false := by
  have ne0 : badge.toNat ≠ 0 := fun e => h0 (BitVec.eq_of_toNat_eq e)
  have ne1 : badge.toNat ≠ 4294967295 := fun e => h1 (BitVec.eq_of_toNat_eq e)
  simp [badBadge, ne0, ne1]

/-- R50 step 3: the floor as it enters the filter is absent at a gate and for byte 255, else the floor named. -/
theorem requestedFloor_eq_some {k : ReaderKind} {floor : Byte} {want : Option Floor}
    (absent : want = none ↔ k = .gate ∨ floor = 255) (named : ∀ f, want = some f → f.val = floor.toNat) :
    requestedFloor k floor = some want := by
  cases k with
  | gate => simp [requestedFloor, absent.2 (.inl rfl)]
  | kiosk =>
    by_cases none255 : floor = 255
    · rw [absent.2 (.inr none255)]
      exact if_pos none255
    · cases want with
      | none => exact (absent.1 rfl).elim (fun gate => nomatch gate) fun h => absurd h none255
      | some f =>
        have found : floorOf floor.toNat = some f := by simp [floorOf, ← named f rfl]
        simp only [requestedFloor, if_neg none255, found, Option.map_some]

theorem State.presentIdle_of_checked {s : State} {p : PortNo} {badge : Badge} {floor : Byte} {want : Option Floor}
    (good : badBadge badge = false) (floorGood : requestedFloor (s.reader p).kind floor = some want) :
    s.presentIdle p badge floor (s.reader p).kind = s.repeatFilter p badge want := by
  simp [presentIdle, good, floorGood]

theorem State.presentArrival_idle {s : State} {p : PortNo} (running : s.part.state = .running)
    (noAnswer : (s.port p).shifter = none) (idle : (s.port p).state = .idle) (badge : Badge) (floor : Byte)
    (k : ReaderKind) : s.presentArrival p badge floor k = s.presentIdle p badge floor k := by
  simp [presentArrival, State.running, running, noAnswer, idle]

/-- R50: a tap that passes the checks of an IDLE port is left to the repeat filter. -/
theorem exec_present_of_checked {s : State} {p : PortNo} {badge : Badge} {floor : Byte} {want : Option Floor}
    (running : s.part.state = .running) (tx : s.transmitterOk) (noAnswer : (s.port p).shifter = none)
    (idle : (s.port p).state = .idle) (good : badBadge badge = false)
    (floorGood : requestedFloor (s.reader p).kind floor = some want) :
    exec (.present p badge floor (s.reader p).kind.code) s = .next ((s.readerHunt p).repeatFilter p badge want) := by
  have arrival : (s.readerHunt p).presentArrival p badge floor (s.reader p).kind =
      (s.readerHunt p).repeatFilter p badge want := by
    rw [State.presentArrival_idle (by simpa using running) (by simpa using noAnswer) (by simpa using idle)]
    exact State.presentIdle_of_checked good floorGood
  have sameHost : ((s.readerHunt p).repeatFilter p badge want).host = s.host :=
    State.repeatFilter_only (s.readerHunt p) p badge want .host (by decide)
  rw [exec_present_code, arrival, State.choose_of_transmitterOk]
  unfold State.transmitterOk at tx ⊢
  rwa [sameHost]

/-! ### What the filter does (R54, R55) -/

section
variable {s : State} {p : PortNo} {badge : Badge} {want : Option Floor} {m : GrantMemory}

theorem State.repeatFilter_noMemory (h : (s.port p).memory = none) :
    s.repeatFilter p badge want = s.enterSlot p badge want none := by
  simp only [repeatFilter, h]

theorem State.repeatFilter_otherBadge (h : (s.port p).memory = some m) (other : m.badge ≠ badge) :
    s.repeatFilter p badge want = s.enterSlot p badge want none := by
  simp only [repeatFilter, h, if_pos other]

theorem State.repeatFilter_quietSpan (h : (s.port p).memory = some m) (same : m.badge = badge)
    (quiet : elapsed s.now m.time < 10) : s.repeatFilter p badge want = s.answerTap p (s.repeatGrant m) := by
  simp only [repeatFilter, h, if_neg (not_not.2 same), if_pos quiet]

theorem State.repeatFilter_hold (h : (s.port p).memory = some m) (same : m.badge = badge)
    (late : 10 ≤ elapsed s.now m.time) (held : elapsed s.now m.time < 10 * (s.reader p).holdTime) :
    s.repeatFilter p badge want =
      if want = none ∨ want = some m.dest then s.answerTap p (s.repeatGrant m)
      else s.enterSlot p badge want (some m.booking) := by
  simp only [repeatFilter, h, if_neg (not_not.2 same), if_neg (Nat.not_lt.2 late), if_pos held]

theorem State.repeatFilter_pastHold (h : (s.port p).memory = some m) (same : m.badge = badge)
    (late : 10 ≤ elapsed s.now m.time) (past : 10 * (s.reader p).holdTime ≤ elapsed s.now m.time) :
    s.repeatFilter p badge want = s.enterSlot p badge want none := by
  simp only [repeatFilter, h, if_neg (not_not.2 same), if_neg (Nat.not_lt.2 late), if_neg (Nat.not_lt.2 past)]

end

/-! ### The port after the frame and the filter -/

theorem State.enterSlot_readerHunt (s : State) (p : PortNo) (badge : Badge) (want : Option Floor) (sup : Option Nat) :
    (s.readerHunt p).enterSlot p badge want sup =
      s.setPort p
        { s.port p with
          rx := [], state := .pending,
          slot := some { pres := { port := p, badge := badge, floor := want, supersedes := sup, arrival := s.now },
                         taken := false } } := by
  rw [enterSlot, port_readerHunt_self]
  exact s.setPort_setPort p _ _

theorem State.answerTap_readerHunt {s : State} {p : PortNo} (noAnswer : (s.port p).shifter = none) (a : Answer) :
    (s.readerHunt p).answerTap p a =
      s.setPort p { s.port p with rx := [], state := .answering, shifter := some a } := by
  rw [answerTap, port_readerHunt_self, readerHunt, setPort_setPort]
  simp [Port.send, noAnswer]

/-- Settles O30: the tap reaches the filter, and each span of the filter names what it does. -/
theorem repeatFilterDecidesTheTap : Obligations.RepeatFilterDecidesTheTap := by
  rintro s p badge floor _ want running tx noAnswer idle rfl badge0 badge1 absent named grantAgain enter
  have filtered : exec (.present p badge floor (s.reader p).kind.code) s =
      .next ((s.readerHunt p).repeatFilter p badge want) :=
    exec_present_of_checked running tx noAnswer idle (badBadge_eq_false badge0 badge1)
      (requestedFloor_eq_some absent named)
  have enters (sup : Option Nat) : (s.readerHunt p).enterSlot p badge want sup = enter sup :=
    s.enterSlot_readerHunt p badge want sup
  have grants (m : GrantMemory) :
      (s.readerHunt p).answerTap p ((s.readerHunt p).repeatGrant m) = grantAgain m :=
    State.answerTap_readerHunt noAnswer _
  rw [filtered]
  refine ⟨fun empty => ?noMemory, fun m memory => ?remembered⟩
  case noMemory => rw [State.repeatFilter_noMemory (by simpa using empty), enters]
  case remembered =>
    have memory' : ((s.readerHunt p).port p).memory = some m := by simpa using memory
    refine ⟨fun other => ?_, fun same quiet => ?_, fun same late held sameFloor => ?_,
      fun same late held asked other => ?_, fun same late past => ?_⟩
    · rw [State.repeatFilter_otherBadge memory' other, enters]
    · rw [State.repeatFilter_quietSpan memory' same quiet, grants]
    · rw [State.repeatFilter_hold memory' same late held, if_pos sameFloor, grants]
    · rw [State.repeatFilter_hold memory' same late held, if_neg (not_or.2 ⟨asked, other⟩), enters]
    · rw [State.repeatFilter_pastHold memory' same late past, enters]

end Sys2Proof.Machine
end

section
/-! SUPPORT and PROOF for O31 (R47, R48): the port at the last byte of its answer. -/

namespace Sys2Proof.Machine

theorem exec_replyShifterDone {s : State} {p : PortNo} (sending : (s.port p).shifter ≠ none) :
    exec (.replyShifterDone p) s = .next (s.setPort p (s.port p).shifterDone) :=
  if_pos (Option.isSome_iff_ne_none.2 sending)

/-- With nothing left to send, an ANSWERING port becomes IDLE or takes the state that its reload mark holds. -/
theorem Port.shifterDone_answered {x : Port} (answering : x.state = .answering) (empty : x.buffer = none) :
    x.shifterDone = { x with shifter := none, state := (x.reload.map heldState).getD .idle, reload := none } := by
  simp [shifterDone, settle, answering, empty]

theorem Port.shifterDone_stays {x : Port} (h : x.state ≠ .answering ∨ x.buffer ≠ none) :
    x.shifterDone = { x with shifter := x.buffer, buffer := none } := if_neg (not_and_or.2 h)

/-- Settles O31: the shifter's end by what is left to send, then by the reload mark. -/
theorem shifterDoneMovesTheBufferUp : Obligations.ShifterDoneMovesTheBufferUp := by
  intro s p sending
  rw [exec_replyShifterDone sending]
  refine ⟨fun answering empty unmarked => ?idle, fun e answering empty marked => ?held, fun stays => ?stays⟩
  case idle => simp [Port.shifterDone_answered answering empty, unmarked]
  case held => simp [Port.shifterDone_answered answering empty, marked, heldState]
  case stays => rw [Port.shifterDone_stays stays]

end Sys2Proof.Machine
end

section
/-! SUPPORT and PROOF for O34 (R56, R59, R61, R63): the order in which the engine looks at the ports, the taking, and a
decision that hands the presentation back. -/

namespace Sys2Proof.Machine

/-! ### The first candidate after the pointer (R61) -/

theorem Port.candidate_iff {x : Port} :
    x.candidate = true ↔ x.state = .pending ∧ ∃ y, x.slot = some y ∧ y.taken = false := by
  cases h : x.slot <;> simp [candidate, h]

theorem Port.candidate_eq_false {x : Port} (h : ∀ y, x.state = .pending → x.slot = some y → y.taken = true) :
    x.candidate = false := by
  refine Bool.eq_false_iff.2 fun candidate => ?_
  obtain ⟨pending, y, filled, untaken⟩ := Port.candidate_iff.1 candidate
  exact Bool.false_ne_true (untaken.symm.trans (h y pending filled))

@[simp] theorem length_portOrder (pointer : PortNo) : (portOrder pointer).length = 16 := by simp [portOrder]

/-- After port 15 comes port 0. -/
theorem portOrder_getElem_val (pointer : PortNo) {i : Nat} (h : i < (portOrder pointer).length) :
    (portOrder pointer)[i].val = (pointer.val + 1 + i) % 16 := by
  simp [portOrder, Fin.val_add]

theorem State.nextPort_eq_none {s : State} (h : ∀ p, (s.port p).candidate = false) : s.nextPort = none :=
  List.find?_eq_none.2 fun p _ => by simp [h p]

theorem State.nextPort_eq_some {s : State} {p : PortNo} {i : Nat} (hi : i < 16)
    (place : p.val = (s.engine.pointer.val + 1 + i) % 16) (candidate : (s.port p).candidate = true)
    (before : ∀ j < i, ∀ q : PortNo, q.val = (s.engine.pointer.val + 1 + j) % 16 → (s.port q).candidate = false) :
    s.nextPort = some p := by
  refine List.find?_eq_some_iff_getElem.2 ⟨candidate, i, by simpa using hi, ?_, fun j hj => ?_⟩
  · exact Fin.ext ((portOrder_getElem_val _ _).trans place.symm)
  · simp [before j hj _ (portOrder_getElem_val _ _)]

/-! ### The taking (R61) -/

theorem exec_presentationTaking_busy {s : State} (h : s.engine.inHand ≠ none) :
    exec .presentationTaking s = .next s :=
  if_neg fun idle => h idle.2

theorem exec_presentationTaking_idle {s : State} (running : s.part.state = .running) (idle : s.engine.inHand = none) :
    exec .presentationTaking s = .next ((s.nextPort.map s.takeFrom).getD s) := by
  have takes : exec .presentationTaking s = execPresentationTaking s := rfl
  rw [takes, execPresentationTaking, if_pos ⟨decide_eq_true running, idle⟩]
  cases s.nextPort <;> rfl

theorem State.takeFrom_of_slot {s : State} {p : PortNo} {x : Slot} (filled : (s.port p).slot = some x) :
    s.takeFrom p =
      (s.setPort p { s.port p with slot := some { x with taken := true } }).setEngine
        { inHand := some x.pres, entryCopy := some ((s.reader p).home, (s.reader p).banks), pointer := p } := by
  simp [takeFrom, Port.take, filled]

/-! ### The close of an event that left every car as it was (R83, R139) -/

@[simp] theorem State.setCar_car (s : State) (b : Bank) (c : CarNo) : s.setCar b c (s.car b c) = s := by
  simp [setCar, car, setDisp, Vector.get_eq_getElem]

@[simp] theorem State.setLine_line (s : State) (l : Bank) : s.setLine l (s.line l) = s := by
  simp [setLine, line, setLines, Vector.get_eq_getElem]

@[simp] theorem Car.closeGeneration_self (c : Car) : c.closeGeneration c = c := by simp [closeGeneration]

@[simp] theorem Line.notice_same (l : Line) (c : CarNo) (was : Bool) : l.notice c was was = l := if_pos rfl

theorem State.closeCars_of_cars_eq {s0 s : State} (same : ∀ b c, s.car b c = s0.car b c) : s0.closeCars s = s :=
  List.foldl_fixed' (fun _ => by simp [closeCar, ← same]) _

/-! ### A decision that meets the page under program (R56, R59, R63) -/

theorem State.transmitterOk_congr {s t : State} (h : t.host = s.host) : t.transmitterOk ↔ s.transmitterOk := by
  simp only [transmitterOk, h]

theorem exec_decisionMoment_inHand {s : State} {x : Presentation} {home : Floor} {banks : BankSet}
    (hand : s.engine.inHand = some x) (entry : s.engine.entryCopy = some (home, banks)) :
    exec .decisionMoment s = .next ((s.closeCars (s.decide x home banks)).engineIdle).choose := by
  have decides : exec .decisionMoment s = execDecisionMoment s := rfl
  rw [decides, execDecisionMoment, hand, entry]

theorem State.decide_inProgram {s : State} {x : Presentation} (h : s.store.lookup x.badge = .inProgram) (home : Floor)
    (banks : BankSet) : s.decide x home banks = s.setPort x.port ((s.port x.port).handBack x) := by
  simp [decide, identify, h]

theorem exec_decisionMoment_inProgram {s : State} {x : Presentation} {home : Floor} {banks : BankSet}
    (hand : s.engine.inHand = some x) (entry : s.engine.entryCopy = some (home, banks))
    (inProgram : s.store.lookup x.badge = .inProgram) (tx : s.transmitterOk) :
    exec .decisionMoment s = .next (s.setPort x.port ((s.port x.port).handBack x)).engineIdle := by
  rw [exec_decisionMoment_inHand hand entry, State.decide_inProgram inProgram,
    State.closeCars_of_cars_eq (by simp), State.choose_of_transmitterOk]
  exact (State.transmitterOk_congr (by simp)).2 tx

/-- Settles O34: the taking by whether the engine is idle and a port is a candidate, then the hand-back. -/
theorem engineTakesAndDefers : Obligations.EngineTakesAndDefers := by
  refine ⟨fun s => exec_presentationTaking_busy, fun s running idle => ⟨fun allTaken => ?nothing, ?first⟩,
    fun s x home banks hand entry inProgram tx => ?handedBack⟩
  case nothing =>
    have nobody : s.nextPort = none := State.nextPort_eq_none fun p => Port.candidate_eq_false (allTaken p)
    simp [exec_presentationTaking_idle running idle, nobody]
  case first =>
    intro i p x hi place pending filled untaken before
    have found : s.nextPort = some p :=
      State.nextPort_eq_some hi place (Port.candidate_iff.2 ⟨pending, x, filled, untaken⟩)
        fun j hj q hq => Port.candidate_eq_false (before j hj q hq)
    simp [exec_presentationTaking_idle running idle, found, State.takeFrom_of_slot filled]
  case handedBack =>
    rw [exec_decisionMoment_inProgram hand entry inProgram tx]
    cases mark : (s.port x.port).reload <;> simp [Port.handBack, mark, State.engineIdle, heldState]

end Sys2Proof.Machine
end

section
/-! SUPPORT and PROOF for O38 (R102 to R111): the sweep order and the path as the spec counts them, the lane's exclusion
and its four terms, and the first of the lowest costs. -/

namespace Sys2Proof.Machine

/-! ### The sweep order by phase and place (R82, R105) -/

/-- The place of a key within its phase. -/
def Key.place (k : Key) : Nat := if k.dir = .up then k.floor.val else 127 - k.floor.val

theorem Key.place_lt (k : Key) : k.place < 128 := by
  unfold place
  split <;> omega

theorem sweepRank_eq (r : Dir) (p : Floor) (k : Key) : sweepRank r p k = 128 * sweepPhase r p k + k.place := by
  obtain ⟨f, dir⟩ := k
  match r, dir with
  | .up, .down | .down, .up => simp [sweepRank, sweepPhase, Key.place]
  | .up, .up | .down, .down =>
    simp only [sweepRank, sweepPhase, Key.place]
    split <;> simp_all

theorem Dir.eq_of_eq_iff_eq {r a b : Dir} (h : a = r ↔ b = r) : a = b := by
  match a, b with
  | .up, .up | .down, .down => rfl
  | .up, .down | .down, .up => cases r <;> simp at h

theorem dir_eq_iff_sweepPhase {r : Dir} {p : Floor} {k : Key} : k.dir = r ↔ sweepPhase r p k ≠ 1 := by
  unfold sweepPhase
  split_ifs <;> simp_all

/-- Keys of one phase run in one direction. -/
theorem dir_eq_of_sweepPhase_eq {r : Dir} {p : Floor} {d e : Key} (same : sweepPhase r p d = sweepPhase r p e) :
    d.dir = e.dir := by
  have together : d.dir = r ↔ e.dir = r := by simp only [dir_eq_iff_sweepPhase (p := p), same]
  exact Dir.eq_of_eq_iff_eq together

theorem Key.place_lt_place_iff {d e : Key} (same : d.dir = e.dir) :
    d.place < e.place ↔ if d.dir = .up then d.floor < e.floor else e.floor < d.floor := by
  simp only [place, ← same, Fin.lt_def]
  split <;> omega

theorem sweepRank_lt_iff {r : Dir} {p : Floor} {d e : Key} :
    sweepRank r p d < sweepRank r p e ↔ sweepBefore r p d e := by
  have hd := d.place_lt
  have he := e.place_lt
  rw [sweepRank_eq, sweepRank_eq]
  by_cases same : sweepPhase r p d = sweepPhase r p e
  · rw [sweepBefore, ← Key.place_lt_place_iff (dir_eq_of_sweepPhase_eq same)]
    omega
  · simp only [sweepBefore, same, false_and, or_false]
    omega

/-! ### The terms of a lane (R106 to R110) -/

theorem floorGap_eq (a b : Floor) : floorGap a b = max a.val b.val - min a.val b.val := by
  unfold floorGap
  omega

theorem pathLength_eq_sum (p : Floor) (fs : List Floor) (o : Floor) :
    let path := p.val :: fs.map Fin.val ++ [o.val]
    pathLength p fs o = ((path.zip path.tail).map fun x => max x.1 x.2 - min x.1 x.2).sum := by
  induction fs generalizing p with
  | nil => simp [pathLength, floorGap_eq]
  | cons f fs ih => simpa [pathLength, floorGap_eq] using ih f

theorem unitsOf_eq_sum (ks : List Booking) : unitsOf ks = (ks.map fun k => k.units).sum := by
  induction ks with
  | nil => rfl
  | cons k ks ih => simp [unitsOf, ih]

theorem Car.standsOpen_iff {c : Car} {k : Key} :
    c.standsOpen k = true ↔ ∃ st, c.status = some st ∧ st.position = k.floor ∧
      (st.doors = .opening ∨ st.doors = .opened) ∧ (st.direction = some k.dir ∨ st.direction = none) := by
  cases reported : c.status <;> simp [standsOpen, reported, and_assoc]

theorem waitTerm_of_standsOpen {r : BankRec} {c : Car} {t : Trip} (h : c.standsOpen t.pickupKey = true) :
    waitTerm r c t = 0 := if_pos h

theorem Car.entriesBefore_eq (c : Car) (k : Key) :
    c.entriesBefore k = c.stops.filter fun e => sweepBefore c.refDir c.refPos e.key k := by
  simp only [entriesBefore, sweepRank_lt_iff]

theorem between_iff {o d f : Floor} : between o d f = true ↔ (o < f ∧ f < d) ∨ (d < f ∧ f < o) := by
  simp [between]

/-- R106: the travel over the entries ranked before the origin's key, and their stops. -/
theorem waitTerm_of_not_standsOpen {r : BankRec} {c : Car} {t : Trip} (h : c.standsOpen t.pickupKey = false) :
    let before := (c.stops.filter fun e => sweepBefore c.refDir c.refPos e.key t.pickupKey).map fun e => e.key.floor.val
    let path := c.refPos.val :: before ++ [t.origin.val]
    let travel := ((path.zip path.tail).map fun x => max x.1 x.2 - min x.1 x.2).sum
    waitTerm r c t =
      min 65534 (min 65534 (travel * r.floorTime) + min 65534 (before.length * r.stopTime)) := by
  have floors : ((c.entriesBefore t.pickupKey).map fun e => e.key.floor).map Fin.val =
      (c.entriesBefore t.pickupKey).map fun e => e.key.floor.val := List.map_map
  simp only [waitTerm, h, Bool.false_eq_true, if_false, pathLength_eq_sum, floors, ← Car.entriesBefore_eq,
    List.length_map]
  rfl

/-- R108: the ride, and the stops on its way. -/
theorem rideTerm_eq (r : BankRec) (c : Car) (t : Trip) :
    let onWay := (c.stops.filter fun e => e.key.dir = t.dir ∧
      ((t.origin < e.key.floor ∧ e.key.floor < t.dest) ∨ (t.dest < e.key.floor ∧ e.key.floor < t.origin))).length
    rideTerm r c t =
      min 65534 (min 65534 ((max t.origin.val t.dest.val - min t.origin.val t.dest.val) * r.floorTime) +
        min 65534 (onWay * r.stopTime)) := by
  simp only [rideTerm, floorGap_eq, ← between_iff, Bool.decide_and, Bool.decide_eq_true]
  rfl

theorem State.laneCost_le (s : State) (b : Bank) (t : Trip) (c : CarNo) : s.laneCost b t c ≤ 65534 := min_le_left _ _

theorem State.lane_of_excluded {s : State} {b : Bank} {t : Trip} {c : CarNo} (h : s.laneExcluded b t c = true) :
    s.lane b t c = 65535 := if_pos h

theorem State.lane_of_included {s : State} {b : Bank} {t : Trip} {c : CarNo} (h : s.laneExcluded b t c = false) :
    s.lane b t c = s.laneCost b t c := if_neg (Bool.eq_false_iff.1 h)

theorem State.lane_eq_excluded_iff {s : State} {b : Bank} {t : Trip} {c : CarNo} :
    s.lane b t c = 65535 ↔ s.laneExcluded b t c = true := by
  cases h : s.laneExcluded b t c
  case true => simp [State.lane_of_excluded h]
  case false =>
    have := s.laneCost_le b t c
    simp only [State.lane_of_included h, Bool.false_eq_true, iff_false]
    omega

/-- An included lane never reads as EXCLUDED. -/
theorem State.lane_le_of_ne {s : State} {b : Bank} {t : Trip} {c : CarNo} (h : s.lane b t c ≠ 65535) :
    s.lane b t c ≤ 65534 := by
  rw [State.lane_of_included (Bool.eq_false_iff.2 fun ex => h (State.lane_of_excluded ex))]
  exact s.laneCost_le b t c

/-! ### Exclusion (R103, R104) -/

/-- The destinations counted against the trip stop cap, in whatever order they are listed (R104). -/
theorem State.capExcludes_iff {s : State} {b : Bank} {c : CarNo} {t : Trip} :
    s.capExcludes b c t = true ↔ s.mode b = some .upPeak ∧ (s.floor t.origin).kind = .lobby ∧
      (s.bank b).tripCap < (t.dest :: (s.disp.bookings.filter fun k =>
        k.bank = b ∧ k.car = c ∧ k.state = .waiting ∧ k.origin = t.origin).map fun k => k.dest).dedup.length := by
  have order : ∀ fs : List Floor, (fs ++ [t.dest]).dedup.length = (t.dest :: fs).dedup.length := fun fs =>
    (List.perm_append_singleton t.dest fs).dedup.length_eq
  have same : (s.carBookings b c).filter (fun k => k.state = .waiting ∧ k.origin = t.origin) =
      s.disp.bookings.filter fun k => k.bank = b ∧ k.car = c ∧ k.state = .waiting ∧ k.origin = t.origin := by
    simp only [carBookings, List.filter_filter, Bool.decide_and, Bool.and_assoc, Bool.and_comm, Bool.and_left_comm]
  simp only [capExcludes, order, same, Bool.and_eq_true, decide_eq_true_eq, and_assoc]

theorem State.laneExcluded_iff {s : State} {b : Bank} {t : Trip} {c : CarNo} :
    s.laneExcluded b t c = true ↔
      (s.car b c).service ≠ .inService ∨ (s.car b c).full = true ∨ (s.bank b).capacity < s.committed b c + t.units ∨
        24 < s.budget b c t ∨ s.capExcludes b c t = true ∨ s.serves b t.origin = false ∨ s.serves b t.dest = false := by
  simp only [laneExcluded, Bool.or_eq_true, decide_eq_true_eq, Bool.not_eq_true', or_assoc]
  rfl

/-! ### The first of the lowest costs (R111, R112, R113) -/

theorem lowestCost_eq_none_iff {α : Type} {xs : List (α × Nat)} : lowestCost xs = none ↔ xs = [] := by
  cases xs with
  | nil => simp [lowestCost]
  | cons x xs =>
    unfold lowestCost
    split
    · simp
    · split <;> simp

/-- No candidate costs less, and those that cost the same stand later in the order of the list. -/
theorem lowestCost_le {α : Type} {r : α → α → Prop} (self : ∀ a, r a a) {xs : List (α × Nat)}
    (sorted : xs.Pairwise fun x y => r x.1 y.1) {x y : α × Nat} (found : lowestCost xs = some x) (hy : y ∈ xs) :
    x.2 ≤ y.2 ∧ (x.2 = y.2 → r x.1 y.1) := by
  induction xs generalizing x with
  | nil => cases hy
  | cons z zs ih =>
    obtain ⟨first, later⟩ := List.pairwise_cons.1 sorted
    unfold lowestCost at found
    split at found
    next alone =>
      cases found
      rw [lowestCost_eq_none_iff.1 alone, List.mem_singleton] at hy
      exact hy ▸ ⟨le_rfl, fun _ => self _⟩
    next w rest =>
      obtain rfl | hy := List.mem_cons.1 hy
      · split at found <;> cases found
        · exact ⟨by omega, by omega⟩
        · exact ⟨le_rfl, fun _ => self _⟩
      · have least := ih later rest hy
        split at found <;> cases found
        · exact least
        · exact ⟨by omega, fun _ => first y hy⟩

/-! ### One evaluation (R111) -/

theorem State.evaluate_eq_none_iff {s : State} {b : Bank} {t : Trip} :
    s.evaluate b t = none ↔ ∀ c, s.lane b t c = 65535 := by
  simp [evaluate, lowestCost_eq_none_iff, lane_eq_excluded_iff, allCars]

theorem State.evaluate_some {s : State} {b : Bank} {t : Trip} {c : CarNo} {n : Nat}
    (winner : s.evaluate b t = some (c, n)) :
    n = s.lane b t c ∧ n ≤ 65534 ∧ (∀ h, n ≤ s.lane b t h) ∧ ∀ h, h < c → n < s.lane b t h := by
  obtain ⟨d, included, same⟩ := List.mem_map.1 (lowestCost_mem winner)
  obtain ⟨rfl, rfl⟩ := Prod.mk.inj same
  have isIn : s.laneExcluded b t d = false := by simpa using (List.mem_filter.1 included).2
  have bound : s.lane b t d ≤ 65534 := State.lane_of_included isIn ▸ s.laneCost_le b t d
  have rising : ((allCars.filter fun c => !s.laneExcluded b t c).map fun c => (c, s.lane b t c)).Pairwise
      fun x y => x.1 ≤ y.1 :=
    List.pairwise_map.2 (((List.pairwise_lt_finRange 8).imp le_of_lt).filter _)
  have least : ∀ h, s.lane b t d ≤ s.lane b t h ∧ (s.lane b t d = s.lane b t h → d ≤ h) := fun h => by
    cases ex : s.laneExcluded b t h
    case true =>
      rw [State.lane_of_excluded ex]
      omega
    case false =>
      exact lowestCost_le le_refl rising winner
        (List.mem_map_of_mem (List.mem_filter.2 ⟨List.mem_finRange h, by simp [ex]⟩))
  refine ⟨rfl, bound, fun h => (least h).1, fun h lower => ?_⟩
  exact (least h).1.lt_of_ne fun tie => ((least h).2 tie).not_gt lower

/-- Settles O38: the exclusion, the cost of an included lane by whether the car stands open, and the winner. -/
theorem lanesAndTheWinningCar : Obligations.LanesAndTheWinningCar := by
  refine ⟨fun s b t c => ⟨?excluded, State.lane_le_of_ne⟩, fun s b t c included => ?cost, fun s b t => ?winner⟩
  case excluded =>
    rw [State.lane_eq_excluded_iff, State.laneExcluded_iff, State.capExcludes_iff]
    rfl
  case cost =>
    have isIn : s.laneExcluded b t c = false := Bool.eq_false_iff.2 fun ex => included (State.lane_of_excluded ex)
    have units : s.committed b c = ((s.carBookings b c).map fun k => k.units).sum := unitsOf_eq_sum _
    have opens_iff := Car.standsOpen_iff (c := s.car b c) (k := t.pickupKey)
    rw [State.lane_of_included isIn, State.laneCost, rideTerm_eq, units]
    refine ⟨fun opens => ?_, fun shut => ?_⟩
    · rw [waitTerm_of_standsOpen (opens_iff.2 opens)]
      rfl
    · rw [waitTerm_of_not_standsOpen (Bool.eq_false_iff.2 fun opens => shut (opens_iff.1 opens))]
      rfl
  case winner =>
    cases found : s.evaluate b t with
    | none => exact State.evaluate_eq_none_iff.1 found
    | some x => exact State.evaluate_some found

end Sys2Proof.Machine
end

section
/-! SUPPORT and PROOF for O39 (R68 to R73, R112, R113): the choice among costed candidates, and each of steps 7 to 13 in
the spec's terms. -/

namespace Sys2Proof.Machine

/-! ### The choice of step 13 (R112, R113) -/

theorem State.chooseCar_eq_none_iff {s : State} {home d : Floor} {units : Nat} {q : Route} :
    s.chooseCar home d units q = none ↔ s.costed home d units q = [] := by
  simp [chooseCar, lowestCost_eq_none_iff]

theorem State.chooseCar_direct_eq_none_iff {s : State} {home d : Floor} {units : Nat} {bs : List Bank} :
    s.chooseCar home d units (.direct bs) = none ↔
      ∀ b ∈ bs, s.evaluate b { origin := home, dest := d, units := units } = none := by
  simp [chooseCar_eq_none_iff, costed, List.filterMap_eq_nil_iff]

theorem State.chooseCar_transfer_eq_none_iff {s : State} {home d : Floor} {units : Nat} {ps : List (Bank × Floor)} :
    s.chooseCar home d units (.transfer ps) = none ↔
      ∀ p ∈ ps, s.evaluate p.1 { origin := home, dest := p.2, units := units } = none := by
  simp [chooseCar_eq_none_iff, costed, List.filterMap_eq_nil_iff]

theorem State.mem_costed_direct {s : State} {home d : Floor} {units n : Nat} {bs : List Bank} {x : Choice} :
    (x, n) ∈ s.costed home d units (.direct bs) ↔
      x.transfer = none ∧ x.bank ∈ bs ∧
        s.evaluate x.bank { origin := home, dest := d, units := units } = some (x.car, n) := by
  obtain ⟨bank, car, transfer⟩ := x
  simp [costed, and_left_comm, eq_comm]

theorem State.mem_costed_transfer {s : State} {home d : Floor} {units n : Nat} {ps : List (Bank × Floor)}
    {x : Choice} :
    (x, n) ∈ s.costed home d units (.transfer ps) ↔
      ∃ t, x.transfer = some t ∧ (x.bank, t) ∈ ps ∧
        s.evaluate x.bank { origin := home, dest := t, units := units } = some (x.car, n) := by
  obtain ⟨bank, car, transfer⟩ := x
  simp [costed, and_left_comm, eq_comm]

/-- The order in which ties between transfer pairs are settled: the lower bank, then the lower floor (R113). -/
def Choice.pairLe (x y : Choice) : Prop :=
  ∀ t u, x.transfer = some t → y.transfer = some u → x.bank < y.bank ∨ (x.bank = y.bank ∧ t ≤ u)

theorem Choice.pairLe_refl (x : Choice) : x.pairLe x := fun _ _ ht hu =>
  .inr ⟨rfl, (Option.some.inj (ht.symm.trans hu)).le⟩

theorem State.costed_direct_sorted {s : State} {home d : Floor} {units : Nat} {bs : List Bank}
    (rising : bs.Pairwise (· < ·)) :
    (s.costed home d units (.direct bs)).Pairwise fun x y => x.1.bank ≤ y.1.bank := by
  refine List.pairwise_filterMap.2 (rising.imp fun {a b} lower x hx y hy => ?_)
  obtain ⟨_, _, rfl⟩ := Option.map_eq_some_iff.1 hx
  obtain ⟨_, _, rfl⟩ := Option.map_eq_some_iff.1 hy
  exact lower.le

theorem State.costed_transfer_sorted {s : State} {home d : Floor} {units : Nat} {ps : List (Bank × Floor)}
    (rising : ps.Pairwise fun p q => p.1 < q.1 ∨ (p.1 = q.1 ∧ p.2 < q.2)) :
    (s.costed home d units (.transfer ps)).Pairwise fun x y => x.1.pairLe y.1 := by
  refine List.pairwise_filterMap.2 (rising.imp fun {p q} lower x hx y hy t u ht hu => ?_)
  obtain ⟨_, _, rfl⟩ := Option.map_eq_some_iff.1 hx
  obtain ⟨_, _, rfl⟩ := Option.map_eq_some_iff.1 hy
  cases ht
  cases hu
  exact lower.imp_right fun tie => tie.imp_right le_of_lt

theorem State.chooseCar_direct_some {s : State} {home d : Floor} {units : Nat} {bs : List Bank} {x : Choice}
    (rising : bs.Pairwise (· < ·)) (chosen : s.chooseCar home d units (.direct bs) = some x) :
    x.transfer = none ∧ x.bank ∈ bs ∧ ∃ n,
      s.evaluate x.bank { origin := home, dest := d, units := units } = some (x.car, n) ∧
      ∀ b ∈ bs, ∀ c m, s.evaluate b { origin := home, dest := d, units := units } = some (c, m) →
        n ≤ m ∧ (n = m → x.bank ≤ b) := by
  obtain ⟨⟨_, n⟩, lowest, rfl⟩ := Option.map_eq_some_iff.1 chosen
  obtain ⟨direct, listed, won⟩ := State.mem_costed_direct.1 (lowestCost_mem lowest)
  refine ⟨direct, listed, n, won, fun b hb c m hm => ?_⟩
  exact lowestCost_le (r := fun x y : Choice => x.bank ≤ y.bank) (fun _ => le_rfl)
    (State.costed_direct_sorted rising) lowest
    (State.mem_costed_direct (x := { bank := b, car := c, transfer := none }).2 ⟨rfl, hb, hm⟩)

theorem State.chooseCar_transfer_some {s : State} {home d : Floor} {units : Nat} {ps : List (Bank × Floor)}
    {x : Choice} (rising : ps.Pairwise fun p q => p.1 < q.1 ∨ (p.1 = q.1 ∧ p.2 < q.2))
    (chosen : s.chooseCar home d units (.transfer ps) = some x) :
    ∃ t, x.transfer = some t ∧ (x.bank, t) ∈ ps ∧ ∃ n,
      s.evaluate x.bank { origin := home, dest := t, units := units } = some (x.car, n) ∧
      ∀ p ∈ ps, ∀ c m, s.evaluate p.1 { origin := home, dest := p.2, units := units } = some (c, m) →
        n ≤ m ∧ (n = m → x.bank < p.1 ∨ (x.bank = p.1 ∧ t ≤ p.2)) := by
  obtain ⟨⟨_, n⟩, lowest, rfl⟩ := Option.map_eq_some_iff.1 chosen
  obtain ⟨t, via, listed, won⟩ := State.mem_costed_transfer.1 (lowestCost_mem lowest)
  refine ⟨t, via, listed, n, won, fun p hp c m hm => ?_⟩
  have least := lowestCost_le Choice.pairLe_refl (State.costed_transfer_sorted rising) lowest
    (State.mem_costed_transfer (x := { bank := p.1, car := c, transfer := some p.2 }).2 ⟨p.2, rfl, hp, hm⟩)
  exact ⟨least.1, fun tie => least.2 tie t p.2 via rfl⟩

/-! ### Candidates, routes and the mode filter (R69 to R71) -/

theorem State.mem_entryBanks {s : State} {home : Floor} {banks : BankSet} {b : Bank} :
    b ∈ s.entryBanks home banks ↔ s.enters home banks b := by
  simp [entryBanks, enters, effective, allBanks]

theorem State.mem_directBanks {s : State} {home d : Floor} {banks : BankSet} {b : Bank} :
    b ∈ s.directBanks home banks d ↔ s.direct home banks d b := by
  simp [directBanks, direct, mem_entryBanks]

theorem State.mem_onwardBanks {s : State} {t d : Floor} {b : Bank} : b ∈ s.onwardBanks t d ↔ s.onwardTo t d b := by
  simp [onwardBanks, onwardTo, allBanks]

theorem State.mem_transferPairs {s : State} {home d : Floor} {banks : BankSet} {p : Bank × Floor} :
    p ∈ s.transferPairs home banks d ↔ s.transferPair home banks d p.1 p.2 := by
  obtain ⟨b, t⟩ := p
  have onward : s.onwardBanks t d ≠ [] ↔ ∃ h, s.onwardTo t d h := by
    simp [onwardBanks, onwardTo, allBanks]
  simp [transferPairs, transferPair, transferAt, mem_entryBanks, allFloors, onward, and_assoc]

theorem State.passes_iff {s : State} {r : Credential} {b : Bank} :
    s.passes (s.overrideFlag r) b = true ↔ s.bankPasses r b := by
  unfold passes bankPasses
  split <;> simp_all

theorem State.pairPasses_iff {s : State} {r : Credential} {d : Floor} {p : Bank × Floor} :
    s.pairPasses (s.overrideFlag r) d p = true ↔
      s.bankPasses r p.1 ∧ ∃ h, s.onwardTo p.2 d h ∧ s.bankPasses r h := by
  simp [pairPasses, passes_iff, mem_onwardBanks]

/-- R71: FIRE_RECALL among the dropped banks comes before LOCKDOWN, and LOCKDOWN before the rest. -/
theorem State.dropReason_eq_iff {s : State} {r : Credential} {home d : Floor} {banks : BankSet} {dropped : List Bank}
    (all : ∀ b, b ∈ dropped ↔ s.bankDropped r home banks d b) {e : DenyReason} :
    s.dropReason dropped = e ↔ s.filterReason r home banks d e := by
  have any (m : BankMode) : (dropped.any fun b => s.mode b = some m) = true ↔
      ∃ b, s.bankDropped r home banks d b ∧ s.mode b = some m := by
    simp [all]
  simp only [dropReason, filterReason, ← any, eq_comm (b := e)]
  split_ifs with fire locked
  · simp only [fire, true_and, not_true_eq_false, false_and, or_false]
  · simp only [fire, locked, true_and, not_false_eq_true, not_true_eq_false, false_and, or_false, false_or,
      Bool.false_eq_true]
  · simp only [fire, locked, true_and, not_false_eq_true, false_and, false_or, Bool.false_eq_true]

theorem State.route_of_direct {s : State} {home d : Floor} {banks : BankSet} (near : ∃ b, s.direct home banks d b) :
    s.route home banks d = some (.direct (s.directBanks home banks d)) := by
  obtain ⟨b, hb⟩ := near
  exact if_pos (List.ne_nil_of_mem (State.mem_directBanks.2 hb))

theorem State.directBanks_eq_nil_iff {s : State} {home d : Floor} {banks : BankSet} :
    s.directBanks home banks d = [] ↔ ∀ b, ¬ s.direct home banks d b := by
  simp only [List.eq_nil_iff_forall_not_mem, mem_directBanks]

theorem State.transferPairs_eq_nil_iff {s : State} {home d : Floor} {banks : BankSet} :
    s.transferPairs home banks d = [] ↔ ∀ b t, ¬ s.transferPair home banks d b t := by
  simp only [List.eq_nil_iff_forall_not_mem, mem_transferPairs, Prod.forall]

theorem State.route_of_transfer {s : State} {home d : Floor} {banks : BankSet}
    (far : ∀ b, ¬ s.direct home banks d b) (pair : ∃ b t, s.transferPair home banks d b t) :
    s.route home banks d = some (.transfer (s.transferPairs home banks d)) := by
  obtain ⟨b, t, h⟩ := pair
  rw [route, if_neg (not_not.2 (State.directBanks_eq_nil_iff.2 far)),
    if_pos (List.ne_nil_of_mem (State.mem_transferPairs (p := (b, t)).2 h))]

theorem State.route_of_not_reaches {s : State} {home d : Floor} {banks : BankSet}
    (h : ¬ s.reaches home banks d) : s.route home banks d = none := by
  obtain ⟨far, noPair⟩ := not_or.1 h
  rw [route, if_neg (not_not.2 (State.directBanks_eq_nil_iff.2 (not_exists.1 far))),
    if_neg (not_not.2 (State.transferPairs_eq_nil_iff.2 fun b => not_exists.1 (not_exists.1 noPair b)))]

/-! ### Room (R72) -/

theorem State.freeId_eq_none_iff {s : State} : s.freeId = none ↔ ∀ i < 512, ∃ k ∈ s.disp.bookings, k.id = i := by
  simp [freeId, Config.maxBookings]

theorem State.ticketRoom_transfer_eq_false_iff {s : State} {badge : Badge} {ps : List (Bank × Floor)} :
    s.ticketRoom badge (.transfer ps) = false ↔
      256 ≤ s.disp.tickets.length ∧ ∀ t ∈ s.disp.tickets, t.badge ≠ badge := by
  rw [ticketRoom, Bool.or_eq_false_iff, decide_eq_false_iff_not, not_lt]
  exact and_congr Iff.rfl (by simp [ticketOf])

/-! ### Steps 10 to 13 in the spec's terms (R69 to R73) -/

/-- R71: a candidate remains after the mode filter. -/
def State.routeRemains (s : State) (r : Credential) (home : Floor) (banks : BankSet) (d : Floor) : Prop :=
  (∃ b, s.direct home banks d b ∧ s.bankPasses r b) ∨
    ((∀ b, ¬ s.direct home banks d b) ∧ ∃ b t, s.pairRemains r home banks d b t)

/-- R69 to R73: the part of `State.refuses` that speaks of steps 10 to 13. -/
def State.routeRefuses (s : State) (r : Credential) (home : Floor) (banks : BankSet) (d : Floor) (e : DenyReason) :
    Prop :=
  (¬ s.reaches home banks d ∧ e = .noRoute) ∨
    (s.reaches home banks d ∧
      ((¬ s.routeRemains r home banks d ∧ s.filterReason r home banks d e) ∨
        (s.routeRemains r home banks d ∧
          ((s.noRoom r home banks d ∧ e = .full) ∨
            (¬ s.noRoom r home banks d ∧ s.noCar r home banks d ∧ e = .noCar)))))

/-- `State.refuses` with its part about steps 10 to 13 named. -/
theorem State.refuses_def {s : State} {r : Credential} {home d : Floor} {banks : BankSet} {e : DenyReason} :
    s.refuses r home banks d e ↔
      (d = home ∧ e = .sameFloor) ∨
        (d ≠ home ∧
          (((s.floor d).state = .isClosed ∧ e = .floorClosed) ∨
            ((s.floor d).state = .isOpen ∧
              (((s.permitted r).has d = false ∧ e = .notPermitted) ∨
                ((s.permitted r).has d = true ∧ s.routeRefuses r home banks d e))))) := Iff.rfl

/-- R68: steps 7 to 9 first, then the rest. -/
theorem State.refuses_iff {s : State} {r : Credential} {home d : Floor} {banks : BankSet} {e : DenyReason} :
    s.refuses r home banks d e ↔
      s.testFloor (s.permitted r) home d = some e ∨
        (s.testFloor (s.permitted r) home d = none ∧ s.routeRefuses r home banks d e) := by
  rw [refuses_def, testFloor]
  by_cases same : d = home
  case pos => simp [same, eq_comm (a := e)]
  case neg =>
    cases state : (s.floor d).state
    case isClosed => simp [same, eq_comm (a := e)]
    case isOpen =>
      generalize (s.permitted r).has d = permitted
      cases permitted <;> simp [same, eq_comm (a := e)]

section Route

variable {s : State} {badge : Badge} {override : Bool} {home d : Floor} {banks : BankSet} {units : Nat}

theorem State.findCar_of_dropped {q : Route} {e : DenyReason} (route : s.route home banks d = some q)
    (dropped : s.filterRoute override d q = .error e) :
    s.findCar badge override home banks d units = .error e := by
  simp only [findCar, route, dropped]

theorem State.findCar_of_kept {q kept : Route} (route : s.route home banks d = some q)
    (filter : s.filterRoute override d q = .ok kept) {e : DenyReason} :
    s.findCar badge override home banks d units = .error e ↔
      ((s.freeId = none ∨ s.ticketRoom badge kept = false) ∧ e = .full) ∨
        (¬ (s.freeId = none ∨ s.ticketRoom badge kept = false) ∧
          s.chooseCar home d units kept = none ∧ e = .noCar) := by
  simp only [findCar, route, filter]
  cases s.freeId with
  | none => simp [eq_comm (a := e)]
  | some id =>
    cases s.ticketRoom badge kept
    · simp [eq_comm (a := e)]
    · cases s.chooseCar home d units kept <;> simp [eq_comm (a := e)]

theorem State.findCar_of_no_winner {q kept : Route} {id : Nat} (route : s.route home banks d = some q)
    (filter : s.filterRoute override d q = .ok kept) (free : s.freeId = some id)
    (room : s.ticketRoom badge kept = true) (nobody : s.chooseCar home d units kept = none) :
    s.findCar badge override home banks d units = .error .noCar := by
  simp [findCar, route, filter, free, room, nobody]

theorem State.findCar_of_winner {q kept : Route} {id : Nat} {x : Choice} (route : s.route home banks d = some q)
    (filter : s.filterRoute override d q = .ok kept) (free : s.freeId = some id)
    (room : s.ticketRoom badge kept = true) (winner : s.chooseCar home d units kept = some x) :
    s.findCar badge override home banks d units = .ok (id, x) := by
  simp [findCar, route, filter, free, room, winner]

end Route

section Steps

variable {s : State} {r : Credential} {home d : Floor} {banks : BankSet}

/-- Steps 10 to 13 over one route, once each step is in the spec's terms. -/
theorem State.findCar_eq_error_iff_of_route {q kept : Route} {reason : DenyReason}
    (route : s.route home banks d = some q) (reach : s.reaches home banks d)
    (keeps : s.routeRemains r home banks d → s.filterRoute (s.overrideFlag r) d q = .ok kept)
    (drops : ¬ s.routeRemains r home banks d → s.filterRoute (s.overrideFlag r) d q = .error reason)
    (reason_iff : ∀ e, reason = e ↔ s.filterReason r home banks d e)
    (room_iff : (s.freeId = none ∨ s.ticketRoom r.badge kept = false) ↔ s.noRoom r home banks d)
    (car_iff : s.chooseCar home d r.units kept = none ↔ s.noCar r home banks d) (e : DenyReason) :
    s.findCar r.badge (s.overrideFlag r) home banks d r.units = .error e ↔ s.routeRefuses r home banks d e := by
  simp only [routeRefuses, reach, not_true_eq_false, false_and, false_or, true_and]
  by_cases remains : s.routeRemains r home banks d
  · simp only [findCar_of_kept route (keeps remains), room_iff, car_iff, remains, not_true_eq_false, false_and,
      false_or, true_and]
  · simp only [findCar_of_dropped route (drops remains), Except.error.injEq, reason_iff, remains, not_false_eq_true,
      true_and, false_and, or_false]

theorem State.routeRemains_iff_of_direct (near : ¬ ∀ b, ¬ s.direct home banks d b) :
    s.routeRemains r home banks d ↔ (s.directBanks home banks d).filter (s.passes (s.overrideFlag r)) ≠ [] := by
  simp [routeRemains, near, List.filter_eq_nil_iff, mem_directBanks, passes_iff]

theorem State.bankDropped_iff_of_direct (near : ¬ ∀ b, ¬ s.direct home banks d b) (b : Bank) :
    b ∈ (s.directBanks home banks d).filter (fun b => !s.passes (s.overrideFlag r) b) ↔
      s.bankDropped r home banks d b := by
  simp only [bankDropped, near, false_and, or_false, List.mem_filter, mem_directBanks, ← passes_iff,
    Bool.not_eq_true, Bool.not_eq_true', and_comm]

theorem State.noRoom_iff_of_direct (near : ¬ ∀ b, ¬ s.direct home banks d b) (badge : Badge) (bs : List Bank) :
    (s.freeId = none ∨ s.ticketRoom badge (.direct bs) = false) ↔ s.noRoom r home banks d := by
  simp [noRoom, near, freeId_eq_none_iff, ticketRoom]

theorem State.noCar_iff_of_direct (near : ¬ ∀ b, ¬ s.direct home banks d b) :
    s.chooseCar home d r.units
        (.direct ((s.directBanks home banks d).filter (s.passes (s.overrideFlag r)))) = none ↔
      s.noCar r home banks d := by
  simp only [noCar, near, false_imp_iff, and_true, chooseCar_direct_eq_none_iff, List.mem_filter, mem_directBanks,
    passes_iff, evaluate_eq_none_iff, and_imp]

theorem State.routeRemains_iff_of_transfer (far : ∀ b, ¬ s.direct home banks d b) :
    s.routeRemains r home banks d ↔ (s.transferPairs home banks d).filter (s.pairPasses (s.overrideFlag r) d) ≠ [] := by
  simp [routeRemains, far, List.filter_eq_nil_iff, mem_transferPairs, pairPasses_iff, pairRemains]

theorem State.bankDropped_iff_of_transfer (far : ∀ b, ¬ s.direct home banks d b) (b : Bank) :
    b ∈ ((s.transferPairs home banks d).flatMap fun x => x.1 :: s.onwardBanks x.2 d).filter
        (fun b => !s.passes (s.overrideFlag r) b) ↔
      s.bankDropped r home banks d b := by
  have listed : b ∈ ((s.transferPairs home banks d).flatMap fun x => x.1 :: s.onwardBanks x.2 d) ↔
      ∃ t, s.transferPair home banks d b t ∨ ∃ h, s.transferPair home banks d h t ∧ s.onwardTo t d b := by
    simp only [List.mem_flatMap, List.mem_cons, mem_transferPairs, mem_onwardBanks, Prod.exists]
    constructor
    · rintro ⟨h, t, pair, rfl | onward⟩
      · exact ⟨t, .inl pair⟩
      · exact ⟨t, .inr ⟨h, pair, onward⟩⟩
    · rintro ⟨t, pair | ⟨h, pair, onward⟩⟩
      · exact ⟨b, t, pair, .inl rfl⟩
      · exact ⟨h, t, pair, .inr onward⟩
  simp only [bankDropped, far, not_false_eq_true, implies_true, false_or, true_and, List.mem_filter, listed,
    ← passes_iff, Bool.not_eq_true, Bool.not_eq_true', and_comm]

theorem State.noRoom_iff_of_transfer (far : ∀ b, ¬ s.direct home banks d b) (ps : List (Bank × Floor)) :
    (s.freeId = none ∨ s.ticketRoom r.badge (.transfer ps) = false) ↔ s.noRoom r home banks d := by
  simp only [noRoom, far, not_false_eq_true, implies_true, true_and, freeId_eq_none_iff,
    ticketRoom_transfer_eq_false_iff]

theorem State.noCar_iff_of_transfer (far : ∀ b, ¬ s.direct home banks d b) :
    s.chooseCar home d r.units
        (.transfer ((s.transferPairs home banks d).filter (s.pairPasses (s.overrideFlag r) d))) = none ↔
      s.noCar r home banks d := by
  simp only [noCar, far, not_false_eq_true, implies_true, false_imp_iff, true_and, forall_const,
    chooseCar_transfer_eq_none_iff, List.mem_filter, mem_transferPairs, pairPasses_iff, pairRemains,
    evaluate_eq_none_iff, Prod.forall]

/-- R69 to R73: steps 10 to 13 fail with the reason that the spec gives. -/
theorem State.findCar_eq_error_iff (e : DenyReason) :
    s.findCar r.badge (s.overrideFlag r) home banks d r.units = .error e ↔ s.routeRefuses r home banks d e := by
  by_cases reach : s.reaches home banks d
  case neg => simp [findCar, route_of_not_reaches reach, routeRefuses, reach, eq_comm (a := e)]
  case pos =>
    by_cases far : ∀ b, ¬ s.direct home banks d b
    case pos =>
      exact findCar_eq_error_iff_of_route (route_of_transfer far (reach.resolve_left (not_exists.2 far))) reach
        (fun remains => if_pos ((routeRemains_iff_of_transfer far).1 remains))
        (fun gone => if_neg fun kept => gone ((routeRemains_iff_of_transfer far).2 kept))
        (fun _ => dropReason_eq_iff (bankDropped_iff_of_transfer far)) (noRoom_iff_of_transfer far _)
        (noCar_iff_of_transfer far) e
    case neg =>
      exact findCar_eq_error_iff_of_route (route_of_direct (not_forall_not.1 far)) reach
        (fun remains => if_pos ((routeRemains_iff_of_direct far).1 remains))
        (fun gone => if_neg fun kept => gone ((routeRemains_iff_of_direct far).2 kept))
        (fun _ => dropReason_eq_iff (bankDropped_iff_of_direct far)) (noRoom_iff_of_direct far _ _)
        (noCar_iff_of_direct far) e

theorem State.testTrip_eq_error_iff (e : DenyReason) :
    s.testTrip r home banks d = .error e ↔ s.refuses r home banks d e := by
  rw [refuses_iff, ← findCar_eq_error_iff, testTrip]
  cases s.testFloor (s.permitted r) home d <;> simp

end Steps

/-- Settles O39: the choice over each kind of route, steps 10 to 13 on a given route, and the
reasons of steps 7 to 13. -/
theorem routeChoosesTheLowestCost : Obligations.RouteChoosesTheLowestCost := by
  refine ⟨fun s home d units => ⟨fun bs rising => ?direct, fun ps rising => ?transfer⟩,
    fun s badge override home d banks units id r q route filter free room =>
      ⟨State.findCar_of_no_winner route filter free room, fun x => State.findCar_of_winner route filter free room⟩,
    fun s r home d banks => ⟨fun e => State.testTrip_eq_error_iff e |>.symm, ?granted⟩⟩
  case direct =>
    cases chosen : s.chooseCar home d units (.direct bs) with
    | none => exact State.chooseCar_direct_eq_none_iff.1 chosen
    | some x => exact State.chooseCar_direct_some rising chosen
  case transfer =>
    cases chosen : s.chooseCar home d units (.transfer ps) with
    | none => exact State.chooseCar_transfer_eq_none_iff.1 chosen
    | some x => exact State.chooseCar_transfer_some rising chosen
  case granted =>
    simp only [← State.testTrip_eq_error_iff]
    cases s.testTrip r home banks d <;> simp

end Sys2Proof.Machine
end

section
/-! SUPPORT and PROOF for O49 (R173 to R177): which report an overflow discards, what joining and posting do to the host
port, and SET-REPORTS. -/

namespace Sys2Proof.Machine

/-! ### The report that an overflow discards (R176) -/

theorem dropLastRoutine_eq_none {q : List Report} (urgents : ∀ y ∈ q, y.cls = .urgent) : dropLastRoutine q = none := by
  induction q with
  | nil => rfl
  | cons y ys ih =>
    obtain ⟨head, tail⟩ := List.forall_mem_cons.1 urgents
    simp [dropLastRoutine, ih tail, head]

theorem dropLastRoutine_eq_some {x : Report} (q1 : List Report) {q2 : List Report} (routine : x.cls = .routine)
    (newest : ∀ y ∈ q2, y.cls = .urgent) : dropLastRoutine (q1 ++ x :: q2) = some (q1 ++ q2) := by
  induction q1 with
  | nil => simp [dropLastRoutine, dropLastRoutine_eq_none newest, routine]
  | cons y ys ih => simp [dropLastRoutine, ih]

theorem dropUnsentRoutine_false (q : List Report) : dropUnsentRoutine false q = dropLastRoutine q := by
  cases q <;> rfl

/-- The oldest ROUTINE report is the one being sent (R174): only those behind it can go. -/
theorem dropUnsentRoutine_true {y : Report} {q0 : List Report} (q : List Report)
    (oldest : ∀ z ∈ q0, z.cls = .urgent) (routine : y.cls = .routine) :
    dropUnsentRoutine true (q0 ++ y :: q) = (dropLastRoutine q).map (q0 ++ y :: ·) := by
  induction q0 with
  | nil => simp [dropUnsentRoutine, routine]
  | cons z zs ih =>
    obtain ⟨head, tail⟩ := List.forall_mem_cons.1 oldest
    simp [dropUnsentRoutine, head, ih tail, Function.comp_def]

theorem dropUnsentRoutine_eq_none {q : List Report} (sending : Bool) (urgents : ∀ y ∈ q, y.cls = .urgent) :
    dropUnsentRoutine sending q = none := by
  cases dropped : dropUnsentRoutine sending q with
  | none => rfl
  | some q' =>
    cases sending with
    | false => simp [dropUnsentRoutine_false, dropLastRoutine_eq_none urgents] at dropped
    | true =>
      obtain ⟨kept, -, -, sent⟩ := dropUnsentRoutine_spec dropped
      obtain ⟨r, mem, routine⟩ := sent rfl
      simp [urgents r (kept r mem)] at routine

/-! ### Joining the queue (R173, R175) -/

section Join

variable {h : HostPort} {r : Report}

@[simp] theorem HostPort.stopRoutine_queue (h : HostPort) : h.stopRoutine.queue = h.queue := by
  unfold stopRoutine; split <;> rfl

@[simp] theorem HostPort.stopRoutine_tx (h : HostPort) : h.stopRoutine.tx = .stopIdle := by
  unfold stopRoutine; split <;> rfl

theorem HostPort.stopRoutine_gap_of_marked (marked : h.gap = true) : h.stopRoutine.gap = true := by
  unfold stopRoutine; split <;> simp [marked]

theorem HostPort.stopRoutine_gap_of_head {x : Report} {rest : List Report} (queue : h.queue = x :: rest)
    (routine : x.cls = .routine) : h.stopRoutine.gap = (h.gap || x.gap) := by
  simp [stopRoutine, oldestOf, queue, routine]

theorem HostPort.join_of_keeps (keeps : r.cls = .routine ∨ h.tx ≠ .sendingReport .routine) :
    h.join r = { h with queue := h.queue ++ [r] } := by
  have stays : ¬ (r.cls = .urgent ∧ h.tx = .sendingReport .routine) := by
    rintro ⟨urgent, sending⟩
    simp [urgent, sending] at keeps
  simp [join, stays]

theorem HostPort.join_of_stops (urgent : r.cls = .urgent) (sending : h.tx = .sendingReport .routine) :
    h.join r = { h.stopRoutine with queue := h.queue ++ [r] } := by
  simp [join, urgent, sending]

theorem HostPort.join_tx_of_keeps (keeps : r.cls = .routine ∨ h.tx ≠ .sendingReport .routine) :
    (h.join r).tx = h.tx := by rw [join_of_keeps keeps]

theorem HostPort.join_tx_of_stops (urgent : r.cls = .urgent) (sending : h.tx = .sendingReport .routine) :
    (h.join r).tx = .stopIdle := by rw [join_of_stops urgent sending, stopRoutine_tx]

@[simp] theorem HostPort.join_queue (h : HostPort) (r : Report) : (h.join r).queue = h.queue ++ [r] := by
  unfold join; split <;> simp

theorem HostPort.join_gap_of_marked (r : Report) (marked : h.gap = true) : (h.join r).gap = true := by
  unfold join
  split
  · exact stopRoutine_gap_of_marked marked
  · exact marked

end Join

/-! ### Posting (R176, R177) -/

section Post

variable {h : HostPort} {r : Report}

theorem HostPort.post_of_disabled (disabled : h.enables.getLsbD r.body.kind = false) : h.post r = h := by
  simp [post, disabled]

variable (enabled : h.enables.getLsbD r.body.kind = true)
include enabled

theorem HostPort.post_of_room (room : h.queue.length < 32) : h.post r = h.join r := by
  simp [post, enabled, Config.maxReports, room]

variable (full : 32 ≤ h.queue.length)
include full

theorem HostPort.post_of_full_routine (routine : r.cls = .routine) : h.post r = { h with gap := true } := by
  simp [post, enabled, Config.maxReports, full, routine]

theorem HostPort.post_of_full_lost (urgent : r.cls = .urgent)
    (noneGoes : dropUnsentRoutine (h.tx = .sendingReport .routine) h.queue = none) :
    h.post r = { h with gap := true } := by
  simp [post, enabled, Config.maxReports, full, urgent, noneGoes]

theorem HostPort.post_of_full_replaces {q : List Report} (urgent : r.cls = .urgent)
    (oneGoes : dropUnsentRoutine (h.tx = .sendingReport .routine) h.queue = some q) :
    h.post r = ({ h with queue := q, gap := true } : HostPort).join r := by
  simp [post, enabled, Config.maxReports, full, urgent, oneGoes]

/-- R176: whichever report an overflow discards, the gap mark is set. -/
theorem HostPort.post_gap_of_full : (h.post r).gap = true := by
  cases cls : r.cls with
  | routine => rw [post_of_full_routine enabled full cls]
  | urgent =>
    cases dropped : dropUnsentRoutine (h.tx = .sendingReport .routine) h.queue with
    | none => rw [post_of_full_lost enabled full cls dropped]
    | some q => rw [post_of_full_replaces enabled full cls dropped, join_gap_of_marked r rfl]

end Post

/-! ### SET-REPORTS (R177) -/

theorem exec_setReports_badValue {s : State} (taken : s.canTake) (tag : Byte) {kinds : BitVec 16}
    (undefined : 1024 ≤ kinds.toNat) :
    exec (.setReports tag kinds) s = .next (s.replied 17 tag .badValue .empty) := by
  have judged : s.hostHunt.judge (.setReports kinds) = .refuse .badValue := if_pos undefined
  rw [exec_of_requestOf rfl, State.hostFrame_refuse taken judged]
  rfl

theorem exec_setReports_done {s : State} (taken : s.canTake) (tag : Byte) {kinds : BitVec 16}
    (defined : kinds.toNat < 1024) :
    exec (.setReports tag kinds) s =
      .next ((s.setHost { s.host with enables := kinds.setWidth 10 }).replied 17 tag .done .empty) := by
  have judged : s.hostHunt.judge (.setReports kinds) =
      .done (s.setHost { s.host with enables := kinds.setWidth 10 }).hostHunt .empty := if_neg (Nat.not_le.2 defined)
  rw [exec_of_requestOf rfl, State.hostFrame_done taken judged]
  rfl

/-- Settles O49: SET-REPORTS by its bound, a posted report by its enable, the room in the queue, its class and what is
being sent. -/
theorem postedReportJoinsOrIsLost : Obligations.PostedReportJoinsOrIsLost := by
  refine ⟨fun s tag kinds taken => ⟨exec_setReports_badValue taken tag, fun defined =>
      ⟨_, exec_setReports_done taken tag defined, fun k hk => ?bits, rfl⟩⟩, ?reset,
    fun h r => ⟨HostPort.post_of_disabled, fun enabled => ⟨fun room => ?room, fun full =>
      ⟨HostPort.post_gap_of_full enabled full, fun routine => ?routine, ?replaces, ?replacesAndStops, ?onlyTheSent,
        fun urgent urgents => ?noRoutine⟩⟩⟩⟩
  case bits => simp [State.replied, hk]
  case reset =>
    rintro s _ ⟨⟩
    exact ⟨rfl, rfl⟩
  case room =>
    rw [HostPort.post_of_room enabled room]
    refine ⟨h.join_queue r, fun keeps => ?_, fun urgent sending => ?_⟩
    · rw [HostPort.join_of_keeps keeps]
      exact ⟨rfl, rfl⟩
    · rw [HostPort.join_of_stops urgent sending]
      exact ⟨h.stopRoutine_tx, fun x rest => HostPort.stopRoutine_gap_of_head⟩
  case routine => simp [HostPort.post_of_full_routine enabled full routine]
  case replaces =>
    intro q1 x q2 urgent idle queue routine newest
    have dropped : dropUnsentRoutine (h.tx = .sendingReport .routine) h.queue = some (q1 ++ q2) := by
      rw [decide_eq_false idle, dropUnsentRoutine_false, queue, dropLastRoutine_eq_some q1 routine newest]
    rw [HostPort.post_of_full_replaces enabled full urgent dropped]
    exact ⟨HostPort.join_queue _ r, HostPort.join_tx_of_keeps (.inr idle)⟩
  case replacesAndStops =>
    intro q0 y q1 x q2 urgent sending queue oldest sent routine newest
    have dropped : dropUnsentRoutine (h.tx = .sendingReport .routine) h.queue = some (q0 ++ y :: (q1 ++ q2)) := by
      rw [decide_eq_true sending, queue, List.append_assoc, List.cons_append, dropUnsentRoutine_true _ oldest sent,
        dropLastRoutine_eq_some q1 routine newest, Option.map_some]
    rw [HostPort.post_of_full_replaces enabled full urgent dropped]
    exact ⟨by simp, HostPort.join_tx_of_stops urgent sending⟩
  case onlyTheSent =>
    intro q0 y q1 urgent sending queue oldest sent rest
    have kept : dropUnsentRoutine (h.tx = .sendingReport .routine) h.queue = none := by
      rw [decide_eq_true sending, queue, dropUnsentRoutine_true _ oldest sent, dropLastRoutine_eq_none rest,
        Option.map_none]
    simp [HostPort.post_of_full_lost enabled full urgent kept]
  case noRoutine =>
    simp [HostPort.post_of_full_lost enabled full urgent (dropUnsentRoutine_eq_none _ urgents)]

end Sys2Proof.Machine
end

section
/-! SUPPORT and PROOF for O2 (and the frame of every command, which the invariants use): what a request reaches by its
verdict, and that each command answers a next state and changes only its blocks. -/

namespace Sys2Proof.Machine

/-- The outcome is a next state that differs from `s` only in the listed blocks. -/
def State.leadsTo (s : State) (bs : List Block) (o : Host.Outcome State Fault Refusal) : Prop :=
  ∃ t, o = .next t ∧ s.changesOnly bs t

theorem State.leadsTo.next {s t : State} {bs : List Block} (h : s.changesOnly bs t) : s.leadsTo bs (.next t) :=
  ⟨t, rfl, h⟩

theorem State.leadsTo.ite {p : Prop} [Decidable p] {s : State} {bs : List Block}
    {a b : Host.Outcome State Fault Refusal} (ha : s.leadsTo bs a) (hb : s.leadsTo bs b) :
    s.leadsTo bs (if p then a else b) := by
  split <;> assumption

theorem State.leadsTo.refl (s : State) (bs : List Block) : s.leadsTo bs (.next s) := .next (.refl s bs)

/-! ### Requests (R163, R164) -/

/-- What a verdict on a request reaches, less the host port. -/
def Verdict.within (s : State) (bs : List Block) : Verdict → Prop
  | .refuse _ => True
  | .done t _ => .store ∉ bs ∧ s.changesOnly bs t
  | .write .. | .erase _ => .store ∈ bs

theorem State.takeRequest_only {s : State} {bs : List Block} {tag : Byte} {r : Request}
    (h : (s.judge r).within s bs) : s.changesOnly (.host :: bs) (s.takeRequest tag r) := by
  unfold State.takeRequest
  split
  next => exact .step (State.setHost_only _ _) (.refl _ _) (by simp)
  next t _ e =>
    rw [e] at h
    exact .step (State.setHost_only _ _) (State.changesOnly.mono h.2 (by simp)) (by simp)
  next e =>
    rw [e] at h
    exact .step (State.setHost_only _ _) (.step (State.setStore_only _ _) (.refl _ _) (by simpa using List.mem_cons_of_mem .host h)) (by simp)
  next e =>
    rw [e] at h
    exact .step (State.setHost_only _ _) (.step (State.setStore_only _ _) (.refl _ _) (by simpa using List.mem_cons_of_mem .host h)) (by simp)

theorem State.hostFrame_only {s : State} {bs : List Block} {tag : Byte} {r : Request}
    (h : (s.hostHunt.judge r).within s.hostHunt bs) : s.changesOnly (.host :: bs) (s.hostFrame tag r) := by
  have hunt : s.changesOnly (.host :: bs) s.hostHunt := .step (State.setHost_only _ _) (.refl _ _) (by simp)
  refine .step (State.choose_only _) ?_ (by simp)
  unfold State.goodFrame
  refine .ite (hunt.trans (State.takeRequest_only h)) ?_
  split
  · exact .step (State.setHost_only _ _) hunt (by simp)
  · exact hunt

theorem State.policyProgram_within (s : State) (j : Job) : (s.policyProgram j).within s [.store] := by
  simp [State.policyProgram, Verdict.within]

theorem State.policyOr_within (s : State) (j : Option Job) : (s.policyOr j).within s [.store] := by
  cases j with
  | none => trivial
  | some j => exact s.policyProgram_within j

theorem State.credentialProgram_within (s : State) (p k : Nat) (slot : List Byte) :
    (s.credentialProgram p k slot).within s [.store] := by
  simp [State.credentialProgram, Verdict.within]

theorem State.withBadge_within {s : State} {bs : List Block} (badge : Badge) {go : Credential → Nat → Nat → Verdict}
    (h : ∀ r p k, (go r p k).within s bs) : (s.withBadge badge go).within s bs := by
  unfold State.withBadge
  split
  · trivial
  · split
    · exact h _ _ _
    all_goals trivial

/-- The blocks that a request reaches besides the host port: a query, SET-REPORTS, RESTART and an undefined type reach
none. -/
def Request.blocks : Request → List Block
  | .setClock .. | .setNextDay .. => [.calendar]
  | .setReports .. => [.host]
  | .queryBadge .. | .queryCar .. | .queryBookings .. | .queryPart | .restart | .undefinedType _ => []
  | .loadSite .. | .loadFloor .. | .loadBank .. | .loadReader .. | .loadGroup .. | .loadProfile .. | .loadTenant ..
  | .enroll .. | .revoke .. | .setBadgeState .. | .erasePage .. | .setBankMode .. | .setCarService ..
  | .setFloorState .. => [.store]

theorem State.judge_within (s : State) (r : Request) : (s.judge r).within s r.blocks := by
  have done : .store ∉ ([] : List Block) ∧ s.changesOnly [] s := ⟨by decide, .refl s _⟩
  cases r with
  | setClock =>
    simp only [State.judge, State.judgeSetClock]
    split
    · exact ⟨by simp [Request.blocks], s.setCalendar_only _⟩
    · trivial
  | setNextDay =>
    simp only [State.judge, State.judgeSetNextDay]
    split
    · exact ⟨by simp [Request.blocks], s.setCalendar_only _⟩
    · trivial
  | loadSite => exact s.policyProgram_within _
  | loadFloor =>
    simp only [State.judge, State.judgeLoadFloor]
    split
    · split
      · exact s.policyProgram_within _
      · trivial
    · trivial
  | loadBank =>
    simp only [State.judge, State.judgeLoadBank]
    split
    · trivial
    · split
      · trivial
      · split
        · exact s.policyProgram_within _
        · trivial
  | loadReader => exact s.policyOr_within _
  | loadGroup => exact s.policyOr_within _
  | loadProfile => exact s.policyOr_within _
  | loadTenant => exact s.policyOr_within _
  | enroll =>
    simp only [State.judge, State.judgeEnroll]
    split
    · trivial
    · unfold State.placeRecord
      split
      · exact s.credentialProgram_within _ _ _
      · split
        · exact s.credentialProgram_within _ _ _
        · trivial
  | revoke => exact State.withBadge_within _ fun _ _ _ => s.credentialProgram_within _ _ _
  | setBadgeState =>
    simp only [State.judge, State.judgeSetBadgeState]
    split
    · trivial
    · exact State.withBadge_within _ fun _ _ _ => s.credentialProgram_within _ _ _
  | erasePage =>
    simp only [State.judge, State.judgeErasePage]
    split
    · trivial
    · split
      · trivial
      · exact List.mem_singleton_self _
  | setBankMode =>
    simp only [State.judge, State.judgeSetBankMode]
    split
    · split
      · trivial
      · exact s.policyProgram_within _
    · trivial
  | setCarService =>
    simp only [State.judge, State.judgeSetCarService]
    split
    · exact s.policyProgram_within _
    · trivial
  | setFloorState =>
    simp only [State.judge, State.judgeSetFloorState]
    split
    · exact s.policyProgram_within _
    · trivial
  | setReports =>
    simp only [State.judge, State.judgeSetReports]
    split
    · trivial
    · exact ⟨by simp [Request.blocks], s.setHost_only _⟩
  | queryBadge => exact State.withBadge_within _ fun _ _ _ => done
  | queryCar =>
    simp only [State.judge, State.judgeQueryCar]
    split
    · exact done
    · trivial
  | queryBookings =>
    simp only [State.judge, State.judgeQueryBookings]
    split
    · exact done
    · trivial
  | queryPart => exact done
  | restart => exact done
  | undefinedType => trivial

theorem State.hostFrame_blocks (s : State) (tag : Byte) (r : Request) :
    s.changesOnly (.host :: r.blocks) (s.hostFrame tag r) := State.hostFrame_only (s.hostHunt.judge_within r)

theorem Request.blocks_subset (r : Request) : .host :: r.blocks ⊆ [.store, .calendar, .host] := by
  cases r <;> simp only [Request.blocks] <;> decide

theorem State.hostByte_only (s : State) (b : Byte) : s.changesOnly [.store, .calendar, .host] (s.hostByte b) := by
  unfold State.hostByte
  split
  · exact .step (State.setHost_only _ _) (.refl _ _)
  · split
    · exact .step (State.setHost_only _ _) (.refl _ _)
    · exact (s.hostFrame_blocks _ _).mono (Request.blocks_subset _)

/-! ### Completions, resets and decisions -/

theorem State.completeRequest_only (s : State) (status : ReplyStatus) :
    s.changesOnly [.host] (s.completeRequest status) := by
  unfold State.completeRequest
  split
  · exact s.setHost_only _
  all_goals exact .refl _ _

theorem execVerifyMatch_only (s : State) : s.leadsTo (blocksOf .verifyMatch) (execVerifyMatch s) := by
  unfold execVerifyMatch
  split
  · exact .refl _ _
  · exact .next (.step (State.choose_only _) (.step (State.completeRequest_only _ _) (.step (State.setPorts_only _ _)
      (.step (State.closeCars_only _ _) (.step (State.jobCompleted_only _ _)
        (.step (State.setStore_only _ _) (.refl _ _)))))))

theorem execVerifyMismatch_only (s : State) : s.leadsTo (blocksOf .verifyMismatch) (execVerifyMismatch s) := by
  unfold execVerifyMismatch
  split
  · exact .refl _ _
  · exact .next (.step (State.choose_only _) (.step (State.completeRequest_only _ _) (.step (State.setPorts_only _ _)
      (.step (State.post_only _ _ _) (.step (State.setFree_only _ _) (.step (State.setStore_only _ _) (.refl _ _)))))))

/-- The blocks that a reset reaches. -/
def resetBlocks : List Block :=
  [.part, .store, .policy, .calendar, .ports, .engine, .disp, .lines, .host, .freeCount]

theorem State.resetAll_only (s : State) (p : Part) : s.changesOnly resetBlocks (s.resetAll p) := by
  intro b hb
  cases b
  case pending => rfl
  case pins => rfl
  all_goals exact absurd (by decide) hb

theorem State.scan_only (s : State) : s.changesOnly [.store, .policy] s.scan :=
  .step (State.setPolicy_only _ _) (.step (State.setStore_only _ _) (.refl _ _))

theorem execReplySent_only (s : State) : s.leadsTo (blocksOf .replySent) (execReplySent s) := by
  unfold execReplySent
  refine .ite ?_ (.refl _ _)
  split
  · unfold State.replyDone
    refine .next (.ite (.step (State.scan_only _) (s.resetAll_only _)) ?_)
    exact .step (State.choose_only _) (.step (State.setHost_only _ _) (.step (State.setHost_only _ _) (.refl _ _)))
  all_goals exact .refl _ _

theorem State.begun_only (s : State) : s.changesOnly [.part, .disp, .lines, .ports] s.begun :=
  .step (State.setPorts_only _ _) (.step (State.setLines_only _ _) (.step (State.setDisp_only _ _)
    (.step (State.setPart_only _ _) (.refl _ _))))

theorem State.postScanFaults_only (s : State) : s.changesOnly [.host] s.postScanFaults :=
  .foldl (fun _ _ h => .step (State.post_only _ _ _) h) (.refl _ _)

theorem State.postRecalls_only (s : State) : s.changesOnly [.host] s.postRecalls :=
  .foldl (fun _ _ h => .step (State.post_only _ _ _) h) (.refl _ _)

theorem State.postStartGroups_only (s : State) : s.changesOnly [.host, .freeCount] s.postStartGroups := by
  have free := (s.setFree_only (s.freeCount + 1)).mono (cs := [.host, .freeCount])
  unfold State.postStartGroups
  exact .ite
    (.ite (.step (State.postRecalls_only _) (.step (State.postScanFaults_only _) free))
      (.step (State.postScanFaults_only _) (.step (State.postRecalls_only _) free)))
    (.step (State.postRecalls_only _) (.step (State.postScanFaults_only _) (.refl _ _)))

theorem execDecisionMoment_only (s : State) : s.leadsTo (blocksOf .decisionMoment) (execDecisionMoment s) := by
  unfold execDecisionMoment
  split
  · exact .next (.step (State.choose_only _) (.step (State.setEngine_only _ _) (.step (State.closeCars_only _ _)
      (.step (State.decide_only _ _ _ _) (.refl _ _)))))
  · exact .refl _ _

theorem execPresentationTaking_only (s : State) :
    s.leadsTo (blocksOf .presentationTaking) (execPresentationTaking s) := by
  unfold execPresentationTaking
  refine .ite ?_ (.refl _ _)
  split
  · exact .next (.step (State.setEngine_only _ _) (.step (State.setPort_only _ _ _) (.refl _ _)))
  · exact .refl _ _

/-! ### Timers and recall inputs -/

theorem State.forceRecall_only (s : State) (b : Bank) : s.changesOnly eventBlocks (s.forceRecall b) := by
  unfold State.forceRecall
  exact .ite (.refl _ _) (s.changeMode_only _ _ _)

theorem State.loseContact_only (s : State) (b : Bank) (c : CarNo) : s.changesOnly eventBlocks (s.loseContact b c) :=
  .step (State.reportService_only _ _ _ _ _) (s.setService_only _ _ _)

/-! ### Every command -/

theorem exec_leadsTo (c : Instr) (s : State) : s.leadsTo (blocksOf c) (exec c s) := by
  cases hr : requestOf c with
  | some x =>
    obtain ⟨tag, r⟩ := x
    rw [exec_of_requestOf hr]
    refine .next ((s.hostFrame_blocks tag r).mono ?_)
    cases c <;> simp only [requestOf, Option.some.injEq, Prod.mk.injEq, reduceCtorEq] at hr <;>
      obtain ⟨rfl, rfl⟩ := hr <;> simp only [blocksOf, Request.blocks] <;> decide
  | none =>
    cases c <;> simp only [requestOf, reduceCtorEq] at hr
    case resetPin => exact .next (s.resetAll_only _)
    case resetPinRelease => exact .ite (.next (.step (State.scan_only _) (.step (State.setPart_only _ _) (.refl _ _)))) (.refl _ _)
    case startUpScanEnd =>
      exact .ite (.next (.step (State.choose_only _) (.step (State.postStartGroups_only _) (.step (State.post_only _ _ _)
        (.step (State.begun_only _) (.refl _ _)))))) (.refl _ _)
    case hostPartialFrameTimeout =>
      exact .next (.step (State.setHost_only _ _) (.foldl (fun _ _ h => .step (State.hostByte_only _ _) h) (.refl _ _)))
    case verifyMatch => exact execVerifyMatch_only s
    case verifyMismatch => exact execVerifyMismatch_only s
    case recallInputAsserted =>
      exact .ite (.next (.step (State.choose_only _) (.step (State.closeCars_only _ _) (.step (State.forceRecall_only _ _)
        (.step (State.post_only _ _ _) (.step (State.setPins_only _ _) (.refl _ _)))))))
        (.next (.step (State.setPins_only _ _) (.refl _ _)))
    case recallInputDeasserted =>
      exact .ite (.next (.step (State.choose_only _) (.step (State.post_only _ _ _) (.step (State.setPins_only _ _)
        (.refl _ _))))) (.next (.step (State.setPins_only _ _) (.refl _ _)))
    case lrqAsserted =>
      exact .ite (.next (.step (State.choose_only _) (.step (State.post_only _ _ _) (.step (State.setLine_only _ _ _)
        (.step (State.setPins_only _ _) (.refl _ _)))))) (.next (.step (State.setPins_only _ _) (.refl _ _)))
    case lrqDeasserted =>
      exact .ite (.next (.step (State.choose_only _) (.step (State.post_only _ _ _) (.step (State.setLine_only _ _ _)
        (.step (State.setPins_only _ _) (.refl _ _)))))) (.next (.step (State.setPins_only _ _) (.refl _ _)))
    case present =>
      exact .next (.step (State.choose_only _) (.step (State.readerFrame_only _ _ _) (.refl _ _)))
    case ping =>
      exact .next (.step (State.choose_only _) (.step (State.readerFrame_only _ _ _) (.refl _ _)))
    case readerPartialFrameTimeout =>
      exact .next (.step (State.choose_only _) (.step (State.readerHunt_only _ _)
        (.foldl (fun _ _ h => .step (State.readerByte_only _ _ _) h) (.refl _ _))))
    case replyShifterDone => exact .ite (.next (s.setPort_only _ _)) (.refl _ _)
    case presentationTaking => exact execPresentationTaking_only s
    case decisionMoment => exact execDecisionMoment_only s
    case transactionChoice => exact .ite (.next (s.setLine_only _ _)) (.refl _ _)
    case sweepDue l =>
      show s.leadsTo _ (execSweepDue l s)
      unfold execSweepDue
      split
      · exact .next (s.setLine_only _ _)
      · exact .refl _ _
    case commandSent => exact .ite (.next (s.setLine_only _ _)) (.refl _ _)
    case readbackMismatch l =>
      show s.leadsTo _ (execReadbackMismatch l s)
      unfold execReadbackMismatch
      refine .ite ?_ (.refl _ _)
      split
      · exact .next (.step (State.choose_only _) (.step (State.mismatch_only _ _ _) (.refl _ _)))
      · exact .refl _ _
    case backoffEnd => exact .ite (.next (s.setLine_only _ _)) (.refl _ _)
    case faultEnd => exact .ite (.next (s.setLine_only _ _)) (.refl _ _)
    case status => exact .next (.step (State.choose_only _) (.step (State.hearAnswer_only _ _ _ _) (.refl _ _)))
    case hold address =>
      refine .next (.step (State.choose_only _) (State.hear_only fun t => ?_))
      by_cases e : address.toNat = t.car.val
      · rw [if_pos e]
        exact (s.answerHold_only _ _).mono
      · rw [if_neg e]
        exact (s.failAttempt_only _).mono
    case resend address =>
      refine .next (.step (State.choose_only _) (State.hear_only fun t => ?_))
      by_cases e : address.toNat = t.car.val
      · rw [if_pos e]
        exact (s.answerResend_only _ _).mono
      · rw [if_neg e]
        exact (s.failAttempt_only _).mono
    case resendPauseEnd => exact .ite (.next (s.setLine_only _ _)) (.refl _ _)
    case answerWindowExpiry =>
      exact .ite (.next (.step (State.choose_only _) (.step (State.failAttempt_only _ _) (.step (State.setLine_only _ _ _)
        (.refl _ _))))) (.refl _ _)
    case answerByteTimeout =>
      exact .next (.step (State.choose_only _) (.step (State.cutAnswer_only _ _)
        (.foldl (fun _ _ h => .step (State.answerByte_only _ _ _) h) (.refl _ _))))
    case badAnswer =>
      exact .next (.step (State.choose_only _) (.foldl (fun _ _ h => .step (State.answerByte_only _ _ _) h) (.refl _ _)))
    case contactTimer =>
      exact .ite (.next (.step (State.choose_only _) (.step (State.closeCars_only _ _) (.step (State.loseContact_only _ _ _)
        (.refl _ _))))) (.refl _ _)
    case abandonTimer =>
      exact .ite (.next (.step (State.choose_only _) (.step (State.closeCars_only _ _) (.step (State.cancelAll_only _ _ _)
        (.refl _ _))))) (.refl _ _)
    case ticketExpiry =>
      exact .ite (.next (.step (State.choose_only _) (.foldl (fun _ _ h => .step (State.post_only _ _ _) h)
        (.step (State.setTickets_only _ _) (.refl _ _))))) (.refl _ _)
    case calendarSecondAdvance => exact .ite (.next (s.setCalendar_only _)) (.refl _ _)
    case replySent => exact execReplySent_only s
    case busyReplySent =>
      exact .ite (.next (.step (State.choose_only _) (.step (State.setHost_only _ _) (.step (State.setHost_only _ _)
        (.refl _ _))))) (.refl _ _)
    case reportSent =>
      show s.leadsTo _ (execReportSent s)
      unfold execReportSent
      split
      · exact .next (.step (State.choose_only _) (.step (State.setHost_only _ _) (.step (State.setHost_only _ _)
          (.refl _ _))))
      all_goals exact .refl _ _
    case reportStopIdleEnd =>
      exact .ite (.next (.step (State.choose_only _) (.step (State.setHost_only _ _) (.refl _ _)))) (.refl _ _)

/-- Settles O2: each command by the frames of the operations it is made of. -/
theorem commandsCompleteAndChangeOnlyTheirBlocks : Obligations.CommandsCompleteAndChangeOnlyTheirBlocks :=
  exec_leadsTo

/-- The frame of a command, for the invariants: a block that it does not reach stays. -/
theorem exec_changesOnly {c : Instr} {s t : State} (h : exec c s = .next t) : s.changesOnly (blocksOf c) t := by
  obtain ⟨u, hu, only⟩ := exec_leadsTo c s
  cases hu.symm.trans h
  exact only

end Sys2Proof.Machine
end

section
/-! SUPPORT and PROOF for O53 (R166, R174 to R176, R13, R14): what every command does to the host port and to the bytes of
the store, each said once, and the step that runs the front command or ticks. -/

namespace Sys2Proof.Machine

/-! ### The step -/

/-- What a tick and every command keep, every step keeps. -/
theorem step_keeps {P : State → Prop} (pending : ∀ s q, P s → P (s.setPending q)) (tick : ∀ s, P s → P s.tick)
    (command : ∀ i s t, P s → exec i s = .next t → P t) {s t : State} (h : P s) (run : step s = .next t) : P t := by
  unfold step at run
  split at run
  · exact command _ _ _ (pending _ _ h) run
  · cases run
    exact tick s h

theorem State.tick_only (s : State) : s.changesOnly [.part, .lines] s.tick := by
  unfold State.tick
  exact .ite (.refl _ _) (.step (State.setLines_only _ _) (.step (State.setPart_only _ _) (.refl _ _)))

/-- A command that acts only under a condition. -/
theorem next_ite_cases {p : Prop} [Decidable p] {a b t : State}
    (h : (if p then .next a else .next b : Host.Outcome State Fault Refusal) = .next t) : (p ∧ t = a) ∨ (¬p ∧ t = b) := by
  split at h <;> cases h
  · exact .inl ⟨‹_›, rfl⟩
  · exact .inr ⟨‹_›, rfl⟩

/-! ### Reports posted (R173) -/

/-- From `s` to `t` the host port is changed by posting reports and in no other way. -/
def State.postsOnly (s t : State) : Prop :=
  ∀ Q : HostPort → Prop, (∀ h r, Q h → Q (h.post r)) → Q s.host → Q t.host

theorem State.postsOnly.refl (s : State) : s.postsOnly s := fun _ _ h => h

theorem State.postsOnly.trans {s t u : State} (h : s.postsOnly t) (g : t.postsOnly u) : s.postsOnly u :=
  fun Q hQ q => g Q hQ (h Q hQ q)

/-- One more operation. -/
theorem State.postsOnly.step {s t u : State} (g : t.postsOnly u) (h : s.postsOnly t) : s.postsOnly u := h.trans g

theorem State.postsOnly.ite {p : Prop} [Decidable p] {s t u : State} (h : s.postsOnly t) (g : s.postsOnly u) :
    s.postsOnly (if p then t else u) := by
  split <;> assumption

theorem State.postsOnly.of_host {s t : State} (h : t.host = s.host) : s.postsOnly t := fun _ _ q => h ▸ q

theorem State.changesOnly.postsOnly {s t : State} {bs : List Block} (h : s.changesOnly bs t)
    (hb : .host ∉ bs := by first | decide | (simp only [blocksOf]; decide)) : s.postsOnly t := .of_host (h .host hb)

theorem State.event.postsOnly {s t : State} (h : s.event t) : s.postsOnly t := h.posts

theorem State.post_postsOnly (s : State) (k : ReportClass) (x : ReportBody) : s.postsOnly (s.post k x) :=
  fun _ hQ q => hQ _ _ q

theorem State.postsOnly.foldl {α : Type} {s t : State} {f : State → α → State} {xs : List α}
    (hf : ∀ u x, s.postsOnly u → s.postsOnly (f u x)) (h : s.postsOnly t) : s.postsOnly (xs.foldl f t) := by
  induction xs generalizing t with
  | nil => exact h
  | cons x xs ih => exact ih (hf t x h)

theorem State.changeMode_postsOnly (s : State) (b : Bank) (new : BankMode) (i : Bool) :
    s.postsOnly (s.changeMode b new i) := by
  cases hm : s.mode b with
  | none =>
    unfold State.changeMode
    rw [hm]
    exact .refl s
  | some old => exact .step (State.changeMode_event hm).postsOnly (.of_host rfl)

theorem State.forceRecall_postsOnly (s : State) (b : Bank) : s.postsOnly (s.forceRecall b) := by
  unfold State.forceRecall
  exact .ite (.refl s) (s.changeMode_postsOnly _ _ _)

theorem State.postScanFaults_postsOnly (s : State) : s.postsOnly s.postScanFaults :=
  .foldl (fun _ _ h => .step (State.post_postsOnly _ _ _) h) (.refl s)

theorem State.postRecalls_postsOnly (s : State) : s.postsOnly s.postRecalls :=
  .foldl (fun _ _ h => .step (State.post_postsOnly _ _ _) h) (.refl s)

theorem State.postStartGroups_postsOnly (s : State) : s.postsOnly s.postStartGroups := by
  have free : s.postsOnly (s.setFree (s.freeCount + 1)) := .of_host rfl
  unfold State.postStartGroups
  exact .ite
    (.ite (.step (State.postRecalls_postsOnly _) (.step (State.postScanFaults_postsOnly _) free))
      (.step (State.postScanFaults_postsOnly _) (.step (State.postRecalls_postsOnly _) free)))
    (.step (State.postRecalls_postsOnly _) s.postScanFaults_postsOnly)

theorem State.jobCompleted_postsOnly (s : State) (g : Program) : s.postsOnly (s.jobCompleted g) := by
  unfold State.jobCompleted
  split
  · exact .refl s
  · exact .of_host rfl
  · exact .of_host rfl
  · exact .of_host rfl
  · exact .of_host rfl
  · exact (s.changeFloors_event _).postsOnly
  · exact .step (State.recount_event _ _).postsOnly (.of_host rfl)
  · exact .of_host rfl
  · unfold State.modeCompleted
    exact .ite (.of_host rfl) (.ite (.of_host rfl) (.step (State.changeMode_postsOnly _ _ _ _) (.of_host rfl)))
  · exact (s.changeWithdrawn_event _ _ _).postsOnly
  · unfold State.erasedPage
    refine .ite (s.setPolicy_only _).postsOnly (.ite (s.changeFloors_event _).postsOnly
      (.ite s.eraseBanks_event.postsOnly (.ite ?_ (.refl s))))
    exact .foldl (fun _ _ h => .step (State.reloadPort_only _ _).postsOnly h) (s.setPolicy_only _).postsOnly

theorem State.deny_postsOnly (s : State) (x : Presentation) (e : DenyReason) (d : Option Floor) :
    s.postsOnly (s.deny x e d) := .step (State.post_postsOnly _ _ _) (.of_host rfl)

theorem State.cancelSuperseded_postsOnly (s : State) (o : Option Booking) : s.postsOnly (s.cancelSuperseded o) := by
  cases o with
  | none => exact .refl s
  | some k => exact (s.cancel_event _ _).postsOnly

theorem State.grant_postsOnly (s : State) (x : Presentation) (r : Credential) (h d : Floor) (id : Nat) (c : Choice)
    (u : Bool) : s.postsOnly (s.grant x r h d id c u) := by
  unfold State.grant
  simp only
  exact .step (State.post_postsOnly _ _ _) (.step (State.setPort_only _ _ _).postsOnly
    (.step (State.cancelSuperseded_postsOnly _ _) (.step (State.grantTicket_only _ _ _ _ _ _).postsOnly
      (.step (State.place_only _ _).postsOnly (s.setDisp_only _).postsOnly))))

theorem State.decideTrip_postsOnly (s : State) (x : Presentation) (r : Credential) (h : Floor) (bs : BankSet) (d : Floor)
    (u : Bool) : s.postsOnly (s.decideTrip x r h bs d u) := by
  unfold State.decideTrip
  split
  · exact .step (State.deny_postsOnly _ _ _ _) (.ite (.of_host rfl) (.refl s))
  · exact s.grant_postsOnly _ _ _ _ _ _ _

theorem State.decide_postsOnly (s : State) (x : Presentation) (h : Floor) (bs : BankSet) :
    s.postsOnly (s.decide x h bs) := by
  have kept : ∀ (p : Prop) [Decidable p], s.postsOnly (if p then s.removeTicket x.badge else s) :=
    fun p _ => .ite (.of_host rfl) (.refl s)
  unfold State.decide
  split
  · exact .of_host rfl
  · exact s.deny_postsOnly _ _ _
  · unfold State.decideJourney
    dsimp only
    split
    · exact s.decideTrip_postsOnly _ _ _ _ _ _
    · split
      · exact .step (State.deny_postsOnly _ _ _ _) (kept _)
      · exact .step (State.decideTrip_postsOnly _ _ _ _ _ _ _) (kept _)

theorem State.readerArrival_postsOnly (s : State) (p : PortNo) (f : ReaderFrame) :
    s.postsOnly (s.readerArrival p f) := by
  cases f with
  | ping =>
    unfold State.readerArrival State.pingArrival
    exact .ite (.refl s) (.ite (.refl s) (.of_host rfl))
  | present badge floor kind =>
    have denied : ∀ b, s.postsOnly (s.denyTap p b) := fun b => .step (State.post_postsOnly _ _ _) (.of_host rfl)
    unfold State.readerArrival State.presentArrival
    refine .ite (.refl s) (.ite (.of_host rfl) ?_)
    split
    · exact .refl s
    · exact .refl s
    · exact .of_host rfl
    · exact .of_host rfl
    · unfold State.presentIdle
      refine .ite (denied _) ?_
      split
      · exact denied _
      · exact (s.repeatFilter_only _ _ _).postsOnly

theorem State.readerFrame_postsOnly (s : State) (p : PortNo) (f : Option ReaderFrame) :
    s.postsOnly (s.readerFrame p f) := by
  unfold State.readerFrame
  split
  · exact .of_host rfl
  · exact .step (State.readerArrival_postsOnly _ _ _) (.of_host rfl)

theorem State.readerByte_postsOnly (p : PortNo) (s : State) (b : Byte) : s.postsOnly (s.readerByte p b) := by
  unfold State.readerByte
  split
  · exact .of_host rfl
  · exact s.readerFrame_postsOnly _ _

theorem State.endTransaction_postsOnly (s : State) (l : Bank) (t : Transaction) :
    s.postsOnly (s.endTransaction l t) := by
  unfold State.endTransaction State.clearFault
  exact .ite (.step (State.post_postsOnly _ _ _) (.of_host rfl)) (.of_host rfl)

theorem State.failAttempt_postsOnly (s : State) (l : Bank) : s.postsOnly (s.failAttempt l) := by
  unfold State.failAttempt
  split
  · exact .refl s
  · exact .ite (.of_host rfl) (s.endTransaction_postsOnly _ _)

theorem State.mismatch_postsOnly (s : State) (l : Bank) (t : Transaction) : s.postsOnly (s.mismatch l t) := by
  unfold State.mismatch State.enterFault
  exact .ite (.of_host rfl) (.ite (.of_host rfl) (.step (State.post_postsOnly _ _ _) (.of_host rfl)))

theorem State.answerStatus_postsOnly (s : State) (l : Bank) (t : Transaction) (st : Status) :
    s.postsOnly (s.answerStatus l t st) :=
  .step (State.endTransaction_postsOnly _ _ _) (.step (State.closeCars_event _ _).postsOnly
    (s.takeStatus_event _ _ _ _).postsOnly)

theorem State.takeAnswer_postsOnly (s : State) (l : Bank) (t : Transaction) (a : Option CarAnswer) :
    s.postsOnly (s.takeAnswer l t a) := by
  unfold State.takeAnswer
  split
  · exact s.failAttempt_postsOnly _
  · exact s.answerStatus_postsOnly _ _ _
  · unfold State.answerHold
    exact .ite (.of_host rfl) (.step (State.failAttempt_postsOnly _ _) (.of_host rfl))
  · unfold State.answerResend
    exact .ite (.of_host rfl) (.step (State.failAttempt_postsOnly _ _) (.of_host rfl))

theorem State.hear_postsOnly {s : State} {l : Bank} {f : Transaction → State} (h : ∀ t, s.postsOnly (f t)) :
    s.postsOnly (s.hear l f) := by
  unfold State.hear
  split
  · split
    · exact h _
    · exact .refl s
  · exact .refl s

theorem State.answerByte_postsOnly (l : Bank) (s : State) (b : Byte) : s.postsOnly (s.answerByte l b) := by
  refine State.hear_postsOnly fun t => ?_
  split
  · exact .of_host rfl
  · exact s.takeAnswer_postsOnly _ _ _

/-! ### What a command does to the host port -/

/-- A property `Q` that every operation on the host port keeps, and a property `R` that the transmitter's choice gives it
where `Q` holds. -/
structure HostPort.Laws (Q R : HostPort → Prop) : Prop where
  weaken : ∀ h, R h → Q h
  choose : ∀ h, Q h → R h.choose
  hunt : ∀ h bs, R h → R { h with rx := bs }
  reset : R HostPort.reset
  rx : ∀ h bs, Q h → Q { h with rx := bs }
  post : ∀ h r, Q h → Q (h.post r)
  owed : ∀ h x, Q h → Q { h with owedBusy := some x }
  reply : ∀ h type tag status body, Q h → Q (h.reply type tag status body)
  executes : ∀ h type tag, Q h → h.request = .idle → Q { h with request := .executing type tag }
  enables : ∀ h e, Q h → Q { h with enables := e }
  replySent : ∀ h, Q h → Q { h with request := .idle, tx := .free }
  busySent : ∀ h, Q h → Q { h with owedBusy := none, tx := .free }
  reportSent : ∀ h cls, Q h → Q { h with queue := removeOldest cls h.queue, tx := .free }
  idleEnd : ∀ h, Q h → Q { h with tx := .free }

section
variable {Q R : HostPort → Prop} (laws : HostPort.Laws Q R)
include laws

theorem State.takeRequest_host {s : State} (idle : s.host.request = .idle) (h : Q s.host) (tag : Byte) (r : Request) :
    Q (s.takeRequest tag r).host := by
  have only := s.judge_within r
  unfold State.takeRequest
  split
  · exact laws.reply _ _ _ _ _ h
  next t _ e =>
    refine laws.reply _ _ _ _ _ ?_
    rw [e] at only
    by_cases hb : .host ∈ r.blocks
    · cases r with
      | setReports kinds =>
        simp only [State.judge, State.judgeSetReports] at e
        split at e <;> cases e
        exact laws.enables _ _ h
      | _ => exact absurd hb (by simp [Request.blocks])
    · rw [show t.host = s.host from only.2 .host hb]
      exact h
  · exact laws.executes _ _ _ h idle
  · exact laws.executes _ _ _ h idle

theorem State.hostFrame_host {s : State} (h : Q s.host) (tag : Byte) (r : Request) : R (s.hostFrame tag r).host := by
  refine laws.choose _ ?_
  have hunts : Q s.hostHunt.host := laws.rx _ _ h
  unfold State.goodFrame
  split
  next takes =>
    refine State.takeRequest_host laws ?_ hunts _ _
    simp only [State.takes, Bool.and_eq_true, decide_eq_true_eq] at takes
    exact takes.2
  next =>
    split
    · exact laws.owed _ _ hunts
    · exact hunts

theorem State.hostByte_host {s : State} (h : R s.host) (b : Byte) : R (s.hostByte b).host := by
  unfold State.hostByte
  split
  · exact laws.hunt _ _ h
  · split
    · exact laws.hunt _ _ h
    · exact State.hostFrame_host laws (laws.weaken _ h) _ _

theorem State.hostBytes_host {s : State} (h : R s.host) (bs : List Byte) : R (bs.foldl State.hostByte s).host := by
  induction bs generalizing s with
  | nil => exact h
  | cons b bs ih => exact ih (State.hostByte_host laws h b)

/-- Reports are posted and the transmitter chooses. -/
theorem State.postsOnly.choose_host {s t : State} (only : s.postsOnly t) (h : R s.host) : R t.choose.host :=
  laws.choose _ (only Q laws.post (laws.weaken _ h))

theorem State.completeRequest_host {s : State} (h : Q s.host) (status : ReplyStatus) :
    Q (s.completeRequest status).host := by
  unfold State.completeRequest
  split
  · exact laws.reply _ _ _ _ _ h
  all_goals exact h

theorem exec_host {i : Instr} {s t : State} (h : R s.host) (run : exec i s = .next t) : R t.host := by
  by_cases hb : .host ∈ blocksOf i
  swap
  · rw [show t.host = s.host from exec_changesOnly run .host hb]
    exact h
  have weak := laws.weaken _ h
  cases hr : requestOf i with
  | some x =>
    obtain ⟨tag, r⟩ := x
    cases (exec_of_requestOf hr s).symm.trans run
    exact State.hostFrame_host laws weak _ _
  | none =>
    cases i <;> simp only [requestOf, reduceCtorEq] at hr <;>
      first | (exact absurd hb (by simp only [blocksOf]; decide)) | skip
    case resetPin =>
      cases run
      exact laws.reset
    case startUpScanEnd =>
      rcases next_ite_cases run with ⟨_, rfl⟩ | ⟨_, rfl⟩
      · exact (State.postsOnly.step (State.postStartGroups_postsOnly _)
          (.step (State.post_postsOnly _ _ _) (.of_host rfl))).choose_host laws h
      · exact h
    case hostPartialFrameTimeout bs =>
      cases run
      exact laws.hunt _ _ (State.hostBytes_host laws h bs)
    case verifyMatch =>
      change execVerifyMatch s = _ at run
      unfold execVerifyMatch at run
      split at run <;> cases run
      · exact h
      next g _ =>
        refine laws.choose _ (State.completeRequest_host laws ?_ _)
        have only : s.postsOnly (s.closeCars ((s.setStore (s.store.complete g)).jobCompleted g)) :=
          .step (State.closeCars_event _ _).postsOnly (.step (State.jobCompleted_postsOnly _ _) (.of_host rfl))
        exact only Q laws.post weak
    case verifyMismatch =>
      change execVerifyMismatch s = _ at run
      unfold execVerifyMismatch at run
      split at run <;> cases run
      · exact h
      next g _ =>
        refine laws.choose _ (State.completeRequest_host laws ?_ _)
        have only : s.postsOnly (((s.setStore (s.store.spoil s.freeCount g)).setFree (s.freeCount + 1)).post .urgent
            (.storeFault g.page true)) :=
          .step (State.post_postsOnly _ _ _) (.step (State.setFree_only _ _).postsOnly (s.setStore_only _).postsOnly)
        exact only Q laws.post weak
    case recallInputAsserted b =>
      rcases next_ite_cases run with ⟨_, rfl⟩ | ⟨_, rfl⟩
      · exact State.postsOnly.choose_host laws (.step (State.closeCars_event _ _).postsOnly
          (.step (State.forceRecall_postsOnly _ _) (.step (State.post_postsOnly _ _ _) (.of_host rfl)))) h
      · exact h
    case recallInputDeasserted =>
      rcases next_ite_cases run with ⟨_, rfl⟩ | ⟨_, rfl⟩
      · exact State.postsOnly.choose_host laws (.step (State.post_postsOnly _ _ _) (.of_host rfl)) h
      · exact h
    case lrqAsserted =>
      rcases next_ite_cases run with ⟨_, rfl⟩ | ⟨_, rfl⟩
      · exact State.postsOnly.choose_host laws (.step (State.post_postsOnly _ _ _) (.of_host rfl)) h
      · exact h
    case lrqDeasserted =>
      rcases next_ite_cases run with ⟨_, rfl⟩ | ⟨_, rfl⟩
      · exact State.postsOnly.choose_host laws (.step (State.post_postsOnly _ _ _) (.of_host rfl)) h
      · exact h
    case present =>
      cases run
      exact (State.readerFrame_postsOnly _ _ _).choose_host laws h
    case ping =>
      cases run
      exact (State.readerFrame_postsOnly _ _ _).choose_host laws h
    case readerPartialFrameTimeout =>
      cases run
      exact State.postsOnly.choose_host laws (.step (.of_host rfl)
        (.foldl (fun _ _ h => .step (State.readerByte_postsOnly _ _ _) h) (.refl s))) h
    case decisionMoment =>
      change execDecisionMoment s = _ at run
      unfold execDecisionMoment at run
      split at run <;> cases run
      · exact State.postsOnly.choose_host laws (.step (State.setEngine_only _ _).postsOnly (.step (State.closeCars_event _ _).postsOnly
          (s.decide_postsOnly _ _ _))) h
      · exact h
    case readbackMismatch =>
      change execReadbackMismatch _ s = _ at run
      unfold execReadbackMismatch at run
      split at run
      · split at run <;> cases run
        · exact (s.mismatch_postsOnly _ _).choose_host laws h
        · exact h
      · cases run
        exact h
    case status =>
      cases run
      exact (State.hear_postsOnly fun _ => s.takeAnswer_postsOnly _ _ _).choose_host laws h
    case hold =>
      cases run
      exact (State.hear_postsOnly fun _ => s.takeAnswer_postsOnly _ _ _).choose_host laws h
    case resend =>
      cases run
      exact (State.hear_postsOnly fun _ => s.takeAnswer_postsOnly _ _ _).choose_host laws h
    case answerWindowExpiry =>
      rcases next_ite_cases run with ⟨_, rfl⟩ | ⟨_, rfl⟩
      · exact State.postsOnly.choose_host laws (.step (State.failAttempt_postsOnly _ _) (.of_host rfl)) h
      · exact h
    case answerByteTimeout =>
      cases run
      refine State.postsOnly.choose_host laws (.step (State.hear_postsOnly fun _ => ?_)
        (.foldl (fun _ _ h => .step (State.answerByte_postsOnly _ _ _) h) (.refl s))) h
      exact .ite (.refl _) (State.failAttempt_postsOnly _ _)
    case badAnswer =>
      cases run
      exact (State.postsOnly.foldl (fun _ _ h => .step (State.answerByte_postsOnly _ _ _) h) (.refl s)).choose_host laws h
    case contactTimer =>
      rcases next_ite_cases run with ⟨_, rfl⟩ | ⟨_, rfl⟩
      · exact State.postsOnly.choose_host laws (.step (State.closeCars_event _ _).postsOnly
          (.step (State.reportService_event _ _ _ _ _).postsOnly (State.setService_event _ _ _ _).postsOnly)) h
      · exact h
    case abandonTimer =>
      rcases next_ite_cases run with ⟨_, rfl⟩ | ⟨_, rfl⟩
      · exact State.postsOnly.choose_host laws (.step (State.closeCars_event _ _).postsOnly
          (s.cancelAll_event _ _).postsOnly) h
      · exact h
    case ticketExpiry =>
      rcases next_ite_cases run with ⟨_, rfl⟩ | ⟨_, rfl⟩
      · exact State.postsOnly.choose_host laws (.foldl (fun _ _ h => .step (State.post_postsOnly _ _ _) h)
          (.of_host rfl)) h
      · exact h
    case replySent =>
      change execReplySent s = _ at run
      unfold execReplySent at run
      split at run
      · split at run <;> cases run
        · unfold State.replyDone
          split
          · exact laws.reset
          · exact laws.choose _ (laws.replySent _ weak)
        all_goals exact h
      · cases run
        exact h
    case busyReplySent =>
      rcases next_ite_cases run with ⟨_, rfl⟩ | ⟨_, rfl⟩
      · exact laws.choose _ (laws.busySent _ weak)
      · exact h
    case reportSent =>
      change execReportSent s = _ at run
      unfold execReportSent at run
      split at run <;> cases run
      · exact laws.choose _ (laws.reportSent _ _ weak)
      all_goals exact h
    case reportStopIdleEnd =>
      rcases next_ite_cases run with ⟨_, rfl⟩ | ⟨_, rfl⟩
      · exact laws.choose _ (laws.idleEnd _ weak)
      · exact h
end

/-! ### The queue's bound (R176) -/

theorem HostPort.stopRoutine_keeps (h : HostPort) :
    h.stopRoutine.queue = h.queue ∧ h.stopRoutine.request = h.request ∧ h.stopRoutine.owedBusy = h.owedBusy := by
  unfold HostPort.stopRoutine
  split <;> exact ⟨rfl, rfl, rfl⟩

theorem HostPort.post_queue_length {h : HostPort} (bound : h.queue.length ≤ 32) (r : Report) :
    (h.post r).queue.length ≤ 32 := by
  unfold HostPort.post
  split
  · split
    next room =>
      have : h.queue.length < 32 := room
      simp only [HostPort.join_queue, List.length_append, List.length_singleton]
      omega
    · split
      · exact bound
      · split
        · exact bound
        next q dropped =>
          obtain ⟨-, -, shorter, -⟩ := dropUnsentRoutine_spec dropped
          simp only [HostPort.join_queue, List.length_append, List.length_singleton]
          omega
  · exact bound

theorem removeOldest_length_le (cls : ReportClass) (q : List Report) : (removeOldest cls q).length ≤ q.length := by
  induction q with
  | nil => exact Nat.le_refl _
  | cons r rs ih =>
    unfold removeOldest
    split <;> simp only [List.length_cons] <;> omega

theorem HostPort.choose_queue_length (h : HostPort) : h.choose.queue.length = h.queue.length := by
  unfold HostPort.choose
  split
  · split
    · rfl
    · split
      · rfl
      · split
        · rfl
        · exact markOldest_length _ _ _
  · rfl

theorem queueLaws : HostPort.Laws (fun h => h.queue.length ≤ 32) (fun h => h.queue.length ≤ 32) where
  weaken _ h := h
  choose h bound := by rw [h.choose_queue_length]; exact bound
  hunt _ _ h := h
  reset := by decide
  rx _ _ h := h
  post _ r bound := HostPort.post_queue_length bound r
  owed _ _ h := h
  reply _ _ _ _ _ h := h
  executes _ _ _ h _ := h
  enables _ _ h := h
  replySent _ h := h
  busySent _ h := h
  reportSent _ _ bound := Nat.le_trans (removeOldest_length_le _ _) bound
  idleEnd _ h := h

/-! ### What the transmitter sends (R166, R174, R175) -/

/-- What the transmitter sends is there to be sent; a free one may still have something to choose. -/
def HostPort.sends (h : HostPort) : Prop :=
  match h.tx with
  | .free => True
  | .sendingReply => ∃ r, h.request = .replying r
  | .sendingBusy => h.owedBusy ≠ none
  | .sendingReport .urgent => ∃ r ∈ h.queue, r.cls = .urgent
  | .sendingReport .routine => (∃ r ∈ h.queue, r.cls = .routine) ∧ ∀ r ∈ h.queue, r.cls ≠ .urgent
  | .stopIdle => True

/-- What the transmitter sends is there to be sent, and nothing waits while it is free: `State.transmitterOk`, of the
host port alone. -/
def HostPort.sound (h : HostPort) : Prop :=
  h.sends ∧ (h.tx = .free → (∀ r, h.request ≠ .replying r) ∧ h.owedBusy = none ∧ h.queue = [])

theorem State.transmitterOk_iff {s : State} : s.transmitterOk ↔ s.host.sound := by
  unfold State.transmitterOk HostPort.sound HostPort.sends
  cases s.host.tx with
  | sendingReport cls => cases cls <;> simp
  | _ => simp


theorem HostPort.sends_of_tx {h : HostPort} (idle : h.tx = .free ∨ h.tx = .stopIdle) : h.sends := by
  unfold HostPort.sends
  rcases idle with e | e <;> rw [e] <;> trivial

theorem HostPort.join_sends {h : HostPort} (sends : h.sends) (r : Report) : (h.join r).sends := by
  by_cases stops : r.cls = .urgent ∧ h.tx = .sendingReport .routine
  · exact HostPort.sends_of_tx (.inr (HostPort.join_tx_of_stops stops.1 stops.2))
  · have keeps : r.cls = .routine ∨ h.tx ≠ .sendingReport .routine := by
      cases hc : r.cls
      · exact .inl rfl
      · exact .inr fun e => stops ⟨hc, e⟩
    rw [HostPort.join_of_keeps keeps]
    unfold HostPort.sends at sends ⊢
    cases htx : h.tx with
    | sendingReport cls =>
      rw [htx] at sends
      cases cls with
      | urgent =>
        obtain ⟨x, hx, e⟩ := sends
        exact ⟨x, List.mem_append_left _ hx, e⟩
      | routine =>
        obtain ⟨⟨x, hx, e⟩, none⟩ := sends
        have routine := keeps.resolve_right (absurd htx)
        refine ⟨⟨x, List.mem_append_left _ hx, e⟩, fun y hy => ?_⟩
        rcases List.mem_append.1 hy with hy | hy
        · exact none y hy
        · rw [List.mem_singleton.1 hy, routine]
          decide
    | sendingReply => simpa [htx] using sends
    | sendingBusy => simpa [htx] using sends
    | _ => trivial

theorem HostPort.post_sends {h : HostPort} (sends : h.sends) (r : Report) : (h.post r).sends := by
  unfold HostPort.post
  split
  · split
    · exact HostPort.join_sends sends r
    · split
      · exact sends
      · split
        · exact sends
        next q dropped =>
          obtain ⟨sub, urgents, -, routine⟩ := dropUnsentRoutine_spec dropped
          refine HostPort.join_sends ?_ r
          unfold HostPort.sends at sends ⊢
          cases htx : h.tx with
          | sendingReport cls =>
            rw [htx] at sends
            cases cls with
            | urgent =>
              obtain ⟨x, hx, e⟩ := sends
              exact ⟨x, urgents x hx e, e⟩
            | routine =>
              exact ⟨routine (by simp [htx]), fun y hy => sends.2 y (sub y hy)⟩
          | sendingReply => simpa [htx] using sends
          | sendingBusy => simpa [htx] using sends
          | _ => trivial
  · exact sends

theorem oldestOf_isSome {cls : ReportClass} {q : List Report} :
    (oldestOf cls q).isSome = true ↔ ∃ r ∈ q, r.cls = cls := by
  simp [oldestOf, List.find?_isSome]

theorem headClass_eq_none {q : List Report} (h : headClass q = none) : q = [] := by
  unfold headClass at h
  split at h
  · cases h
  · split at h
    · cases h
    next noUrgent noRoutine =>
      rw [oldestOf_isSome] at noUrgent noRoutine
      rw [List.eq_nil_iff_forall_not_mem]
      intro r hr
      cases hc : r.cls
      · exact noRoutine ⟨r, hr, hc⟩
      · exact noUrgent ⟨r, hr, hc⟩

theorem headClass_eq_some {q : List Report} {cls : ReportClass} (h : headClass q = some cls) :
    (∃ r ∈ q, r.cls = cls) ∧ (cls = .routine → ∀ r ∈ q, r.cls ≠ .urgent) := by
  unfold headClass at h
  split at h
  next urgent =>
    cases h
    exact ⟨oldestOf_isSome.1 urgent, nofun⟩
  next noUrgent =>
    split at h
    next routine =>
      cases h
      rw [oldestOf_isSome] at noUrgent
      exact ⟨oldestOf_isSome.1 routine, fun _ r hr e => noUrgent ⟨r, hr, e⟩⟩
    · cases h

/-- R166, R174: a choice gives a free transmitter what is there, or nothing is there. -/
theorem HostPort.choose_sound {h : HostPort} (sends : h.sends) : h.choose.sound := by
  unfold HostPort.choose
  split
  next free =>
    split
    next r replying => exact ⟨⟨r, replying⟩, nofun⟩
    next noReply =>
      split
      next owed => exact ⟨Option.isSome_iff_ne_none.1 owed, nofun⟩
      next notOwed =>
        split
        next empty =>
          exact ⟨HostPort.sends_of_tx (.inl free), fun _ => ⟨noReply, by simpa using notOwed, headClass_eq_none empty⟩⟩
        next cls head =>
          obtain ⟨found, noUrgent⟩ := headClass_eq_some head
          refine ⟨?_, nofun⟩
          cases cls with
          | urgent => exact (markOldest_exists _ _ _ (· = .urgent)).2 found
          | routine =>
            exact ⟨(markOldest_exists _ _ _ (· = .routine)).2 found,
              (markOldest_forall _ _ _ (· ≠ .urgent)).2 (noUrgent rfl)⟩
  next busy => exact ⟨sends, fun free => absurd free busy⟩

theorem HostPort.owed_sends {h : HostPort} (sends : h.sends) (x : Byte × Byte) :
    ({ h with owedBusy := some x } : HostPort).sends := by
  unfold HostPort.sends at sends ⊢
  cases htx : h.tx with
  | sendingBusy => exact Option.some_ne_none x
  | sendingReport cls => cases cls <;> simpa [htx] using sends
  | sendingReply => simpa [htx] using sends
  | _ => trivial

theorem HostPort.reply_sends {h : HostPort} (sends : h.sends) (type tag : Byte) (status : ReplyStatus)
    (body : ReplyBody) : (h.reply type tag status body).sends := by
  unfold HostPort.sends HostPort.reply at *
  cases htx : h.tx with
  | sendingReply => exact ⟨_, rfl⟩
  | sendingReport cls => cases cls <;> simpa [htx] using sends
  | sendingBusy => simpa [htx] using sends
  | _ => trivial

theorem HostPort.executes_sends {h : HostPort} (sends : h.sends) (idle : h.request = .idle) (type tag : Byte) :
    ({ h with request := .executing type tag } : HostPort).sends := by
  unfold HostPort.sends at sends ⊢
  cases htx : h.tx with
  | sendingReply => simp [htx, idle] at sends
  | sendingReport cls => cases cls <;> simpa [htx] using sends
  | sendingBusy => simpa [htx] using sends
  | _ => trivial

theorem HostPort.reset_sound : HostPort.reset.sound := by
  simp [HostPort.sound, HostPort.sends, HostPort.reset]

theorem transmitterLaws : HostPort.Laws HostPort.sends HostPort.sound where
  weaken _ h := h.1
  choose _ sends := HostPort.choose_sound sends
  hunt _ _ h := h
  reset := HostPort.reset_sound
  rx _ _ h := h
  post _ r sends := HostPort.post_sends sends r
  owed _ x sends := HostPort.owed_sends sends x
  reply _ type tag status body sends := HostPort.reply_sends sends type tag status body
  executes _ type tag sends idle := HostPort.executes_sends sends idle type tag
  enables _ _ h := h
  replySent _ _ := HostPort.sends_of_tx (.inl rfl)
  busySent _ _ := HostPort.sends_of_tx (.inl rfl)
  reportSent _ _ _ := HostPort.sends_of_tx (.inl rfl)
  idleEnd _ _ := HostPort.sends_of_tx (.inl rfl)

/-! ### The bytes of the store (R13, R14, R15) -/

theorem State.takeRequest_cells (s : State) (tag : Byte) (r : Request) :
    (s.takeRequest tag r).store.cells = s.store.cells := by
  have only := s.judge_within r
  unfold State.takeRequest
  split
  · rfl
  next t _ e =>
    rw [e] at only
    rw [State.reply_store, show t.store = s.store from only.2 .store only.1]
  · rfl
  · rfl

theorem State.hostFrame_cells (s : State) (tag : Byte) (r : Request) :
    (s.hostFrame tag r).store.cells = s.store.cells := by
  show (s.hostHunt.goodFrame tag r).store.cells = _
  unfold State.goodFrame
  split
  · exact State.takeRequest_cells _ _ _
  · split <;> rfl

theorem State.hostByte_cells (s : State) (b : Byte) : (s.hostByte b).store.cells = s.store.cells := by
  unfold State.hostByte
  split
  · rfl
  · split
    · rfl
    · exact s.hostFrame_cells _ _

theorem State.hostBytes_cells (s : State) (bs : List Byte) : (bs.foldl State.hostByte s).store.cells = s.store.cells := by
  induction bs generalizing s with
  | nil => rfl
  | cons b bs ih => exact (ih _).trans (s.hostByte_cells b)

theorem execVerifyMatch_none {s t : State} (none : s.store.programmer = none) (run : exec .verifyMatch s = .next t) :
    t = s := by
  change execVerifyMatch s = _ at run
  simp only [execVerifyMatch, none, Host.Outcome.next.injEq] at run
  exact run.symm

theorem exec_verifyMatch {s : State} {g : Program} (flight : s.store.programmer = some g) :
    exec .verifyMatch s =
      .next ((s.closeCars ((s.setStore (s.store.complete g)).jobCompleted g)).wakePorts.completeRequest .done).choose := by
  show execVerifyMatch s = _
  simp only [execVerifyMatch, flight]

theorem execVerifyMismatch_none {s t : State} (none : s.store.programmer = none)
    (run : exec .verifyMismatch s = .next t) : t = s := by
  change execVerifyMismatch s = _ at run
  simp only [execVerifyMismatch, none, Host.Outcome.next.injEq] at run
  exact run.symm

theorem exec_verifyMismatch {s : State} {g : Program} (flight : s.store.programmer = some g) :
    exec .verifyMismatch s =
      .next (((((s.setStore (s.store.spoil s.freeCount g)).setFree (s.freeCount + 1)).post .urgent
        (.storeFault g.page true)).wakePorts.completeRequest .storeFault)).choose := by
  show execVerifyMismatch s = _
  simp only [execVerifyMismatch, flight]

/-- R14: after a verify match the store is the completed one. -/
theorem exec_verifyMatch_store {s t : State} {g : Program} (flight : s.store.programmer = some g)
    (run : exec .verifyMatch s = .next t) : t.store = s.store.complete g := by
  cases (exec_verifyMatch flight).symm.trans run
  have job := State.jobCompleted_only (s.setStore (s.store.complete g)) g .store (by decide)
  rw [State.choose_store, (State.completeRequest_only _ _) .store (by decide), State.wakePorts_store]
  exact (s.closeCars_only _ .store (by decide)).trans job

/-- R15: after a verify mismatch the store is the spoiled one. -/
theorem exec_verifyMismatch_store {s t : State} {g : Program} (flight : s.store.programmer = some g)
    (run : exec .verifyMismatch s = .next t) : t.store = s.store.spoil s.freeCount g := by
  cases (exec_verifyMismatch flight).symm.trans run
  rw [State.choose_store, (State.completeRequest_only _ _) .store (by decide), State.wakePorts_store, State.post_store]
  rfl

theorem State.cellsAfterReset_wf {s : State} (h : s.storeOk) : Store.wf s.cellsAfterReset = true := by
  unfold State.cellsAfterReset
  split
  · exact Store.wf_writePage h _ _
  · exact h

theorem StoreBlock.spoil_wf {st : StoreBlock} (h : Store.wf st.cells = true) (n : Nat) (g : Program) :
    Store.wf (st.spoil n g).cells = true := by
  simp only [StoreBlock.spoil]
  exact Store.wf_writePage h g.page (openPage n g.page)

/-- Every command keeps the canonical form. -/
theorem exec_storeOk {i : Instr} {s t : State} (h : s.storeOk) (run : exec i s = .next t) : t.storeOk := by
  have same : t.store.cells = s.store.cells → t.storeOk := fun e => (congrArg (Store.wf · = true) e).mpr h
  by_cases hb : .store ∈ blocksOf i
  swap
  · exact same (congrArg StoreBlock.cells (exec_changesOnly run .store hb))
  cases hr : requestOf i with
  | some x =>
    cases (exec_of_requestOf hr s).symm.trans run
    exact same (s.hostFrame_cells _ _)
  | none =>
    cases i <;> simp only [requestOf, reduceCtorEq] at hr <;>
      first | (exact absurd hb (by simp only [blocksOf]; decide)) | skip
    case resetPin =>
      cases run
      exact State.cellsAfterReset_wf h
    case resetPinRelease =>
      rcases next_ite_cases run with ⟨_, rfl⟩ | ⟨_, rfl⟩
      · exact same rfl
      · exact h
    case hostPartialFrameTimeout bs =>
      cases run
      exact same (s.hostBytes_cells bs)
    case verifyMatch =>
      cases hp : s.store.programmer with
      | none => exact execVerifyMatch_none hp run ▸ h
      | some g =>
        unfold State.storeOk
        rw [exec_verifyMatch_store hp run]
        exact Store.wf_writePage h _ _
    case verifyMismatch =>
      cases hp : s.store.programmer with
      | none => exact execVerifyMismatch_none hp run ▸ h
      | some g =>
        rw [State.storeOk, exec_verifyMismatch_store hp run]
        exact StoreBlock.spoil_wf h _ _
    case replySent =>
      change execReplySent s = _ at run
      unfold execReplySent at run
      split at run
      · split at run <;> cases run
        · unfold State.replyDone
          split
          · exact State.cellsAfterReset_wf h
          · exact h
        all_goals exact h
      · cases run
        exact h

/-- Settles O53: the store by the writes that keep its form, the queue and the transmitter by what a command does to the
host port. -/
theorem stepKeepsTheStoreAndTheHostPort : Obligations.StepKeepsTheStoreAndTheHostPort := by
  refine ⟨fun s t h run => ?store, fun s t h run => ?queue, fun s t h run => ?transmitter⟩
  case store =>
    refine step_keeps (P := State.storeOk) (fun _ _ h => h) (fun s h => ?_) (fun _ _ _ => exec_storeOk) h run
    rw [State.storeOk, show s.tick.store = s.store from s.tick_only .store (by decide)]
    exact h
  case queue =>
    refine step_keeps (P := fun s => s.host.queue.length ≤ 32) (fun _ _ h => h) (fun s h => ?_)
      (fun _ _ _ h run => exec_host queueLaws h run) h run
    rw [s.tick_only .host (by decide)]
    exact h
  case transmitter =>
    rw [State.transmitterOk_iff] at h ⊢
    refine step_keeps (P := fun s => s.host.sound) (fun _ _ h => h) (fun s h => ?_)
      (fun _ _ _ h run => exec_host transmitterLaws h run) h run
    rw [show s.tick.host = s.host from s.tick_only .host (by decide)]
    exact h

end Sys2Proof.Machine
end

section
/-! SUPPORT: the close of an event car by car (R83, R139): each car takes its generation, each line its notices in car
order, and what a sequence of notices makes of a dirty queue. -/

namespace Sys2Proof.Machine

/-! ### A sequence of notices (R139) -/

theorem Line.notice_keeps (ln : Line) (c : CarNo) (was isNow : Bool) :
    ln.notice c was isNow = { ln with queue := (ln.notice c was isNow).queue } := by
  unfold Line.notice
  split
  · rfl
  · split
    · split <;> rfl
    · rfl

theorem Line.notice_queue {ln : Line} {c : CarNo} {was isNow : Bool} (tracked : c ∈ ln.queue ↔ was = true) :
    (ln.notice c was isNow).queue =
      ln.queue.filter (fun x => x ≠ c || isNow) ++ (if isNow && !was then [c] else []) := by
  unfold Line.notice
  cases was <;> cases isNow
  · have out : c ∉ ln.queue := fun h => by simpa using tracked.1 h
    have all : ln.queue.filter (fun x => !decide (x = c)) = ln.queue :=
      List.filter_eq_self.2 fun x hx => by simpa using fun e : x = c => out (e ▸ hx)
    simp [all]
  · have out : c ∉ ln.queue := fun h => by simpa using tracked.1 h
    simp [out]
  · simp
  · simp

/-- The line after notices of several cars. -/
def Line.notices (was isNow : CarNo → Bool) (ln : Line) (cs : List CarNo) : Line :=
  cs.foldl (fun ln c => ln.notice c (was c) (isNow c)) ln

theorem Line.notices_keeps (was isNow : CarNo → Bool) (ln : Line) (cs : List CarNo) :
    ln.notices was isNow cs = { ln with queue := (ln.notices was isNow cs).queue } := by
  induction cs generalizing ln with
  | nil => rfl
  | cons c cs ih =>
    have first := ln.notice_keeps c (was c) (isNow c)
    have rest := ih (ln.notice c (was c) (isNow c))
    show (ln.notice c (was c) (isNow c)).notices was isNow cs =
      { ln with queue := ((ln.notice c (was c) (isNow c)).notices was isNow cs).queue }
    generalize ln.notice c (was c) (isNow c) = step at first rest ⊢
    rw [rest, first]

/-- The cars that stay dirty keep their places, and those that became dirty follow, in the order of the notices. -/
theorem Line.notices_queue {was isNow : CarNo → Bool} {ln : Line} {cs : List CarNo} (once : cs.Nodup)
    (tracked : ∀ c ∈ cs, c ∈ ln.queue ↔ was c = true) :
    (ln.notices was isNow cs).queue =
      ln.queue.filter (fun x => x ∉ cs || isNow x) ++ cs.filter fun c => isNow c && !was c := by
  induction cs generalizing ln with
  | nil => simp [Line.notices]
  | cons c cs ih =>
    obtain ⟨hc, once⟩ := List.nodup_cons.1 once
    have first := Line.notice_queue (isNow := isNow c) (tracked c List.mem_cons_self)
    have rest := ih (ln := ln.notice c (was c) (isNow c)) once fun d hd => by
      rw [Line.mem_notice (tracked c List.mem_cons_self), if_neg fun (e : d = c) => hc (e ▸ hd)]
      exact tracked d (List.mem_cons_of_mem _ hd)
    show ((ln.notice c (was c) (isNow c)).notices was isNow cs).queue = _
    rw [rest, first, List.filter_append, List.filter_filter, List.append_assoc, List.filter_cons]
    congr 1
    · refine List.filter_congr fun x _ => ?_
      by_cases e : x = c
      · subst e
        simp [hc]
      · simp [e]
    · cases isNow c && !was c <;> simp [hc]

/-! ### The close of an event, car by car (R83, R139) -/

theorem State.closeCar_line (s0 s : State) (id : Bank × CarNo) (l : Bank) :
    (s0.closeCar s id).line l =
      if id.1 = l then
        (s.line l).notice id.2 (s0.car l id.2).dirty (Car.closeGeneration (s0.car l id.2) (s.car l id.2)).dirty
      else s.line l := by
  unfold State.closeCar
  split
  next e =>
    subst e
    simp
  next e => rw [State.line_setLine_ne _ _ _ _ e, State.line_setCar]

theorem State.closeCars_fold_car (s0 : State) {ids : List (Bank × CarNo)} (once : ids.Nodup) (u : State) (b : Bank)
    (c : CarNo) :
    (ids.foldl (State.closeCar s0) u).car b c =
      if (b, c) ∈ ids then Car.closeGeneration (s0.car b c) (u.car b c) else u.car b c := by
  induction ids generalizing u with
  | nil => rfl
  | cons id ids ih =>
    obtain ⟨hid, once⟩ := List.nodup_cons.1 once
    rw [List.foldl_cons, ih once]
    by_cases e : (b, c) = id
    · subst e
      rw [if_neg hid, if_pos List.mem_cons_self, State.closeCar_car]
    · rw [State.closeCar_car_ne _ _ (h := e)]
      simp [e]

/-- Each car closes with the generation of its own change. -/
theorem State.closeCars_car (s0 u : State) (b : Bank) (c : CarNo) :
    (s0.closeCars u).car b c = Car.closeGeneration (s0.car b c) (u.car b c) := by
  have all : (b, c) ∈ allCarIds := by revert b c; decide
  rw [State.closeCars, State.closeCars_fold_car s0 (by decide), if_pos all]

theorem State.closeCars_fold_line (s0 : State) {ids : List (Bank × CarNo)} (once : ids.Nodup) (u : State) (l : Bank) :
    (ids.foldl (State.closeCar s0) u).line l =
      (u.line l).notices (fun c => (s0.car l c).dirty)
        (fun c => (Car.closeGeneration (s0.car l c) (u.car l c)).dirty) ((ids.filter fun i => i.1 = l).map Prod.snd) := by
  induction ids generalizing u with
  | nil => rfl
  | cons id ids ih =>
    obtain ⟨hid, once⟩ := List.nodup_cons.1 once
    rw [List.foldl_cons, ih once, State.closeCar_line, List.filter_cons]
    have others : ∀ (ln : Line) (cs : List CarNo), (∀ c ∈ cs, (l, c) ≠ id) →
        ln.notices (fun c => (s0.car l c).dirty)
            (fun c => (Car.closeGeneration (s0.car l c) ((s0.closeCar u id).car l c)).dirty) cs =
          ln.notices (fun c => (s0.car l c).dirty) (fun c => (Car.closeGeneration (s0.car l c) (u.car l c)).dirty) cs := by
      intro ln cs
      induction cs generalizing ln with
      | nil => exact fun _ => rfl
      | cons c cs ihc =>
        intro h
        have hc := State.closeCar_car_ne s0 u (h c List.mem_cons_self)
        unfold Line.notices at ihc ⊢
        simp only [List.foldl_cons]
        rw [hc, ihc _ fun d hd => h d (List.mem_cons_of_mem _ hd)]
    rw [others]
    · split
      next e =>
        simp only [e, decide_true, if_true, List.map_cons]
        rfl
      next e => simp [e]
    · intro c hc e
      obtain ⟨⟨b, d⟩, hd, rfl⟩ := List.mem_map.1 hc
      obtain ⟨hmem, hl⟩ := List.mem_filter.1 hd
      have : b = l := by simpa using hl
      subst this
      exact hid (e ▸ hmem)

/-- Each line takes the notices of its own cars, in car order. -/
theorem State.closeCars_line (s0 u : State) (l : Bank) :
    (s0.closeCars u).line l =
      (u.line l).notices (fun c => (s0.car l c).dirty) (fun c => ((s0.closeCars u).car l c).dirty) allCars := by
  have cars : (allCarIds.filter fun i => i.1 = l).map Prod.snd = allCars := by revert l; decide
  simp only [State.closeCars_car]
  rw [State.closeCars, State.closeCars_fold_line s0 (by decide), cars]

/-- The close leaves all of a line but its queue. -/
theorem State.closeCars_line_keeps (s0 u : State) (l : Bank) :
    (s0.closeCars u).line l = { u.line l with queue := ((s0.closeCars u).line l).queue } := by
  rw [State.closeCars_line]
  exact Line.notices_keeps _ _ _ _

theorem nodup_allCars : allCars.Nodup := List.nodup_finRange 8

theorem mem_allCars (c : CarNo) : c ∈ allCars := List.mem_finRange c

/-- R83, R139: the order in which the close of an event leaves an exact dirty queue. -/
theorem State.closeCars_queue {s u : State} (tracked : s.dirtyOk) (l : Bank)
    (same : (u.line l).queue = (s.line l).queue) :
    ((s.closeCars u).line l).queue = s.dirtyOrder (s.closeCars u) l := by
  obtain ⟨once, mem⟩ := tracked l
  have notices := Line.notices_queue (isNow := fun c => ((s.closeCars u).car l c).dirty) nodup_allCars
    (ln := u.line l) (was := fun c => (s.car l c).dirty) fun c _ => by rw [same, mem c]
  rw [State.closeCars_line, notices, same]
  refine congrArg (· ++ _) (List.filter_congr fun c _ => ?_)
  rw [decide_eq_false (not_not_intro (mem_allCars c)), Bool.false_or]

end Sys2Proof.Machine
end

section
/-! SUPPORT and PROOF for O54 (R83, R139, R140): the order in which each command leaves the dirty queues, and that the queues
stay exact. -/

namespace Sys2Proof.Machine

theorem Car.dirty_iff (c : Car) :
    c.dirty = true ↔ c.service ≠ .absent ∧ (c.confirmed ≠ some c.gen ∨ c.recallDue = true) := by
  simp [Car.dirty, Car.configured]

/-! ### Orders of a dirty queue -/

theorem State.dirtyOrder_of_car_eq {s t : State} {l : Bank} (exact : s.dirtyOk) (same : ∀ c, t.car l c = s.car l c) :
    s.dirtyOrder t l = (s.line l).queue := by
  obtain ⟨-, mem⟩ := exact l
  have kept : (s.line l).queue.filter (fun c => (s.car l c).dirty) = (s.line l).queue :=
    List.filter_eq_self.2 fun c hc => (mem c).1 hc
  simp [State.dirtyOrder, same, kept]

theorem mem_deliveredOrder {q : List CarNo} {c d : CarNo} : d ∈ deliveredOrder q c ↔ d ∈ q := by
  unfold deliveredOrder
  split
  next h =>
    by_cases e : d = c
    · simp [e, h]
    · simp [e]
  · rfl

theorem deliveredOrder_nodup {q : List CarNo} (once : q.Nodup) (c : CarNo) : (deliveredOrder q c).Nodup := by
  unfold deliveredOrder
  split
  · refine List.nodup_append.2 ⟨once.filter _, List.nodup_singleton c, fun a ha b hb e => ?_⟩
    rw [List.mem_singleton.1 hb] at e
    simp [e] at ha
  · exact once

theorem State.mem_dirtyOrder {s t : State} {l : Bank} (exact : s.dirtyOk) {c : CarNo} :
    c ∈ s.dirtyOrder t l ↔ (t.car l c).dirty = true := by
  obtain ⟨-, mem⟩ := exact l
  simp only [State.dirtyOrder, List.mem_append, List.mem_filter, mem, List.mem_finRange, true_and, Bool.and_eq_true,
    Bool.not_eq_true']
  cases (s.car l c).dirty <;> simp

theorem State.dirtyOrder_nodup {s t : State} {l : Bank} (exact : s.dirtyOk) : (s.dirtyOrder t l).Nodup := by
  obtain ⟨once, mem⟩ := exact l
  refine List.nodup_append.2 ⟨once.filter _, (List.nodup_finRange 8).filter _, fun a ha b hb e => ?_⟩
  subst e
  have was := (mem a).1 (List.mem_filter.1 ha).1
  simp [was] at hb

/-! ### What an event leaves of one line's queue (R139, R140) -/

/-- From `s` to `t` a delivery ends on the line. -/
def State.deliveryEnds (s t : State) (l : Bank) (x : Transaction) : Prop :=
  (s.line l).inHand = some x ∧ x.source = .delivery ∧ (t.line l).inHand = none

/-- From `s` to `t` the line's queue changes as R139 and R140 say. -/
def State.queueFollows (s t : State) (l : Bank) : Prop :=
  ((∀ x, ¬ s.deliveryEnds t l x) → (t.line l).queue = s.dirtyOrder t l) ∧
    ∀ x, s.deliveryEnds t l x → (t.line l).queue = deliveredOrder (s.dirtyOrder t l) x.car

theorem State.queueFollows.dirtyOk {s t : State} (exact : s.dirtyOk) (h : ∀ l, s.queueFollows t l) : t.dirtyOk := by
  intro l
  obtain ⟨stays, ends⟩ := h l
  by_cases some : ∃ x, s.deliveryEnds t l x
  · obtain ⟨x, hx⟩ := some
    rw [ends x hx]
    exact ⟨deliveredOrder_nodup (State.dirtyOrder_nodup exact) _, fun c =>
      mem_deliveredOrder.trans (State.mem_dirtyOrder exact)⟩
  · rw [stays fun x hx => some ⟨x, hx⟩]
    exact ⟨State.dirtyOrder_nodup exact, fun c => State.mem_dirtyOrder exact⟩

/-- No transaction ends, and the queue is in the order of the close. -/
theorem State.queueFollows.of_inHand {s t : State} {l : Bank}
    (kept : (t.line l).inHand = none → (s.line l).inHand = none) (queue : (t.line l).queue = s.dirtyOrder t l) :
    s.queueFollows t l :=
  ⟨fun _ => queue, fun x ⟨had, _, gone⟩ => by rw [kept gone] at had; cases had⟩

/-- A transaction ends from a queue in the order of the close. -/
theorem State.queueFollows.of_finish {s t : State} {l : Bank} {x : Transaction} {n : Nat} {ln : Line}
    (had : ∃ y, (s.line l).inHand = some y ∧ y.source = x.source ∧ y.car = x.car) (gone : (t.line l).inHand = none)
    (queue : (t.line l).queue = (ln.finish x n).queue) (before : ln.queue = s.dirtyOrder t l) : s.queueFollows t l := by
  obtain ⟨y, had, source, car⟩ := had
  have finished : (ln.finish x n).queue =
      if x.source = .delivery then deliveredOrder ln.queue x.car else ln.queue := by
    unfold Line.finish Line.close Line.record Line.rotate Line.moveSweep deliveredOrder
    cases x.source
    · dsimp only
      split <;> simp
    · simp
  rw [before] at finished
  refine ⟨fun none => ?_, fun z ⟨hz, delivery, _⟩ => ?_⟩
  · have sweep : x.source ≠ .delivery := fun e => none y ⟨had, source.trans e, gone⟩
    rw [queue, finished, if_neg sweep]
  · cases had.symm.trans hz
    rw [queue, finished, if_pos (source ▸ delivery), car]

/-! ### Steps that leave every queue (a byte heard, a new attempt) -/

/-- From `s` to `t` no car changes, no queue changes, and a transaction in hand stays, but for its counts. -/
structure State.queuesStay (s t : State) : Prop where
  cars : ∀ b c, t.car b c = s.car b c
  queues : ∀ l, (t.line l).queue = (s.line l).queue
  inHand : ∀ l, ((t.line l).inHand.map fun x => (x.car, x.source)) = (s.line l).inHand.map fun x => (x.car, x.source)

theorem State.queuesStay.refl (s : State) : s.queuesStay s := ⟨fun _ _ => rfl, fun _ => rfl, fun _ => rfl⟩

theorem State.queuesStay.trans {s t u : State} (h : s.queuesStay t) (g : t.queuesStay u) : s.queuesStay u :=
  ⟨fun b c => (g.cars b c).trans (h.cars b c), fun l => (g.queues l).trans (h.queues l),
    fun l => (g.inHand l).trans (h.inHand l)⟩

theorem State.queuesStay.of_eq {s t : State} (cars : t.disp.cars = s.disp.cars) (lines : t.lines = s.lines) :
    s.queuesStay t :=
  ⟨fun _ _ => congrArg (Vector.get · _) cars, fun l => by simp only [State.line, lines],
    fun l => by simp only [State.line, lines]⟩

theorem State.queuesStay.setLine {s : State} {l : Bank} {ln : Line} (queue : ln.queue = (s.line l).queue)
    (inHand : (ln.inHand.map fun x => (x.car, x.source)) = (s.line l).inHand.map fun x => (x.car, x.source)) :
    s.queuesStay (s.setLine l ln) := by
  refine ⟨fun _ _ => rfl, fun l' => ?_, fun l' => ?_⟩ <;> by_cases e : l = l'
  · subst e
    rw [State.line_setLine_self, queue]
  · rw [State.line_setLine_ne _ _ _ _ e]
  · subst e
    rw [State.line_setLine_self, inHand]
  · rw [State.line_setLine_ne _ _ _ _ e]

theorem State.queuesStay.dirtyOk {s t : State} (h : s.queuesStay t) (exact : s.dirtyOk) : t.dirtyOk := by
  intro l
  simp only [h.queues, h.cars]
  exact exact l

theorem State.queuesStay.queueFollows {s t : State} (h : s.queuesStay t) (exact : s.dirtyOk) (l : Bank) :
    s.queueFollows t l := by
  refine .of_inHand (fun none => ?_) ?_
  · have := h.inHand l
    simpa [none] using this.symm
  · rw [h.queues, State.dirtyOrder_of_car_eq exact (h.cars l)]

theorem State.queuesStay.deliveryEnds_iff {s t u : State} (h : s.queuesStay t) (l : Bank) (c : CarNo) :
    (∃ x, t.deliveryEnds u l x ∧ x.car = c) ↔ ∃ x, s.deliveryEnds u l x ∧ x.car = c := by
  have same := h.inHand l
  unfold State.deliveryEnds
  cases hs : (s.line l).inHand <;> cases ht : (t.line l).inHand <;> simp [hs, ht] at same ⊢
  rw [same.1, same.2]

theorem State.queuesStay.trans_queueFollows {s t u : State} (h : s.queuesStay t) {l : Bank} (g : t.queueFollows u l) :
    s.queueFollows u l := by
  have order : t.dirtyOrder u l = s.dirtyOrder u l := by simp only [State.dirtyOrder, h.queues, h.cars]
  obtain ⟨stays, ends⟩ := g
  rw [order] at stays ends
  refine ⟨fun none => stays fun x hx => ?_, fun x hx => ?_⟩
  · obtain ⟨y, hy, -⟩ := (h.deliveryEnds_iff l x.car).1 ⟨x, hx, rfl⟩
    exact none y hy
  · obtain ⟨y, hy, car⟩ := (h.deliveryEnds_iff l x.car).2 ⟨x, hx, rfl⟩
    rw [ends y hy, car]

/-! ### Events of the Dispatch Engine -/

/-- An event that reaches no line before its close. -/
theorem State.closeCars_queueFollows {s0 s u t : State} {bs : List Block} (exact : s.dirtyOk)
    (cars : s0.disp.cars = s.disp.cars) (only : s.changesOnly bs u) (hb : .lines ∉ bs)
    (carsAfter : t.disp.cars = (s0.closeCars u).disp.cars) (linesAfter : t.lines = (s0.closeCars u).lines) (l : Bank) :
    s.queueFollows t l := by
  have start : s0.closeCars u = s.closeCars u := by
    unfold State.closeCars
    congr 1
    funext v id
    simp only [State.closeCar, State.car, cars]
  have line : ∀ l, (u.line l) = s.line l := fun l => by rw [State.line, only .lines hb, State.line]
  have keeps := s.closeCars_line_keeps u l
  have same : t.line l = (s.closeCars u).line l := by rw [State.line, linesAfter, start, State.line]
  refine .of_inHand (fun none => ?_) ?_
  · rw [same, keeps, line] at none
    exact none
  · have order : s.dirtyOrder t l = s.dirtyOrder (s.closeCars u) l := by
      simp only [State.dirtyOrder, State.car, carsAfter, start]
    rw [same, order, State.closeCars_queue exact l (by rw [line])]

end Sys2Proof.Machine
end

section
/-! PROOF of O54 (R83, R139, R140), continued: the operations of a line, then each command. -/

namespace Sys2Proof.Machine

theorem State.queueFollows.congr {s t t' : State} {l : Bank} (h : s.queueFollows t l)
    (cars : t'.disp.cars = t.disp.cars) (lines : t'.lines = t.lines) : s.queueFollows t' l := by
  have order : s.dirtyOrder t' l = s.dirtyOrder t l := by simp only [State.dirtyOrder, State.car, cars]
  have line : t'.line l = t.line l := by simp only [State.line, lines]
  unfold State.queueFollows State.deliveryEnds at h ⊢
  rw [order, line]
  exact h

theorem State.queuesStay.congr {s t t' : State} (h : s.queuesStay t) (cars : t'.disp.cars = t.disp.cars)
    (lines : t'.lines = t.lines) : s.queuesStay t' := h.trans (.of_eq cars lines)

/-- A line changes, but neither its queue nor whose transaction it has. -/
theorem State.setLine_queueFollows {s : State} {l : Bank} {ln : Line} (exact : s.dirtyOk)
    (queue : ln.queue = (s.line l).queue)
    (inHand : (ln.inHand.map fun x => (x.car, x.source)) = (s.line l).inHand.map fun x => (x.car, x.source)) (l' : Bank) :
    s.queueFollows (s.setLine l ln) l' := (State.queuesStay.setLine queue inHand).queueFollows exact l'

/-! ### One line's operations -/

/-- A transaction ends at one line of a state whose queues are in the order of the close. -/
theorem State.queueFollows.of_line {s u t : State} {l : Bank} {x : Transaction} {n : Nat}
    (had : ∃ y, (s.line l).inHand = some y ∧ y.source = x.source ∧ y.car = x.car)
    (order : ∀ l', (u.line l').queue = s.dirtyOrder u l') (keeps : ∀ l', (u.line l').inHand = (s.line l').inHand)
    (cars : t.disp.cars = u.disp.cars) (others : ∀ l', l' ≠ l → t.line l' = u.line l') (gone : (t.line l).inHand = none)
    (queue : (t.line l).queue = ((u.line l).finish x n).queue) (l' : Bank) : s.queueFollows t l' := by
  have same : ∀ l, s.dirtyOrder t l = s.dirtyOrder u l := fun l => by simp only [State.dirtyOrder, State.car, cars]
  by_cases e : l' = l
  · subst e
    exact .of_finish had gone queue ((order l').trans (same l').symm)
  · refine .of_inHand (fun none => ?_) ?_
    · rw [← keeps, ← others l' e, none]
    · rw [others l' e, order, same]

/-- The end of a transaction, after the close of an event or without one. -/
theorem State.endTransaction_queueFollows {s u : State} {l : Bank} {x : Transaction}
    (had : ∃ y, (s.line l).inHand = some y ∧ y.source = x.source ∧ y.car = x.car)
    (order : ∀ l', (u.line l').queue = s.dirtyOrder u l') (keeps : ∀ l', (u.line l').inHand = (s.line l').inHand)
    (l' : Bank) : s.queueFollows (u.endTransaction l x) l' := by
  unfold State.endTransaction State.clearFault
  split
  · refine .of_line (n := (u.bank l).carCount) had order keeps (by rfl) (fun l' ne => ?_) ?_ ?_ l'
    · simp [State.line_setLine_ne _ _ _ _ (Ne.symm ne)]
    · simp [Line.finish]
    · simp
  · refine .of_line (n := (u.bank l).carCount) had order keeps (by rfl) (fun l' ne => ?_) ?_ ?_ l'
    · simp [State.line_setLine_ne _ _ _ _ (Ne.symm ne)]
    · simp [Line.finish]
    · simp

theorem State.endTransaction_listening (u : State) (l : Bank) (x : Transaction) :
    ((u.endTransaction l x).line l).listening = false := by
  unfold State.endTransaction State.clearFault
  split <;> simp [Line.listening]

theorem State.enterFault_queueFollows {s : State} (exact : s.dirtyOk) {l : Bank} {x : Transaction}
    (had : (s.line l).inHand = some x) (l' : Bank) : s.queueFollows (s.enterFault l x) l' := by
  have order : ∀ l', (s.line l').queue = s.dirtyOrder s l' := fun l' =>
    (State.dirtyOrder_of_car_eq exact fun _ => rfl).symm
  unfold State.enterFault
  simp only
  split
  · refine .of_line (n := (s.bank l).carCount) ⟨x, had, rfl, rfl⟩ order (fun _ => rfl) (by rfl) (fun l' ne => ?_) ?_ ?_ l'
    · simp [State.line_setLine_ne _ _ _ _ (Ne.symm ne)]
    · simp [Line.finish]
    · simp
  · refine .of_line (n := (s.bank l).carCount) ⟨x, had, rfl, rfl⟩ order (fun _ => rfl) (by rfl) (fun l' ne => ?_) ?_ ?_ l'
    · simp [State.line_setLine_ne _ _ _ _ (Ne.symm ne)]
    · simp [Line.finish]
    · simp

theorem State.mismatch_queueFollows {s : State} (exact : s.dirtyOk) {l : Bank} {x : Transaction}
    (had : (s.line l).inHand = some x) (l' : Bank) : s.queueFollows (s.mismatch l x) l' := by
  unfold State.mismatch
  simp only
  split
  · exact (State.queuesStay.setLine (ln := { s.line l with
        mismatches := (s.line l).mismatches + 1, state := .backoff, inHand := some { x with holds := 0, resends := 0 },
        ends := some ((s.line l).time + 20) }) rfl (by simp [had])).queueFollows exact l'
  · exact State.enterFault_queueFollows exact had l'

/-- What an answer leaves of a line: the transaction goes on, or it ends or is sent again and no more is heard. -/
def State.heard (s t : State) (l : Bank) : Prop :=
  s.queuesStay t ∨ (∀ l', s.queueFollows t l') ∧ (t.line l).listening = false

theorem State.heard.queueFollows {s t : State} {l : Bank} (exact : s.dirtyOk) (h : s.heard t l) (l' : Bank) :
    s.queueFollows t l' :=
  h.elim (fun stay => stay.queueFollows exact l') fun ended => ended.1 l'

/-- More is heard, if the line still listens. -/
theorem State.heard.bind {s t u : State} {l : Bank} (exact : s.dirtyOk) (h : s.heard t l)
    (more : t.dirtyOk → t.heard u l) (deaf : (t.line l).listening = false → u = t) : s.heard u l := by
  rcases h with stay | ⟨ended, hears⟩
  · rcases more (stay.dirtyOk exact) with stays | ⟨ended, hears⟩
    · exact .inl (stay.trans stays)
    · exact .inr ⟨fun l' => stay.trans_queueFollows (ended l'), hears⟩
  · rw [deaf hears]
    exact .inr ⟨ended, hears⟩

theorem State.failAttempt_heard {s : State} (exact : s.dirtyOk) {l : Bank} {x : Transaction}
    (had : (s.line l).inHand = some x) : s.heard (s.failAttempt l) l := by
  simp only [State.failAttempt, had]
  split
  · refine .inr ⟨State.setLine_queueFollows exact rfl (by simp [Line.startSending, had]), ?_⟩
    simp [Line.listening, Line.startSending]
  · exact .inr ⟨State.endTransaction_queueFollows ⟨x, had, rfl, rfl⟩
      (fun l' => (State.dirtyOrder_of_car_eq exact fun _ => rfl).symm) fun _ => rfl, State.endTransaction_listening _ _ _⟩

theorem State.answerStatus_heard {s : State} (exact : s.dirtyOk) {l : Bank} {x : Transaction}
    (had : (s.line l).inHand = some x) (st : Status) : s.heard (s.answerStatus l x st) l := by
  have line : ∀ l, (s.takeStatus l x.car x.kind st).line = s.line := fun l => by
    funext l'
    rw [State.line, (s.takeStatus_only l x.car x.kind st) .lines (by decide), State.line]
  refine .inr ⟨State.endTransaction_queueFollows ⟨x, had, rfl, rfl⟩ (fun l' => ?_) fun l' => ?_,
    State.endTransaction_listening _ _ _⟩
  · exact State.closeCars_queue exact l' (by rw [line])
  · rw [State.closeCars_line_keeps, line]

theorem State.answerHold_heard {s : State} (exact : s.dirtyOk) {l : Bank} {x : Transaction}
    (had : (s.line l).inHand = some x) : s.heard (s.answerHold l x) l := by
  have stay : s.queuesStay
      (s.setLine l ({ s.line l with inHand := some { x with holds := x.holds + 1 } }.listenFor 13)) :=
    .setLine rfl (by simp [Line.listenFor, had])
  unfold State.answerHold
  simp only
  split
  · exact .inl stay
  · exact State.heard.bind exact (.inl stay) (fun exact' => State.failAttempt_heard (x := { x with holds := x.holds + 1 })
      exact' (by simp [Line.listenFor])) fun deaf => by simp [Line.listening, Line.listenFor] at deaf

theorem State.answerResend_heard {s : State} (exact : s.dirtyOk) {l : Bank} {x : Transaction}
    (had : (s.line l).inHand = some x) : s.heard (s.answerResend l x) l := by
  have stay : s.queuesStay (s.setLine l
      { s.line l with
        inHand := some { x with resends := x.resends + 1 }, pausing := true, rx := [],
        ends := some ((s.line l).time + 5) }) := .setLine rfl (by simp [had])
  unfold State.answerResend
  simp only
  split
  · exact .inl stay
  · rcases State.failAttempt_heard (x := { x with resends := x.resends + 1 }) (l := l) (stay.dirtyOk exact) (by simp)
      with stays | ⟨ended, hears⟩
    · exact .inl (stay.trans stays)
    · exact .inr ⟨fun l' => stay.trans_queueFollows (ended l'), hears⟩

theorem State.takeAnswer_heard {s : State} (exact : s.dirtyOk) {l : Bank} {x : Transaction}
    (had : (s.line l).inHand = some x) (a : Option CarAnswer) : s.heard (s.takeAnswer l x a) l := by
  rcases a with _ | st | _ | _
  · exact State.failAttempt_heard exact had
  · exact State.answerStatus_heard exact had st
  · exact State.answerHold_heard exact had
  · exact State.answerResend_heard exact had

theorem State.hear_heard {s : State} {l : Bank} {f : Transaction → State}
    (good : ∀ x, (s.line l).inHand = some x → s.heard (f x) l) : s.heard (s.hear l f) l := by
  unfold State.hear
  split
  · split
    next x had => exact good x had
    next => exact .inl (.refl s)
  · exact .inl (.refl s)

theorem State.hear_deaf {s : State} {l : Bank} (f : Transaction → State) (deaf : (s.line l).listening = false) :
    s.hear l f = s := by simp [State.hear, deaf]

theorem State.answerByte_heard {s : State} (exact : s.dirtyOk) (l : Bank) (b : Byte) : s.heard (State.answerByte l s b) l := by
  refine State.hear_heard fun x had => ?_
  split
  · exact .inl (.setLine rfl rfl)
  · exact State.takeAnswer_heard exact had _

theorem State.answerBytes_heard {s : State} (exact : s.dirtyOk) (l : Bank) (bytes : List Byte) :
    s.heard (bytes.foldl (State.answerByte l) s) l := by
  have all : ∀ (bytes : List Byte) (t : State), s.heard t l → s.heard (bytes.foldl (State.answerByte l) t) l := by
    intro bytes
    induction bytes with
    | nil => exact fun _ h => h
    | cons b bytes ih =>
      exact fun t h => ih _ (h.bind exact (fun exact' => State.answerByte_heard exact' l b) (State.hear_deaf _))
  exact all bytes s (.inl (.refl s))

theorem State.cutAnswer_heard {s : State} (exact : s.dirtyOk) (l : Bank) : s.heard (s.cutAnswer l) l := by
  refine State.hear_heard fun x had => ?_
  split
  · exact .inl (.refl s)
  · exact State.failAttempt_heard exact had

/-! ### Each command -/

theorem State.choice_inHand {s : State} {l : Bank} (gone : (s.choice l).inHand = none) : (s.line l).inHand = none := by
  unfold State.choice at gone
  simp only at gone
  have poll : ∀ r : Line, r.beginPoll.inHand ≠ none := fun r => by
    unfold Line.beginPoll
    split <;> simp [Line.begin, Line.startSending]
  have delivery : ∀ c, (s.beginDelivery l c).inHand ≠ none := fun c => by
    simp [State.beginDelivery, Line.begin, Line.startSending]
  split at gone
  · split at gone
    · exact absurd gone (poll _)
    · exact gone
  · split at gone
    · exact absurd gone (delivery _)
    · split at gone
      · exact absurd gone (poll _)
      · exact absurd gone (delivery _)

theorem State.choice_queue (s : State) (l : Bank) : (s.choice l).queue = (s.line l).queue := by
  have poll : ∀ r : Line, r.beginPoll.queue = r.queue := fun r => by
    unfold Line.beginPoll
    split <;> simp [Line.begin, Line.startSending]
  have delivery : ∀ c, (s.beginDelivery l c).queue = (s.line l).queue := fun c => by
    simp [State.beginDelivery, Line.begin, Line.startSending]
  unfold State.choice
  simp only
  split
  · split
    · exact poll _
    · rfl
  · split
    · exact delivery _
    · split
      · exact poll _
      · exact delivery _

theorem execTransactionChoice_queueFollows {s t : State} {l : Bank} (exact : s.dirtyOk)
    (run : exec (.transactionChoice l) s = .next t) (l' : Bank) : s.queueFollows t l' := by
  rcases next_ite_cases run with ⟨_, rfl⟩ | ⟨_, rfl⟩
  · have order := State.dirtyOrder_of_car_eq (t := s.setLine l (s.choice l)) (l := l') exact fun _ => rfl
    by_cases e : l = l'
    · subst e
      refine .of_inHand (fun none => ?_) ?_
      · rw [State.line_setLine_self] at none
        exact State.choice_inHand none
      · rw [order, State.line_setLine_self, State.choice_queue]
    · have line := State.line_setLine_ne s l l' (s.choice l) e
      exact .of_inHand (fun none => by rwa [line] at none) (by rw [order, line])
  · exact (State.queuesStay.refl _).queueFollows exact l'

/-- R132 to R143: the commands of a line, but its choice and its release. -/
theorem exec_line_queueFollows {s t : State} {i : Instr} (exact : s.dirtyOk) (run : exec i s = .next t)
    (line : ∃ l, i = .sweepDue l ∨ i = .commandSent l ∨ i = .readbackMismatch l ∨ i = .backoffEnd l ∨ i = .faultEnd l ∨
      i = .resendPauseEnd l ∨ i = .answerWindowExpiry l ∨ i = .lrqDeasserted l) (l' : Bank) : s.queueFollows t l' := by
  have stays : s.queueFollows s l' := (State.queuesStay.refl s).queueFollows exact l'
  obtain ⟨l, rfl | rfl | rfl | rfl | rfl | rfl | rfl | rfl⟩ := line
  · change execSweepDue l s = _ at run
    unfold execSweepDue at run
    split at run <;> cases run
    · exact State.setLine_queueFollows exact (by rfl) (by rfl) l'
    · exact stays
  · rcases next_ite_cases run with ⟨_, rfl⟩ | ⟨_, rfl⟩
    · exact State.setLine_queueFollows exact (by rfl) (by rfl) l'
    · exact stays
  · change execReadbackMismatch l s = _ at run
    unfold execReadbackMismatch at run
    split at run
    · split at run <;> cases run
      next x had => exact (State.mismatch_queueFollows exact had l').congr rfl rfl
      next => exact stays
    · cases run
      exact stays
  · rcases next_ite_cases run with ⟨_, rfl⟩ | ⟨_, rfl⟩
    · exact State.setLine_queueFollows exact (by rfl) (by rfl) l'
    · exact stays
  · rcases next_ite_cases run with ⟨_, rfl⟩ | ⟨_, rfl⟩
    · exact State.setLine_queueFollows exact (by rfl) (by rfl) l'
    · exact stays
  · rcases next_ite_cases run with ⟨_, rfl⟩ | ⟨_, rfl⟩
    · exact State.setLine_queueFollows exact (by rfl) (by rfl) l'
    · exact stays
  · rcases next_ite_cases run with ⟨_, rfl⟩ | ⟨_, rfl⟩
    · have waited : s.queuesStay (s.setLine l (s.line l).waited) := .setLine rfl rfl
      cases had : ((s.setLine l (s.line l).waited).line l).inHand with
      | none =>
        have idle : (s.setLine l (s.line l).waited).failAttempt l = s.setLine l (s.line l).waited := by
          simp only [State.failAttempt, had]
        rw [idle]
        exact (waited.queueFollows exact l').congr rfl rfl
      | some x =>
        exact (waited.trans_queueFollows ((State.failAttempt_heard (waited.dirtyOk exact) had).queueFollows
          (waited.dirtyOk exact) l')).congr rfl rfl
    · exact stays
  · rcases next_ite_cases run with ⟨_, rfl⟩ | ⟨_, rfl⟩
    · have level : s.queuesStay (s.setLrq l false) := .of_eq rfl rfl
      have line : (s.setLrq l false).queuesStay ((s.setLrq l false).setLine l { s.line l with state := .idle }) :=
        .setLine rfl rfl
      exact ((level.trans line).queueFollows exact l').congr rfl rfl
    · exact (State.queuesStay.of_eq (s := s) rfl rfl).queueFollows exact l'

/-- R131: the answers of a car. -/
theorem exec_answer_queueFollows {s t : State} {i : Instr} {l : Bank} (exact : s.dirtyOk) (run : exec i s = .next t)
    (answer : (∃ address a, t = (s.hearAnswer l address a).choose) ∨
      (∃ bytes : List Byte, t = (bytes.foldl (State.answerByte l) s).choose) ∨
      ∃ bytes : List Byte, t = ((bytes.foldl (State.answerByte l) s).cutAnswer l).choose) (l' : Bank) : s.queueFollows t l' := by
  obtain ⟨address, a, rfl⟩ | ⟨bytes, rfl⟩ | ⟨bytes, rfl⟩ := answer
  · exact ((State.hear_heard fun x had => State.takeAnswer_heard exact had _).queueFollows exact l').congr rfl rfl
  · exact ((State.answerBytes_heard exact l bytes).queueFollows exact l').congr rfl rfl
  · exact (((State.answerBytes_heard exact l bytes).bind exact (fun exact' => State.cutAnswer_heard exact' l)
      (State.hear_deaf _)).queueFollows exact l').congr rfl rfl

/-! The same after an operation that reaches neither cars nor lines. -/

theorem State.queueFollows.choose {s t : State} {l : Bank} (h : s.queueFollows t l) : s.queueFollows t.choose l :=
  h.congr (by rfl) (by rfl)

theorem State.queueFollows.of_only {s t t' : State} {l : Bank} {bs : List Block} (h : s.queueFollows t l)
    (only : t.changesOnly bs t') (disp : .disp ∉ bs) (lines : .lines ∉ bs) : s.queueFollows t' l :=
  h.congr (congrArg DispatchBlock.cars (only .disp disp)) (only .lines lines)

/-- An event that changes the tables in one go and then closes. -/
theorem State.closed_queueFollows {s0 s u : State} {bs : List Block} (exact : s.dirtyOk)
    (cars : s0.disp.cars = s.disp.cars) (only : s.changesOnly bs u) (hb : .lines ∉ bs) (l : Bank) :
    s.queueFollows (s0.closeCars u) l := State.closeCars_queueFollows exact cars only hb rfl rfl l

theorem execVerifyMatch_queueFollows {s t : State} (exact : s.dirtyOk) (run : exec .verifyMatch s = .next t) (l : Bank) :
    s.queueFollows t l := by
  change execVerifyMatch s = _ at run
  unfold execVerifyMatch at run
  split at run <;> cases run
  next => exact (State.queuesStay.refl s).queueFollows exact l
  next g _ =>
    have stored : s.changesOnly (.store :: policyBlocks) (s.setStore (s.store.complete g)) :=
      .step (State.setStore_only _ _) (.refl _ _)
    have only : s.changesOnly (.store :: policyBlocks) ((s.setStore (s.store.complete g)).jobCompleted g) :=
      .step (State.jobCompleted_only _ _) stored
    have closed := State.closed_queueFollows exact (s0 := s) rfl only (by decide) l
    generalize s.closeCars ((s.setStore (s.store.complete g)).jobCompleted g) = u at closed
    have woken : s.queueFollows u.wakePorts l := closed.congr (by rfl) (by rfl)
    exact (woken.of_only (State.completeRequest_only _ _) (by decide) (by decide)).choose

theorem execRecallInputAsserted_queueFollows {s t : State} {b : Bank} (exact : s.dirtyOk)
    (run : exec (.recallInputAsserted b) s = .next t) (l : Bank) : s.queueFollows t l := by
  rcases next_ite_cases run with ⟨_, rfl⟩ | ⟨_, rfl⟩
  · have only : s.changesOnly (.pins :: eventBlocks)
        (((s.setRcl b true).post .urgent (.recallInput b true)).forceRecall b) :=
      .step (State.forceRecall_only _ b) (.step (State.post_only _ _ _) (.step (State.setPins_only _ _) (.refl _ _)))
    exact (State.closed_queueFollows (s0 := s.setRcl b true) exact (by rfl) only (by decide) l).choose
  · exact (State.queuesStay.of_eq (s := s) rfl rfl).queueFollows exact l

theorem execDecisionMoment_queueFollows {s t : State} (exact : s.dirtyOk) (run : exec .decisionMoment s = .next t)
    (l : Bank) : s.queueFollows t l := by
  change execDecisionMoment s = _ at run
  unfold execDecisionMoment at run
  split at run <;> cases run
  next pres home banks _ _ =>
    have closed := State.closed_queueFollows exact (s0 := s) rfl (State.decide_only s pres home banks) (by decide) l
    exact (closed.of_only (State.setEngine_only _ _) (by decide) (by decide)).choose
  next => exact (State.queuesStay.refl s).queueFollows exact l

theorem execContactTimer_queueFollows {s t : State} {b : Bank} {c : CarNo} (exact : s.dirtyOk)
    (run : exec (.contactTimer b c) s = .next t) (l : Bank) : s.queueFollows t l := by
  rcases next_ite_cases run with ⟨_, rfl⟩ | ⟨_, rfl⟩
  · exact (State.closed_queueFollows exact (s0 := s) rfl (State.loseContact_only s b c) (by decide) l).choose
  · exact (State.queuesStay.refl _).queueFollows exact l

theorem execAbandonTimer_queueFollows {s t : State} (exact : s.dirtyOk) (run : exec .abandonTimer s = .next t) (l : Bank) :
    s.queueFollows t l := by
  rcases next_ite_cases run with ⟨_, rfl⟩ | ⟨_, rfl⟩
  · exact (State.closed_queueFollows exact (s0 := s) rfl (State.cancelAll_only s _ _) (by decide) l).choose
  · exact (State.queuesStay.refl _).queueFollows exact l

theorem execTicketExpiry_queueFollows {s t : State} (exact : s.dirtyOk) (run : exec .ticketExpiry s = .next t) (l : Bank) :
    s.queueFollows t l := by
  rcases next_ite_cases run with ⟨_, rfl⟩ | ⟨_, rfl⟩
  · have gone : s.queuesStay (s.setTickets (s.disp.tickets.filter fun t => !s.expired t)) := .of_eq rfl rfl
    refine ((gone.queueFollows exact l).of_only (bs := [.host]) ?_ (by decide) (by decide)).choose
    exact .foldl (fun _ _ h => .step (State.post_only _ _ _) h) (.refl _ _)
  · exact (State.queuesStay.refl _).queueFollows exact l

theorem State.queuesStay.of_blocks {s t : State} {bs : List Block} (only : s.changesOnly bs t) (disp : .disp ∉ bs)
    (lines : .lines ∉ bs) : s.queuesStay t :=
  .of_eq (congrArg DispatchBlock.cars (only .disp disp)) (only .lines lines)

/-- R167: a RESTART leaves the tables and lines of a reset. -/
theorem exec_replySent_cases {s t : State} (run : exec .replySent s = .next t) :
    s.queuesStay t ∨ t = s.restartReset := by
  change execReplySent s = _ at run
  unfold execReplySent at run
  split at run
  · split at run <;> cases run
    next r _ =>
      unfold State.replyDone
      split
      · exact .inr rfl
      · exact .inl (.of_eq (by rfl) (by rfl))
    all_goals exact .inl (.refl s)
  · cases run
    exact .inl (.refl s)

/-- R83, R139, R140: what a command, but a reset, the end of the scan or the assertion of a line's release, leaves of every
dirty queue. -/
theorem exec_queueFollows {s t : State} {i : Instr} (exact : s.dirtyOk) (pin : i ≠ .resetPin) (scan : i ≠ .startUpScanEnd)
    (release : ∀ l, i ≠ .lrqAsserted l) (reply : i = .replySent → t.part.state = .running) (run : exec i s = .next t)
    (l : Bank) : s.queueFollows t l := by
  have only := exec_changesOnly run
  cases i
  case resetPin => exact absurd rfl pin
  case startUpScanEnd => exact absurd rfl scan
  case lrqAsserted l => exact absurd rfl (release l)
  case replySent =>
    rcases exec_replySent_cases run with stay | rfl
    · exact stay.queueFollows exact l
    · cases reply rfl
  case transactionChoice => exact execTransactionChoice_queueFollows exact run l
  case sweepDue b => exact exec_line_queueFollows exact run ⟨b, by simp⟩ l
  case commandSent b => exact exec_line_queueFollows exact run ⟨b, by simp⟩ l
  case readbackMismatch b => exact exec_line_queueFollows exact run ⟨b, by simp⟩ l
  case backoffEnd b => exact exec_line_queueFollows exact run ⟨b, by simp⟩ l
  case faultEnd b => exact exec_line_queueFollows exact run ⟨b, by simp⟩ l
  case resendPauseEnd b => exact exec_line_queueFollows exact run ⟨b, by simp⟩ l
  case answerWindowExpiry b => exact exec_line_queueFollows exact run ⟨b, by simp⟩ l
  case lrqDeasserted b => exact exec_line_queueFollows exact run ⟨b, by simp⟩ l
  case status b _ _ _ _ _ _ _ _ _ _ _ =>
    exact exec_answer_queueFollows (l := b) exact run (.inl ⟨_, _, by cases run; rfl⟩) l
  case hold b _ => exact exec_answer_queueFollows (l := b) exact run (.inl ⟨_, _, by cases run; rfl⟩) l
  case resend b _ => exact exec_answer_queueFollows (l := b) exact run (.inl ⟨_, _, by cases run; rfl⟩) l
  case badAnswer b _ => exact exec_answer_queueFollows (l := b) exact run (.inr (.inl ⟨_, by cases run; rfl⟩)) l
  case answerByteTimeout b _ => exact exec_answer_queueFollows (l := b) exact run (.inr (.inr ⟨_, by cases run; rfl⟩)) l
  case verifyMatch => exact execVerifyMatch_queueFollows exact run l
  case recallInputAsserted => exact execRecallInputAsserted_queueFollows exact run l
  case decisionMoment => exact execDecisionMoment_queueFollows exact run l
  case contactTimer => exact execContactTimer_queueFollows exact run l
  case abandonTimer => exact execAbandonTimer_queueFollows exact run l
  case ticketExpiry => exact execTicketExpiry_queueFollows exact run l
  all_goals
    exact (State.queuesStay.of_blocks only (by simp only [blocksOf]; decide) (by simp only [blocksOf]; decide)).queueFollows
      exact l

/-! ### Line release, resets and the end of the scan -/

/-- R146: the release of a line keeps every queue. -/
theorem exec_lrqAsserted_queues {s t : State} {l : Bank} (run : exec (.lrqAsserted l) s = .next t) :
    (∀ b c, t.car b c = s.car b c) ∧ (∀ l', (t.line l').queue = (s.line l').queue) ∧
      ∀ l', l' ≠ l → t.line l' = s.line l' := by
  rcases next_ite_cases run with ⟨_, rfl⟩ | ⟨_, rfl⟩
  · have line : ∀ l', ((s.setLrq l true).setLine l (s.line l).release).line l' =
        if l = l' then (s.line l).release else s.line l' := fun l' => by
      split
      next e =>
        subst e
        exact State.line_setLine_self _ _ _
      next e => exact State.line_setLine_ne _ _ _ _ e
    refine ⟨fun _ _ => rfl, fun l' => ?_, fun l' ne => ?_⟩
    · refine (congrArg Line.queue (line l')).trans ?_
      split
      next e => rw [← e]; rfl
      next => rfl
    · exact (line l').trans (if_neg (Ne.symm ne))
  · exact ⟨fun _ _ => rfl, fun _ => rfl, fun _ _ => rfl⟩

theorem State.dirtyOk_of_reset {t : State} (cars : t.disp = DispatchBlock.reset) (lines : t.lines = State.reset.lines) :
    t.dirtyOk := by
  intro l
  have queue : (t.line l).queue = [] := by
    rw [State.line, lines]
    revert l
    decide
  have clean : ∀ b c, (DispatchBlock.reset.cars.get (carIndex b c)).dirty = false := by decide
  refine ⟨by rw [queue]; exact List.nodup_nil, fun c => ?_⟩
  rw [queue, State.car, cars, clean]
  simp

/-- R80, R149: a car at the end of the scan. -/
theorem State.begun_car (s : State) (b : Bank) (c : CarNo) :
    s.begun.car b c = { s.startCar b c with enabled := s.startEnabled b c } := by
  have index : ∀ (b : Bank) (c : CarNo), carOfIndex (carIndex b c) = (b, c) := by decide
  show Vector.get (Vector.ofFn _) _ = _
  rw [Vector.get_eq_getElem, Vector.getElem_ofFn]
  exact congrArg (fun i : Bank × CarNo => { s.startCar i.1 i.2 with enabled := s.startEnabled i.1 i.2 }) (index b c)

theorem State.begun_line (s : State) (l : Bank) : s.begun.line l = s.startLine l := by
  show Vector.get (Vector.ofFn _) _ = _
  rw [Vector.get_eq_getElem, Vector.getElem_ofFn]

/-- R168: after the blocks have begun, the end of the scan reaches only the host port and the count of open values. -/
theorem execStartUpScanEnd_only (s : State) :
    s.begun.changesOnly [.host, .freeCount] (s.begun.post .urgent s.startedReport).postStartGroups.choose :=
  .step (State.choose_only _) (.step (State.postStartGroups_only _) (.step (State.post_only _ _ _) (.refl _ _)))

/-- R80, R128: at the end of the scan each queue holds the configured cars, all of them unconfirmed. -/
theorem State.begun_dirtyOk (s : State) : s.begun.dirtyOk := by
  intro l
  rw [State.begun_line]
  refine ⟨nodup_allCars.filter _, fun c => ?_⟩
  rw [State.begun_car]
  simp only [State.startLine, List.mem_filter, mem_allCars, true_and, Car.dirty_iff, State.startCar]
  split
  next counted =>
    split <;> simp [counted, Car.reset]
  next off => simp [off, Car.reset]

theorem State.dirtyOk.congr {s t : State} (exact : s.dirtyOk) (cars : t.disp.cars = s.disp.cars)
    (lines : t.lines = s.lines) : t.dirtyOk := (State.queuesStay.of_eq cars lines).dirtyOk exact

theorem execStartUpScanEnd_dirtyOk {s t : State} (exact : s.dirtyOk) (run : exec .startUpScanEnd s = .next t) : t.dirtyOk := by
  rcases next_ite_cases run with ⟨_, rfl⟩ | ⟨_, rfl⟩
  · have only := execStartUpScanEnd_only s
    exact s.begun_dirtyOk.congr (congrArg DispatchBlock.cars (only .disp (by decide))) (only .lines (by decide))
  · exact exact

/-- Every command keeps the dirty queues exact. -/
theorem exec_dirtyOk {s t : State} {i : Instr} (exact : s.dirtyOk) (run : exec i s = .next t) : t.dirtyOk := by
  by_cases pin : i = .resetPin
  · subst pin
    cases run
    exact State.dirtyOk_of_reset rfl rfl
  by_cases scan : i = .startUpScanEnd
  · subst scan
    exact execStartUpScanEnd_dirtyOk exact run
  by_cases release : ∃ l, i = .lrqAsserted l
  · obtain ⟨l, rfl⟩ := release
    obtain ⟨cars, queues, -⟩ := exec_lrqAsserted_queues run
    intro l
    rw [queues]
    simp only [cars]
    exact exact l
  by_cases reply : i = .replySent → t.part.state = .running
  · exact State.queueFollows.dirtyOk exact fun l =>
      exec_queueFollows exact pin scan (fun l e => release ⟨l, e⟩) reply run l
  · obtain ⟨rfl, -⟩ := Classical.not_imp.1 reply
    rcases exec_replySent_cases run with stay | rfl
    · exact stay.dirtyOk exact
    · exact State.dirtyOk_of_reset rfl rfl

theorem State.tick_queuesStay (s : State) : s.queuesStay s.tick := by
  unfold State.tick
  split
  · exact .refl s
  · have line : ∀ l, ((s.setPart { s.part with clock := s.part.clock + 1 }).setLines
        (s.lines.map fun l => { l with time := l.time + 100 })).line l =
        { s.line l with time := (s.line l).time + 100 } := fun l => by
      show Vector.get (Vector.map _ _) _ = _
      rw [Vector.get_eq_getElem, Vector.getElem_map]
      rfl
    exact ⟨fun _ _ => rfl, fun l => by rw [line], fun l => by rw [line]⟩

/-- Settles O54: at the close of an event each line takes its cars' notices in car order, and the end of a delivery rotates
the queue. -/
theorem stepKeepsTheDirtyQueuesExact : Obligations.StepKeepsTheDirtyQueuesExact := by
  refine ⟨Car.dirty_iff, fun s t exact run => ?_, fun i s t l exact pin scan reply run => ?_⟩
  · exact step_keeps (P := State.dirtyOk) (fun _ _ h => h) (fun s h => s.tick_queuesStay.dirtyOk h)
      (fun _ _ _ h run => exec_dirtyOk h run) exact run
  · by_cases release : i = .lrqAsserted l
    · subst release
      obtain ⟨cars, queues, -⟩ := exec_lrqAsserted_queues run
      refine ⟨fun _ => ?_, fun x ends => absurd rfl ends.2.2.2⟩
      rw [queues, State.dirtyOrder_of_car_eq exact (cars l)]
    · have follows : s.queueFollows t l := by
        by_cases other : ∃ l', i = .lrqAsserted l'
        · obtain ⟨l', rfl⟩ := other
          obtain ⟨cars, queues, lines⟩ := exec_lrqAsserted_queues run
          have ne : l ≠ l' := fun e => release (by rw [e])
          exact .of_inHand (fun none => by rwa [← lines l ne]) (by
            rw [queues, State.dirtyOrder_of_car_eq exact (cars l)])
        · exact exec_queueFollows exact pin scan (fun l' e => other ⟨l', e⟩) reply run l
      exact ⟨fun none => follows.1 fun x ends => none x ⟨ends.1, ends.2.1, ends.2.2, release⟩,
        fun x ends => follows.2 x ⟨ends.1, ends.2.1, ends.2.2.1⟩⟩

end Sys2Proof.Machine
end

section
/-! PROOF of O55 (R46 to R61, R168): each operation on a port keeps it in step with the engine, and nothing begins while
STARTING. -/

namespace Sys2Proof.Machine

/-! ### One port -/

/-- A port in step with what the engine has in hand. -/
structure Port.inStep (hand : Option Presentation) (p : PortNo) (q : Port) : Prop where
  ok : q.ok
  slot : ∀ x, q.slot = some x → x.pres.port = p ∧ (x.taken = true → hand = some x.pres)
  hand : ∀ x, hand = some x → x.port = p → q.state = .pending ∧ q.slot = some { pres := x, taken := true }

theorem State.portsOk_iff (s : State) : s.portsOk ↔ ∀ p, (s.port p).inStep s.engine.inHand p := by
  refine ⟨fun ⟨ok, slot, hand⟩ p => ⟨ok p, slot p, fun x hx hp => hp ▸ hand x hx⟩, fun h => ⟨fun p => (h p).ok,
    fun p => (h p).slot, fun x hx => (h x.port).hand x hx rfl⟩⟩

section
variable {hand : Option Presentation} {p : PortNo} {q : Port}

theorem Port.inStep.memory (h : q.inStep hand p) {m : Option GrantMemory} (keeps : q.memory = none → m = none) :
    { q with memory := m }.inStep hand p := by
  obtain ⟨⟨reload, state⟩, slot, taken⟩ := h
  refine ⟨⟨fun e => keeps (reload e), ?_⟩, slot, taken⟩
  cases hs : q.state <;> simp only [hs] at state ⊢
  case disabled =>
    obtain ⟨slot, buffer, memory, reload⟩ := state
    exact ⟨slot, buffer, keeps memory, reload⟩
  all_goals exact state

theorem Port.inStep.rx (h : q.inStep hand p) (rx : List Byte) : { q with rx := rx }.inStep hand p :=
  ⟨h.ok, h.slot, h.hand⟩

theorem Port.inStep.wake (h : q.inStep hand p) : q.wake.inStep hand p := by
  unfold Port.wake
  split
  next deferred =>
    obtain ⟨⟨reload, state⟩, slot, taken⟩ := h
    simp only [deferred] at state
    obtain ⟨full, free, buffer, mark⟩ := state
    refine ⟨⟨reload, full, buffer, fun e => absurd mark e⟩, slot, fun x hx hp => ?_⟩
    simpa [deferred] using taken x hx hp
  next => exact h

/-- Port states without a presentation. -/
theorem Port.inStep.idle (h : q.inStep hand p) {r : Port} (free : q.slot = none ∨ q.isTaken = false) (slot : r.slot = none)
    (ok : r.ok) : r.inStep hand p := by
  refine ⟨ok, fun x hx => (by rw [slot] at hx; cases hx), fun x hx hp => ?_⟩
  obtain ⟨-, full⟩ := h.hand x hx hp
  rcases free with free | free
  · rw [full] at free
    cases free
  · simp [Port.isTaken, full] at free

theorem Port.ok_held {enabled : Bool} (buffer : q.buffer = none) :
    Port.ok { q with memory := none, slot := none, state := heldState enabled, reload := none } := by
  refine ⟨fun _ => rfl, ?_⟩
  cases enabled <;> simp [heldState, buffer]

theorem Port.inStep.reloaded (h : q.inStep hand p) (enabled : Bool) : (q.reloaded enabled).inStep hand p := by
  have held : (q.slot = none ∨ q.isTaken = false) → q.buffer = none → q.reload = none →
      { q with memory := none, slot := none, state := heldState enabled }.inStep hand p := fun free buffer mark => by
    have ok := Port.ok_held (enabled := enabled) buffer
    rw [← mark] at ok
    exact h.idle free rfl ok
  obtain ⟨-, state⟩ := h.ok
  unfold Port.reloaded
  cases hs : q.state <;> simp only [hs] at state ⊢
  case disabled => exact held (.inl state.1) state.2.1 state.2.2.2
  case idle => exact held (.inl state.1) state.2.1 state.2.2
  case deferred => exact held (.inr state.2.1) state.2.2.1 state.2.2.2
  case pending =>
    obtain ⟨full, buffer, mark⟩ := state
    split
    next taken => exact ⟨⟨fun _ => rfl, by simpa only [hs] using ⟨full, buffer, fun _ => taken⟩⟩, h.slot, by simpa only [hs] using h.hand⟩
    next free =>
      refine held (.inr (by simpa using free)) buffer ?_
      cases hm : q.reload with
      | none => rfl
      | some e => exact absurd (mark (by simp [hm])) free
  case answering => exact ⟨⟨fun _ => rfl, by simpa only [hs] using state⟩, h.slot, by simpa only [hs] using h.hand⟩

theorem Port.send_of_empty (empty : q.shifter = none) (a : Answer) : q.send a = { q with shifter := some a } := by
  simp [Port.send, empty]

theorem Port.inStep.send (h : q.inStep hand p) (empty : q.shifter = none) (a : Answer) : (q.send a).inStep hand p := by
  rw [Port.send_of_empty empty]
  refine ⟨⟨h.ok.1, ?_⟩, h.slot, h.hand⟩
  obtain ⟨-, state⟩ := h.ok
  cases hs : q.state <;> simp only [hs] at state ⊢
  case answering => exact absurd empty state.2
  all_goals exact state

theorem Port.inStep.answerTap (h : q.inStep hand p) (empty : q.shifter = none) (idle : q.state = .idle) (a : Answer) :
    { q.send a with state := .answering }.inStep hand p := by
  obtain ⟨reload, state⟩ := h.ok
  simp only [idle] at state
  rw [Port.send_of_empty empty]
  exact h.idle (.inl state.1) state.1 ⟨reload, state.1, by simp⟩

theorem Port.inStep.enterSlot (h : q.inStep hand p) (idle : q.state = .idle) {x : Presentation} (own : x.port = p) :
    { q with state := .pending, slot := some { pres := x, taken := false } }.inStep hand p := by
  obtain ⟨reload, state⟩ := h.ok
  simp only [idle] at state
  obtain ⟨-, buffer, mark⟩ := state
  refine ⟨⟨reload, by simp, buffer, fun e => absurd mark e⟩, fun y hy => ?_, fun y hy hp => ?_⟩
  · cases hy
    exact ⟨own, fun e => by cases e⟩
  · have := (h.hand y hy hp).1
    rw [idle] at this
    cases this

theorem Port.inStep.shifterDone (h : q.inStep hand p) : q.shifterDone.inStep hand p := by
  obtain ⟨reload, state⟩ := h.ok
  unfold Port.shifterDone Port.settle
  simp only
  split
  next done =>
    obtain ⟨answering, -⟩ := done
    simp only [answering] at state
    refine h.idle (.inl state.1) state.1 ⟨fun e => (by cases e), ?_⟩
    cases hm : q.reload with
    | none => simp [state.1]
    | some e =>
      cases e with
      | false => simp [heldState, state.1, reload hm]
      | true => simp [heldState, state.1]
  next busy =>
    refine ⟨⟨reload, ?_⟩, h.slot, h.hand⟩
    cases hs : q.state <;> simp only [hs] at state busy ⊢
    case answering => exact ⟨state.1, by simpa using busy⟩
    case disabled => exact ⟨state.1, trivial, state.2.2⟩
    case idle => exact ⟨state.1, trivial, state.2.2⟩
    case pending => exact ⟨state.1, trivial, state.2.2⟩
    case deferred => exact ⟨state.1, state.2.1, trivial, state.2.2.2⟩

/-- R61: the port whose presentation the engine takes. -/
theorem Port.inStep.take (h : q.inStep none p) {x : Slot} (pending : q.state = .pending) (full : q.slot = some x) :
    q.take.inStep (some x.pres) p := by
  obtain ⟨reload, state⟩ := h.ok
  simp only [pending] at state
  obtain ⟨own, -⟩ := h.slot x full
  refine ⟨⟨reload, ?_⟩, fun y hy => ?_, fun y hy _ => ⟨pending, ?_⟩⟩
  · simp only [Port.take, pending, full]
    exact ⟨by simp, state.2.1, fun _ => by simp [Port.isTaken]⟩
  · simp only [Port.take, full, Option.map_some, Option.some.injEq] at hy
    subst hy
    exact ⟨own, fun _ => rfl⟩
  · cases hy
    simp [Port.take, full]

/-- A port whose presentation is not the one taken. -/
theorem Port.inStep.other (h : q.inStep none p) {x : Presentation} (ne : x.port ≠ p) : q.inStep (some x) p := by
  refine ⟨h.ok, fun y hy => ?_, fun y hy hp => ?_⟩
  · obtain ⟨own, free⟩ := h.slot y hy
    exact ⟨own, fun taken => absurd (free taken) (by simp)⟩
  · cases hy
    exact absurd hp ne

/-- A port whose presentation is not the one decided. -/
theorem Port.inStep.released {x : Presentation} (h : q.inStep (some x) p) (ne : x.port ≠ p) : q.inStep none p := by
  refine ⟨h.ok, fun y hy => ?_, fun y hy => by cases hy⟩
  obtain ⟨own, taken⟩ := h.slot y hy
  refine ⟨own, fun e => absurd own ?_⟩
  have := taken e
  cases this
  exact ne

/-- R56, R59: the presentation in hand is handed back. -/
theorem Port.inStep.handBack {x : Presentation} (h : q.inStep (some x) p) (own : x.port = p) :
    (q.handBack x).inStep none p := by
  obtain ⟨pending, -⟩ := h.hand x rfl own
  obtain ⟨reload, state⟩ := h.ok
  simp only [pending] at state
  obtain ⟨-, buffer, -⟩ := state
  unfold Port.handBack
  split
  next mark =>
    refine ⟨⟨reload, by simp [Port.isTaken, buffer, mark]⟩, fun y hy => ?_, fun y hy => by cases hy⟩
    cases hy
    exact ⟨own, fun e => by cases e⟩
  next e mark =>
    refine ⟨⟨fun e => (by cases e), ?_⟩, fun y hy => (by cases hy), fun y hy => (by cases hy)⟩
    cases e with
    | false => simp [heldState, buffer, reload mark]
    | true => simp [heldState, buffer]

theorem Port.send_shifter (q : Port) (a : Answer) : (q.send a).shifter ≠ none := by
  unfold Port.send
  split
  · simp
  next h => simp [h]

theorem Port.send_fields (q : Port) (a : Answer) :
    (q.send a).state = q.state ∧ (q.send a).slot = q.slot ∧ (q.send a).memory = q.memory ∧
      (q.send a).reload = q.reload := by
  unfold Port.send
  split <;> simp

/-- R57: the presentation in hand is answered. -/
theorem Port.inStep.decided (h : q.ok) (a : Answer) : (q.decided a).inStep none p := by
  obtain ⟨state, slot, memory, reload⟩ := Port.send_fields { q with slot := none, state := .answering } a
  unfold Port.decided
  refine ⟨⟨fun e => ?_, ?_⟩, fun y hy => ?_, fun y hy => by cases hy⟩
  · rw [memory]
    exact h.1 (reload ▸ e)
  · simp only [state]
    exact ⟨slot, Port.send_shifter _ _⟩
  · rw [slot] at hy
    cases hy

/-- R52, R59: the memory of a grant. -/
theorem Port.ok_remember (h : q.ok) (answering : q.state = .pending) (m : GrantMemory) : (q.remember m).ok := by
  unfold Port.remember
  split
  · exact h
  next mark =>
    obtain ⟨-, state⟩ := h
    simp only [answering] at state
    exact ⟨fun e => absurd e mark, by simp only [answering]; exact state⟩

end

/-! ### Steps that leave the engine's hand -/

/-- From `s` to `t` the engine's hand stays, and a port that is in step stays so. -/
structure State.portsKeep (s t : State) : Prop where
  hand : t.engine.inHand = s.engine.inHand
  ports : ∀ h p, (s.port p).inStep h p → (t.port p).inStep h p

theorem State.portsKeep.refl (s : State) : s.portsKeep s := ⟨rfl, fun _ _ h => h⟩

theorem State.portsKeep.trans {s t u : State} (h : s.portsKeep t) (g : t.portsKeep u) : s.portsKeep u :=
  ⟨g.hand.trans h.hand, fun x p hp => g.ports x p (h.ports x p hp)⟩

theorem State.portsKeep.portsOk {s t : State} (h : s.portsKeep t) (ok : s.portsOk) : t.portsOk := by
  rw [State.portsOk_iff] at ok ⊢
  rw [h.hand]
  exact fun p => h.ports _ p (ok p)

theorem State.portsKeep.of_blocks {s t : State} {bs : List Block} (only : s.changesOnly bs t) (engine : .engine ∉ bs)
    (ports : .ports ∉ bs) : s.portsKeep t :=
  ⟨congrArg Engine.inHand (only .engine engine), fun h p hp => by
    rwa [State.port, only .ports ports]⟩

theorem State.portsKeep.of_event {s t : State} {bs : List Block} (h : s.event t) (only : s.changesOnly bs t)
    (engine : .engine ∉ bs) : s.portsKeep t := by
  refine ⟨congrArg Engine.inHand (only .engine engine), fun x p hp => ?_⟩
  obtain ⟨m, hm, keeps⟩ := h.ports p
  rw [hm]
  exact hp.memory keeps

theorem State.portsKeep.setPort {s : State} {p : PortNo} {q : Port}
    (h : ∀ x, (s.port p).inStep x p → q.inStep x p) : s.portsKeep (s.setPort p q) := by
  refine ⟨rfl, fun x p' hp => ?_⟩
  by_cases e : p = p'
  · subst e
    rw [State.port_setPort_self]
    exact h x hp
  · rwa [State.port_setPort_ne _ _ _ _ e]

theorem State.portsKeep.foldl {α : Type} {s t : State} {f : State → α → State} {xs : List α}
    (hf : ∀ (u : State) (x : α), u.portsKeep (f u x)) (h : s.portsKeep t) : s.portsKeep (xs.foldl f t) := by
  induction xs generalizing t with
  | nil => exact h
  | cons x xs ih => exact ih (h.trans (hf t x))

theorem State.choose_portsKeep (s : State) : s.portsKeep s.choose := ⟨rfl, fun _ _ h => h⟩

theorem State.post_portsKeep (s : State) (k : ReportClass) (b : ReportBody) : s.portsKeep (s.post k b) :=
  ⟨rfl, fun _ _ h => h⟩

theorem State.wakePorts_portsKeep (s : State) : s.portsKeep s.wakePorts := by
  refine ⟨rfl, fun x p hp => ?_⟩
  have woken : s.wakePorts.port p = (s.port p).wake := by
    show Vector.get (Vector.map _ _) _ = _
    rw [Vector.get_eq_getElem, Vector.getElem_map]
    rfl
  rw [woken]
  exact hp.wake

theorem State.reloadPort_portsKeep (s : State) (p : PortNo) : s.portsKeep (s.reloadPort p) :=
  .setPort fun _ h => h.reloaded _

theorem State.changeMode_portsKeep (s : State) (b : Bank) (new : BankMode) (i : Bool) :
    s.portsKeep (s.changeMode b new i) := by
  cases hm : s.mode b with
  | none =>
    unfold State.changeMode
    rw [hm]
    exact .refl s
  | some old =>
    have moded : s.portsKeep (s.setMode b new) := ⟨rfl, fun _ _ h => h⟩
    have hand : (s.changeMode b new i).engine = s.engine := s.changeMode_only b new i .engine (by decide)
    refine ⟨congrArg Engine.inHand hand, fun x p hp => ?_⟩
    obtain ⟨m, port, keeps⟩ := (State.changeMode_event (new := new) (i := i) hm).ports p
    rw [port]
    exact hp.memory keeps

theorem State.jobCompleted_portsKeep (s : State) (g : Program) : s.portsKeep (s.jobCompleted g) := by
  have applied : s.portsKeep (s.applyJob g.job) := ⟨rfl, fun _ _ h => h⟩
  have only := s.jobCompleted_only g
  have event : s.event (s.jobCompleted g) → s.portsKeep (s.jobCompleted g) := fun h => .of_event h only (by decide)
  cases hj : g.job <;> simp only [State.jobCompleted, hj] at applied event ⊢
  case credential => exact .refl s
  case group | profile | tenant | site => exact applied
  case floor => exact event (s.changeFloors_event _)
  case bank => exact event (.step (State.recount_event _ _) (State.applyJob_event _ _))
  case reader p _ => exact applied.trans (State.reloadPort_portsKeep _ p)
  case bankMode b m =>
    unfold State.modeCompleted
    split
    · exact applied
    · split
      · exact applied
      · exact applied.trans (State.changeMode_portsKeep _ _ _ _)
  case carService => exact event (s.changeWithdrawn_event _ _ _)
  case erase =>
    unfold State.erasedPage at event ⊢
    split
    · exact .of_blocks (s.setPolicy_only _) (by decide) (by decide)
    split
    next h1 h2 =>
      rw [if_neg h1, if_pos h2] at event
      exact event (s.changeFloors_event _)
    split
    next h1 h2 h3 =>
      rw [if_neg h1, if_neg h2, if_pos h3] at event
      exact event s.eraseBanks_event
    split
    · exact .foldl State.reloadPort_portsKeep (.of_blocks (s.setPolicy_only _) (by decide) (by decide))
    · exact .refl s

end Sys2Proof.Machine
end

section
/-! PROOF of O55, continued: the decision, the arrivals, each command; and what a STARTING part leaves at rest. -/

namespace Sys2Proof.Machine

/-! ### The decision (R56 to R63) -/

/-- The port of the presentation in hand takes the outcome. -/
theorem State.setPort_released {s : State} {x : Presentation} {q : Port} (ok : s.portsOk) (had : s.engine.inHand = some x)
    (hq : q.inStep none x.port) (p : PortNo) : ((s.setPort x.port q).port p).inStep none p := by
  by_cases e : x.port = p
  · subst e
    rwa [State.port_setPort_self]
  · rw [State.port_setPort_ne _ _ _ _ e]
    have own := s.portsOk_iff.1 ok p
    rw [had] at own
    exact own.released e

theorem State.deny_released {s : State} {x : Presentation} (ok : s.portsOk) (had : s.engine.inHand = some x) (e : DenyReason)
    (d : Option Floor) (p : PortNo) : ((s.deny x e d).port p).inStep none p :=
  State.setPort_released ok had (Port.inStep.decided (ok.1 x.port) _) p

theorem State.grant_released {s : State} {x : Presentation} (ok : s.portsOk) (had : s.engine.inHand = some x)
    (r : Credential) (home d : Floor) (id : Nat) (c : Choice) (used : Bool) (p : PortNo) :
    ((s.grant x r home d id c used).port p).inStep none p := by
  unfold State.grant
  simp only
  generalize s.newBooking x home d r.units id c used = k
  have booked : s.portsKeep (((s.setDisp { s.disp with serial := s.disp.serial + 1 }).place k).grantTicket
      (s.overrideFlag r) c.transfer d used k) :=
    .of_blocks (bs := [.disp]) (.step (State.grantTicket_only _ _ _ _ _ _) (.step (State.place_only _ _)
      (State.setDisp_only _ _))) (by decide) (by decide)
  generalize ((s.setDisp { s.disp with serial := s.disp.serial + 1 }).place k).grantTicket (s.overrideFlag r) c.transfer d
    used k = s2 at booked
  generalize s2.superseded x id = old
  have cancelled : s2.portsKeep (s2.cancelSuperseded old) := by
    refine .of_event ?_ (s2.cancelSuperseded_only old) (by decide)
    cases old with
    | none => exact .refl s2
    | some k => exact s2.cancel_event _ _
  have all := booked.trans cancelled
  generalize s2.cancelSuperseded old = s3 at all
  have ok3 := all.portsOk ok
  have had3 : s3.engine.inHand = some x := all.hand.trans had
  exact State.setPort_released ok3 had3 (Port.inStep.decided
    (Port.ok_remember (ok3.1 x.port) (ok3.2.2 x had3).1 _) _) p

theorem State.removeTicket_portsKeep (s : State) (b : Badge) : s.portsKeep (s.removeTicket b) :=
  .of_blocks (s.removeTicket_only b) (by decide) (by decide)

theorem State.decideTrip_released {s : State} {x : Presentation} (ok : s.portsOk) (had : s.engine.inHand = some x)
    (r : Credential) (home : Floor) (banks : BankSet) (d : Floor) (used : Bool) (p : PortNo) :
    ((s.decideTrip x r home banks d used).port p).inStep none p := by
  unfold State.decideTrip
  split
  · split
    · have kept := s.removeTicket_portsKeep x.badge
      exact State.deny_released (kept.portsOk ok) (kept.hand.trans had) _ _ p
    · exact State.deny_released ok had _ _ p
  · exact State.grant_released ok had _ _ _ _ _ _ p

theorem State.decide_released {s : State} {x : Presentation} (ok : s.portsOk) (had : s.engine.inHand = some x)
    (home : Floor) (banks : BankSet) (p : PortNo) : ((s.decide x home banks).port p).inStep none p := by
  unfold State.decide
  split
  · have own := s.portsOk_iff.1 ok x.port
    rw [had] at own
    exact State.setPort_released ok had (own.handBack rfl) p
  · exact State.deny_released ok had _ _ p
  · unfold State.decideJourney
    simp only
    split
    · exact State.decideTrip_released ok had _ _ _ _ _ p
    · have kept : s.portsKeep (if supersededTicket (s.ticketAt x.badge home) x.floor then s.removeTicket x.badge else s) := by
        split
        · exact s.removeTicket_portsKeep _
        · exact .refl s
      split
      · exact State.deny_released (kept.portsOk ok) (kept.hand.trans had) _ _ p
      · exact State.decideTrip_released (kept.portsOk ok) (kept.hand.trans had) _ _ _ _ _ p

theorem execDecisionMoment_portsOk {s t : State} (ok : s.portsOk) (run : exec .decisionMoment s = .next t) : t.portsOk := by
  change execDecisionMoment s = _ at run
  unfold execDecisionMoment at run
  split at run <;> cases run
  next x home banks had _ =>
    have free := State.decide_released ok had home banks
    rw [State.portsOk_iff]
    have closed : ∀ p, ((s.closeCars (s.decide x home banks)).port p).inStep none p := fun p => by
      obtain ⟨m, hm, keeps⟩ := (s.closeCars_event (s.decide x home banks)).ports p
      rw [hm]
      exact (free p).memory keeps
    generalize s.closeCars (s.decide x home banks) = u at closed
    exact closed
  next => exact ok

/-! ### Arrivals and the taking (R47 to R55, R61) -/

theorem State.answer_portsKeep {s : State} {p : PortNo} (empty : (s.port p).shifter = none) (a : Answer) :
    s.portsKeep (s.answer p a) := .setPort fun _ h => h.send empty a

theorem State.denyTap_portsKeep {s : State} {p : PortNo} (empty : (s.port p).shifter = none)
    (idle : (s.port p).state = .idle) (b : Badge) : s.portsKeep (s.denyTap p b) :=
  State.portsKeep.trans (.setPort fun _ h => h.answerTap empty idle _) (State.post_portsKeep _ _ _)

theorem State.repeatFilter_portsKeep {s : State} {p : PortNo} (empty : (s.port p).shifter = none)
    (idle : (s.port p).state = .idle) (b : Badge) (f : Option Floor) : s.portsKeep (s.repeatFilter p b f) := by
  have enter : ∀ i, s.portsKeep (s.enterSlot p b f i) := fun i => .setPort fun _ h => h.enterSlot idle rfl
  have again : ∀ a, s.portsKeep (s.answerTap p a) := fun a => .setPort fun _ h => h.answerTap empty idle a
  unfold State.repeatFilter
  split
  · exact enter _
  · split
    · exact enter _
    split
    · exact again _
    split
    · split
      · exact again _
      · exact enter _
    · exact enter _

theorem State.readerArrival_portsKeep (s : State) (p : PortNo) (f : ReaderFrame) : s.portsKeep (s.readerArrival p f) := by
  cases f with
  | ping =>
    show s.portsKeep (s.pingArrival p)
    unfold State.pingArrival
    split
    · exact .refl s
    next empty =>
      split
      · exact .refl s
      · exact State.answer_portsKeep (by simpa using empty) _
  | present b f k =>
    show s.portsKeep (s.presentArrival p b f k)
    unfold State.presentArrival
    split
    · exact .refl s
    next full =>
      have empty : (s.port p).shifter = none := by simpa using full
      split
      · exact State.answer_portsKeep empty _
      · split
        · exact .refl s
        · exact .refl s
        · exact State.answer_portsKeep empty _
        · exact State.answer_portsKeep empty _
        next idle =>
          unfold State.presentIdle
          split
          · exact State.denyTap_portsKeep empty idle b
          · split
            · exact State.denyTap_portsKeep empty idle b
            · exact State.repeatFilter_portsKeep empty idle b _

theorem State.readerHunt_portsKeep (s : State) (p : PortNo) : s.portsKeep (s.readerHunt p) := .setPort fun _ h => h.rx _

theorem State.readerFrame_portsKeep (s : State) (p : PortNo) (f : Option ReaderFrame) : s.portsKeep (s.readerFrame p f) := by
  cases f with
  | none => exact s.readerHunt_portsKeep p
  | some f => exact (s.readerHunt_portsKeep p).trans (State.readerArrival_portsKeep _ p f)

theorem State.readerByte_portsKeep (s : State) (p : PortNo) (b : Byte) : s.portsKeep (State.readerByte p s b) := by
  unfold State.readerByte
  split
  · exact .setPort fun _ h => h.rx _
  · exact s.readerFrame_portsKeep p _

theorem State.takeFrom_portsOk {s : State} {p : PortNo} (ok : s.portsOk) (hand : s.engine.inHand = none)
    (found : (s.port p).candidate = true) : (s.takeFrom p).portsOk := by
  rw [State.portsOk_iff] at ok ⊢
  simp only [hand] at ok
  obtain ⟨pending, filled⟩ : (s.port p).state = .pending ∧ ∃ x, (s.port p).slot = some x := by
    unfold Port.candidate at found
    cases hs : (s.port p).slot <;> simp_all
  obtain ⟨x, full⟩ := filled
  obtain ⟨own, -⟩ := (ok p).slot x full
  intro p'
  have hand' : (s.takeFrom p).engine.inHand = some x.pres := by simp [State.takeFrom, full]
  rw [hand']
  by_cases e : p = p'
  · subst e
    have taken : (s.takeFrom p).port p = (s.port p).take := State.port_setPort_self _ _ _
    rw [taken]
    exact (ok p).take pending full
  · have kept : (s.takeFrom p).port p' = s.port p' := State.port_setPort_ne _ _ _ _ e
    rw [kept]
    exact (ok p').other (by rw [own]; exact e)

theorem execPresentationTaking_portsOk {s t : State} (ok : s.portsOk) (run : exec .presentationTaking s = .next t) :
    t.portsOk := by
  change execPresentationTaking s = _ at run
  unfold execPresentationTaking at run
  split at run
  next may =>
    split at run <;> cases run
    next p found =>
      have candidate := List.find?_some found
      exact State.takeFrom_portsOk ok may.2 (by simpa using candidate)
    next => exact ok
  · cases run
    exact ok

/-! ### Resets and the end of the scan -/

theorem State.portsOk_of_reset {t : State} (ports : t.ports = State.reset.ports) (hand : t.engine.inHand = none) :
    t.portsOk := by
  rw [State.portsOk_iff]
  intro p
  have idle : t.port p = State.reset.port p := by rw [State.port, ports, State.port]
  rw [idle, hand]
  have fresh : ∀ p, State.reset.port p = Port.reset := by decide
  rw [fresh]
  exact ⟨by simp [Port.ok, Port.reset], fun x hx => (by cases hx), fun x hx => by cases hx⟩

theorem State.begun_port (s : State) (p : PortNo) : s.begun.port p = s.startPort p := by
  show Vector.get (Vector.ofFn _) _ = _
  rw [Vector.get_eq_getElem, Vector.getElem_ofFn]

/-- R46: an empty port of a part that starts. -/
theorem Port.inStep.start {q : Port} {p : PortNo} (h : q.inStep none p) (idle : q.state = .idle) (memory : q.memory = none) :
    { q with state := .disabled }.inStep none p := by
  obtain ⟨reload, state⟩ := h.ok
  simp only [idle] at state
  obtain ⟨slot, buffer, mark⟩ := state
  exact h.idle (.inl slot) slot ⟨reload, slot, buffer, memory, mark⟩

theorem execStartUpScanEnd_portsOk {s t : State} (start : s.startingOk) (ok : s.portsOk)
    (run : exec .startUpScanEnd s = .next t) : t.portsOk := by
  rcases next_ite_cases run with ⟨⟨starting, -⟩, rfl⟩ | ⟨_, rfl⟩
  · obtain ⟨-, -, -, hand, -, -, -, -, -, ports⟩ := start.2 starting
    rw [State.portsOk_iff] at ok
    have only := execStartUpScanEnd_only s
    refine (State.portsKeep.of_blocks only (by decide) (by decide)).portsOk (s.begun.portsOk_iff.2 fun p => ?_)
    show (s.begun.port p).inStep s.engine.inHand p
    have own := ok p
    rw [hand] at own ⊢
    rw [State.begun_port, State.startPort]
    split
    · exact own
    · exact own.start (ports p).1 (ports p).2
  · exact ok

/-! ### Each command -/

theorem State.takeAnswer_portsKeep (s : State) (l : Bank) (x : Transaction) (a : Option CarAnswer) :
    s.portsKeep (s.takeAnswer l x a) := by
  rcases a with _ | st | _ | _
  · exact .of_blocks (s.failAttempt_only l) (by decide) (by decide)
  · have taken : s.portsKeep (s.takeStatus l x.car x.kind st) :=
      .of_event (s.takeStatus_event _ _ _ _) (s.takeStatus_only _ _ _ _) (by decide)
    have closed := taken.trans (.of_blocks (s.closeCars_only _) (by decide) (by decide))
    exact closed.trans (.of_blocks (State.endTransaction_only _ l x) (by decide) (by decide))
  · exact .of_blocks (s.answerHold_only l x) (by decide) (by decide)
  · exact .of_blocks (s.answerResend_only l x) (by decide) (by decide)

theorem State.hear_portsKeep {s : State} {l : Bank} {f : Transaction → State} (h : ∀ x, s.portsKeep (f x)) :
    s.portsKeep (s.hear l f) := by
  unfold State.hear
  split
  · split
    · exact h _
    · exact .refl s
  · exact .refl s

theorem State.answerByte_portsKeep (s : State) (l : Bank) (b : Byte) : s.portsKeep (State.answerByte l s b) := by
  refine State.hear_portsKeep fun x => ?_
  split
  · exact .of_blocks (s.setLine_only _ _) (by decide) (by decide)
  · exact s.takeAnswer_portsKeep l x _

theorem State.cutAnswer_portsKeep (s : State) (l : Bank) : s.portsKeep (s.cutAnswer l) :=
  .of_blocks (s.cutAnswer_only l) (by decide) (by decide)

theorem execVerifyMatch_portsKeep {s t : State} (run : exec .verifyMatch s = .next t) : s.portsKeep t := by
  change execVerifyMatch s = _ at run
  unfold execVerifyMatch at run
  split at run <;> cases run
  next => exact .refl s
  next g _ =>
    have stored : s.portsKeep (s.setStore (s.store.complete g)) := ⟨rfl, fun _ _ h => h⟩
    have closed := (stored.trans (State.jobCompleted_portsKeep _ g)).trans
      (.of_blocks (State.closeCars_only s _) (by decide) (by decide))
    exact ((closed.trans (State.wakePorts_portsKeep _)).trans
      (.of_blocks (State.completeRequest_only _ .done) (by decide) (by decide))).trans (State.choose_portsKeep _)

theorem execVerifyMismatch_portsKeep {s t : State} (run : exec .verifyMismatch s = .next t) : s.portsKeep t := by
  change execVerifyMismatch s = _ at run
  unfold execVerifyMismatch at run
  split at run <;> cases run
  next => exact .refl s
  next g _ =>
    have spoiled : s.portsKeep ((s.setStore (s.store.spoil s.freeCount g)).setFree (s.freeCount + 1)) :=
      .of_blocks (.step (State.setFree_only _ _) (.step (State.setStore_only s _) (.refl _ [.store, .freeCount])))
        (by decide) (by decide)
    exact (((spoiled.trans (State.post_portsKeep _ _ _)).trans (State.wakePorts_portsKeep _)).trans
      (.of_blocks (State.completeRequest_only _ .storeFault) (by decide) (by decide))).trans (State.choose_portsKeep _)

theorem execRecallInputAsserted_portsKeep {s t : State} {b : Bank} (run : exec (.recallInputAsserted b) s = .next t) :
    s.portsKeep t := by
  have level : s.portsKeep (s.setRcl b true) := ⟨rfl, fun _ _ h => h⟩
  rcases next_ite_cases run with ⟨_, rfl⟩ | ⟨_, rfl⟩
  · have forced : ∀ u : State, u.portsKeep (u.forceRecall b) := fun u => by
      unfold State.forceRecall
      split
      · exact .refl u
      · exact u.changeMode_portsKeep _ _ _
    exact (((level.trans (State.post_portsKeep _ _ _)).trans (forced _)).trans
      (.of_blocks (State.closeCars_only _ _) (by decide) (by decide))).trans (State.choose_portsKeep _)
  · exact level

/-- The events that take bookings out change no more of a port than its memory. -/
theorem State.portsKeep.closed {s u : State} (h : s.event u) (only : s.changesOnly eventBlocks u) :
    s.portsKeep (s.closeCars u).choose :=
  ((State.portsKeep.of_event h only (by decide)).trans
    (.of_blocks (State.closeCars_only _ _) (by decide) (by decide))).trans (State.choose_portsKeep _)

theorem State.loseContact_event (s : State) (b : Bank) (c : CarNo) : s.event (s.loseContact b c) := by
  unfold State.loseContact
  exact (s.setService_event b c .outOfContact).trans (State.reportService_event _ _ _ _ _)

theorem exec_portsOk {s t : State} {i : Instr} (start : s.startingOk) (ok : s.portsOk) (run : exec i s = .next t) :
    t.portsOk := by
  have only := exec_changesOnly run
  cases i
  case resetPin =>
    cases run
    exact State.portsOk_of_reset rfl rfl
  case replySent =>
    change execReplySent s = _ at run
    unfold execReplySent at run
    split at run
    · split at run <;> cases run
      · unfold State.replyDone
        split
        · exact State.portsOk_of_reset rfl rfl
        · exact State.portsKeep.portsOk ⟨rfl, fun _ _ h => h⟩ ok
      all_goals exact ok
    · cases run
      exact ok
  case startUpScanEnd => exact execStartUpScanEnd_portsOk start ok run
  case verifyMatch => exact (execVerifyMatch_portsKeep run).portsOk ok
  case verifyMismatch => exact (execVerifyMismatch_portsKeep run).portsOk ok
  case recallInputAsserted => exact (execRecallInputAsserted_portsKeep run).portsOk ok
  case present p _ _ _ =>
    cases run
    exact ((s.readerFrame_portsKeep p _).trans (State.choose_portsKeep _)).portsOk ok
  case ping p =>
    cases run
    exact ((s.readerFrame_portsKeep p _).trans (State.choose_portsKeep _)).portsOk ok
  case readerPartialFrameTimeout p _ =>
    cases run
    exact (((State.portsKeep.foldl (fun u b => u.readerByte_portsKeep p b) (.refl s)).trans
      (State.readerHunt_portsKeep _ p)).trans (State.choose_portsKeep _)).portsOk ok
  case replyShifterDone p =>
    rcases next_ite_cases run with ⟨_, rfl⟩ | ⟨_, rfl⟩
    · exact (State.portsKeep.setPort fun _ h => h.shifterDone).portsOk ok
    · exact ok
  case presentationTaking => exact execPresentationTaking_portsOk ok run
  case decisionMoment => exact execDecisionMoment_portsOk ok run
  case status l _ _ _ _ _ _ _ _ _ _ _ =>
    cases run
    exact ((State.hear_portsKeep fun x => s.takeAnswer_portsKeep l x _).trans (State.choose_portsKeep _)).portsOk ok
  case answerByteTimeout l _ =>
    cases run
    exact (((State.portsKeep.foldl (fun u b => u.answerByte_portsKeep l b) (.refl s)).trans
      (State.cutAnswer_portsKeep _ l)).trans (State.choose_portsKeep _)).portsOk ok
  case badAnswer l _ =>
    cases run
    exact ((State.portsKeep.foldl (fun u b => u.answerByte_portsKeep l b) (.refl s)).trans
      (State.choose_portsKeep _)).portsOk ok
  case contactTimer b c =>
    rcases next_ite_cases run with ⟨_, rfl⟩ | ⟨_, rfl⟩
    · exact (State.portsKeep.closed (s.loseContact_event b c) (s.loseContact_only b c)).portsOk ok
    · exact ok
  case abandonTimer =>
    rcases next_ite_cases run with ⟨_, rfl⟩ | ⟨_, rfl⟩
    · exact (State.portsKeep.closed (s.cancelAll_event _ _) (s.cancelAll_only _ _)).portsOk ok
    · exact ok
  all_goals
    exact (State.portsKeep.of_blocks only (by simp only [blocksOf]; decide) (by simp only [blocksOf]; decide)).portsOk ok

/-! ### A STARTING part at rest (R168) -/

/-- Nothing that the part is to do: what R168 leaves while STARTING. -/
def HostPort.atRest (h : HostPort) : Prop := h.request = .idle ∧ h.queue = []

/-- A line with nothing to do. -/
def Line.atRest (l : Line) : Prop := l.state = .idle ∧ l.inHand = none ∧ l.queue = []

/-- A port without a tap. -/
def Port.atRest (q : Port) : Prop := q.state = .idle ∧ q.memory = none

/-- Tables without a car. -/
def DispatchBlock.atRest (d : DispatchBlock) : Prop :=
  d.bookings = [] ∧ d.tickets = [] ∧ (∀ b, d.modes.get b = none) ∧ ∀ b c, (d.cars.get (carIndex b c)).service = .absent

/-- Everything that a STARTING part holds is at rest. -/
structure State.atRest (s : State) : Prop where
  programmer : s.store.programmer = none
  host : s.host.atRest
  inHand : s.engine.inHand = none
  disp : s.disp.atRest
  lines : ∀ l, (s.line l).atRest
  ports : ∀ p, (s.port p).atRest

theorem State.startingOk_iff (s : State) :
    s.startingOk ↔ (s.part.resetPin = true → s.part.state = .starting ∧ s.part.scanning = false) ∧
      (s.part.state = .starting → s.atRest) := by
  refine and_congr Iff.rfl (forall_congr' fun _ => ⟨fun h => ?_, fun h => ?_⟩)
  · obtain ⟨programmer, request, queue, inHand, bookings, tickets, modes, cars, lines, ports⟩ := h
    exact ⟨programmer, ⟨request, queue⟩, inHand, ⟨bookings, tickets, modes, cars⟩, lines, ports⟩
  · obtain ⟨programmer, ⟨request, queue⟩, inHand, ⟨bookings, tickets, modes, cars⟩, lines, ports⟩ := h
    exact ⟨programmer, request, queue, inHand, bookings, tickets, modes, cars, lines, ports⟩

theorem HostPort.atRest.choose {h : HostPort} (rest : h.atRest) : h.choose.atRest := by
  obtain ⟨request, queue⟩ := rest
  refine ⟨?_, List.eq_nil_of_length_eq_zero (by rw [h.choose_queue_length, queue]; rfl)⟩
  unfold HostPort.choose
  split
  · split
    next r replying => rw [request] at replying; cases replying
    next =>
      split
      · exact request
      · split <;> exact request
  · exact request

/-- What a command may do while STARTING: the tables stay, and the rest comes to rest again. -/
theorem State.atRest.of_only {s t : State} {bs : List Block} (rest : s.atRest) (only : s.changesOnly bs t)
    (store : .store ∉ bs) (engine : .engine ∉ bs) (disp : .disp ∉ bs) (host : t.host.atRest)
    (lines : ∀ l, (t.line l).atRest) (ports : ∀ p, (t.port p).atRest) : t.atRest :=
  ⟨by rw [only .store store]; exact rest.programmer, host, by rw [only .engine engine]; exact rest.inHand,
    by rw [only .disp disp]; exact rest.disp, lines, ports⟩

theorem State.atRest.choose {s : State} (rest : s.atRest) : s.choose.atRest :=
  ⟨rest.programmer, rest.host.choose, rest.inHand, rest.disp, rest.lines, rest.ports⟩

theorem State.atRest.setPins {s : State} (rest : s.atRest) (x : Pins) : (s.setPins x).atRest :=
  ⟨rest.programmer, rest.host, rest.inHand, rest.disp, rest.lines, rest.ports⟩

theorem State.atRest.setHost {s : State} (rest : s.atRest) {h : HostPort} (host : h.atRest) : (s.setHost h).atRest :=
  ⟨rest.programmer, host, rest.inHand, rest.disp, rest.lines, rest.ports⟩

theorem State.atRest.setPort {s : State} (rest : s.atRest) {p : PortNo} {q : Port} (port : q.atRest) :
    (s.setPort p q).atRest := by
  refine ⟨rest.programmer, rest.host, rest.inHand, rest.disp, rest.lines, fun p' => ?_⟩
  by_cases e : p = p'
  · subst e
    rwa [State.port_setPort_self]
  · rw [State.port_setPort_ne _ _ _ _ e]
    exact rest.ports p'

theorem State.atRest.setLine {s : State} (rest : s.atRest) {l : Bank} {ln : Line} (line : ln.atRest) :
    (s.setLine l ln).atRest := by
  refine ⟨rest.programmer, rest.host, rest.inHand, rest.disp, fun l' => ?_, rest.ports⟩
  by_cases e : l = l'
  · subst e
    rwa [State.line_setLine_self]
  · rw [State.line_setLine_ne _ _ _ _ e]
    exact rest.lines l'

theorem Port.atRest.send {q : Port} (rest : q.atRest) (a : Answer) : (q.send a).atRest := by
  obtain ⟨state, -, memory, -⟩ := Port.send_fields q a
  exact ⟨state.trans rest.1, memory.trans rest.2⟩

/-! ### The commands while STARTING -/

theorem State.not_takes_of_starting {s : State} (starting : s.part.state = .starting) : ¬ s.canTake := by
  simp [State.canTake, starting]

theorem State.atRest.hostFrame {s : State} (rest : s.atRest) (starting : s.part.state = .starting) (tag : Byte)
    (r : Request) : (s.hostFrame tag r).atRest := by
  have hunting : s.hostHunt.atRest := rest.setHost ⟨rest.host.1, rest.host.2⟩
  unfold State.hostFrame State.goodFrame
  rw [State.takes_hostHunt (State.not_takes_of_starting starting)]
  split
  next h => cases h
  next =>
    split
    · exact (hunting.setHost (h := { s.hostHunt.host with owedBusy := some (r.type, tag) })
        ⟨hunting.host.1, hunting.host.2⟩).choose
    · exact hunting.choose

theorem State.hostFrame_part (s : State) (tag : Byte) (r : Request) : (s.hostFrame tag r).part = s.part := by
  refine s.hostFrame_blocks tag r .part ?_
  cases r <;> simp [Request.blocks]

theorem State.atRest.hostByte {s : State} (rest : s.atRest) (starting : s.part.state = .starting) (b : Byte) :
    (s.hostByte b).atRest := by
  unfold State.hostByte
  split
  · exact rest.setHost ⟨rest.host.1, rest.host.2⟩
  · split
    · exact rest.setHost ⟨rest.host.1, rest.host.2⟩
    · exact rest.hostFrame starting _ _

theorem State.atRest.hostBytes {s : State} (rest : s.atRest) (starting : s.part.state = .starting) (bs : List Byte) :
    (bs.foldl State.hostByte s).atRest := by
  induction bs generalizing s with
  | nil => exact rest
  | cons b bs ih =>
    have part : (s.hostByte b).part = s.part := s.hostByte_only b .part (by decide)
    exact ih (rest.hostByte starting b) (by rw [part]; exact starting)

theorem State.running_eq_false {s : State} (starting : s.part.state = .starting) : s.running = false := by
  simp [State.running, starting]

theorem State.atRest.readerHunt {s : State} (rest : s.atRest) (p : PortNo) : (s.readerHunt p).atRest :=
  rest.setPort ⟨(rest.ports p).1, (rest.ports p).2⟩

theorem State.atRest.readerFrame {s : State} (rest : s.atRest) (starting : s.part.state = .starting) (p : PortNo)
    (f : Option ReaderFrame) : (s.readerFrame p f).atRest := by
  have hunting := rest.readerHunt p
  have off : (s.readerHunt p).running = false := State.running_eq_false starting
  have answered : ∀ a, ((s.readerHunt p).answer p a).atRest := fun a => hunting.setPort ((hunting.ports p).send a)
  rcases f with _ | _ | _
  · exact hunting
  · simp only [State.readerFrame, State.readerArrival, State.presentArrival, off]
    split
    · exact hunting
    · exact answered _
  · simp only [State.readerFrame, State.readerArrival, State.pingArrival, off]
    split
    · exact hunting
    · exact answered _

theorem State.atRest.readerByte {s : State} (rest : s.atRest) (starting : s.part.state = .starting) (p : PortNo)
    (b : Byte) : (State.readerByte p s b).atRest := by
  unfold State.readerByte
  split
  · exact rest.setPort ⟨(rest.ports p).1, (rest.ports p).2⟩
  · exact rest.readerFrame starting p _

theorem State.atRest.readerBytes {s : State} (rest : s.atRest) (starting : s.part.state = .starting) (p : PortNo)
    (bs : List Byte) : (bs.foldl (State.readerByte p) s).atRest := by
  induction bs generalizing s with
  | nil => exact rest
  | cons b bs ih =>
    have part : (State.readerByte p s b).part = s.part := State.readerByte_only _ _ _ .part (by decide)
    exact ih (rest.readerByte starting p b) (by rw [part]; exact starting)

theorem State.atRest.hear {s : State} (rest : s.atRest) (l : Bank) (f : Transaction → State) : s.hear l f = s := by
  simp [State.hear, Line.listening, (rest.lines l).1]

theorem State.atRest.hearAnswer {s : State} (rest : s.atRest) (l : Bank) (address : Byte) (a : Option CarAnswer) :
    s.hearAnswer l address a = s := rest.hear l _

theorem State.atRest.answerBytes {s : State} (rest : s.atRest) (l : Bank) (bs : List Byte) :
    bs.foldl (State.answerByte l) s = s := by
  induction bs with
  | nil => rfl
  | cons b bs ih =>
    have same : State.answerByte l s b = s := rest.hear l _
    rw [List.foldl_cons, same, ih]

/-- A command that runs only in a RUNNING part. -/
theorem next_running_cases {s t a b : State} {p : Prop} [Decidable p] (starting : s.part.state = .starting)
    (run : (if s.running ∧ p then .next a else .next b : Host.Outcome State Fault Refusal) = .next t) : t = b := by
  rcases next_ite_cases run with ⟨⟨on, -⟩, -⟩ | ⟨-, h⟩
  · rw [State.running_eq_false starting] at on
    cases on
  · exact h

/-- A command of a line that runs only in a state other than IDLE. -/
theorem next_line_cases {s t a b : State} {l : Bank} {x : LineState} (rest : s.atRest) (ne : x ≠ .idle)
    (run : (if (s.line l).state = x then .next a else .next b : Host.Outcome State Fault Refusal) = .next t) : t = b := by
  rcases next_ite_cases run with ⟨e, -⟩ | ⟨-, h⟩
  · exact absurd (e.symm.trans (rest.lines l).1) ne
  · exact h

theorem exec_atRest {s t : State} {i : Instr} (rest : s.atRest) (starting : s.part.state = .starting)
    (run : exec i s = .next t) (pin : i ≠ .resetPin) (release : i ≠ .resetPinRelease) (scan : i ≠ .startUpScanEnd) :
    t.atRest := by
  by_cases request : ∃ x, requestOf i = some x
  · obtain ⟨⟨tag, r⟩, hr⟩ := request
    cases (exec_of_requestOf hr s).symm.trans run
    exact rest.hostFrame starting tag r
  have only := exec_changesOnly run
  cases i
  case resetPin => exact absurd rfl pin
  case resetPinRelease => exact absurd rfl release
  case startUpScanEnd => exact absurd rfl scan
  case hostPartialFrameTimeout bs =>
    cases run
    have heard := rest.hostBytes starting bs
    exact heard.setHost ⟨heard.host.1, heard.host.2⟩
  case verifyMatch =>
    rw [execVerifyMatch_none rest.programmer run]
    exact rest
  case verifyMismatch =>
    rw [execVerifyMismatch_none rest.programmer run]
    exact rest
  case recallInputAsserted b =>
    cases next_running_cases starting run
    exact rest.setPins _
  case recallInputDeasserted b =>
    cases next_running_cases starting run
    exact rest.setPins _
  case lrqAsserted l =>
    cases next_running_cases starting run
    exact rest.setPins _
  case lrqDeasserted l =>
    cases next_running_cases starting run
    exact rest.setPins _
  case present p _ _ _ =>
    cases run
    exact (rest.readerFrame starting p _).choose
  case ping p =>
    cases run
    exact (rest.readerFrame starting p _).choose
  case readerPartialFrameTimeout p bs =>
    cases run
    have heard := rest.readerBytes starting p bs
    exact (heard.readerHunt p).choose
  case replyShifterDone p =>
    rcases next_ite_cases run with ⟨_, rfl⟩ | ⟨_, rfl⟩
    · refine rest.setPort ?_
      obtain ⟨idle, memory⟩ := rest.ports p
      simpa [Port.atRest, Port.shifterDone, Port.settle, idle] using memory
    · exact rest
  case presentationTaking =>
    change execPresentationTaking s = _ at run
    simp only [execPresentationTaking, State.running_eq_false starting] at run
    cases run
    exact rest
  case decisionMoment =>
    change execDecisionMoment s = _ at run
    simp only [execDecisionMoment, rest.inHand] at run
    cases run
    exact rest
  case transactionChoice l =>
    cases next_running_cases starting run
    exact rest
  case sweepDue l =>
    change execSweepDue l s = _ at run
    unfold execSweepDue at run
    split at run <;> cases run
    · exact rest.setLine ⟨(rest.lines l).1, (rest.lines l).2⟩
    · exact rest
  case commandSent l =>
    cases next_line_cases rest (by decide) run
    exact rest
  case readbackMismatch l =>
    change execReadbackMismatch l s = _ at run
    simp only [execReadbackMismatch, (rest.lines l).1] at run
    cases run
    exact rest
  case backoffEnd l =>
    cases next_line_cases rest (by decide) run
    exact rest
  case faultEnd l =>
    cases next_line_cases rest (by decide) run
    exact rest
  case resendPauseEnd l =>
    rcases next_ite_cases run with ⟨⟨e, -⟩, -⟩ | ⟨-, rfl⟩
    · rw [(rest.lines l).1] at e
      cases e
    · exact rest
  case answerWindowExpiry l =>
    rcases next_ite_cases run with ⟨⟨e, -⟩, -⟩ | ⟨-, rfl⟩
    · simp [Line.listening, (rest.lines l).1] at e
    · exact rest
  case status l _ _ _ _ _ _ _ _ _ _ _ =>
    cases run
    rw [rest.hearAnswer]
    exact rest.choose
  case hold l _ =>
    cases run
    rw [rest.hearAnswer]
    exact rest.choose
  case resend l _ =>
    cases run
    rw [rest.hearAnswer]
    exact rest.choose
  case answerByteTimeout l bs =>
    cases run
    rw [rest.answerBytes, State.cutAnswer, rest.hear]
    exact rest.choose
  case badAnswer l bs =>
    cases run
    rw [rest.answerBytes]
    exact rest.choose
  case contactTimer =>
    cases next_running_cases starting run
    exact rest
  case abandonTimer =>
    change execAbandonTimer s = _ at run
    simp only [execAbandonTimer, State.running_eq_false starting] at run
    cases run
    exact rest
  case ticketExpiry =>
    change execTicketExpiry s = _ at run
    simp only [execTicketExpiry, State.running_eq_false starting] at run
    cases run
    exact rest
  case calendarSecondAdvance =>
    exact rest.of_only only (by decide) (by decide) (by decide) (only .host (by decide) ▸ rest.host)
      (fun l => by rw [State.line, only .lines (by decide)]; exact rest.lines l)
      fun p => by rw [State.port, only .ports (by decide)]; exact rest.ports p
  case replySent =>
    change execReplySent s = _ at run
    simp only [execReplySent, rest.host.1] at run
    split at run <;> cases run <;> exact rest
  case busyReplySent =>
    rcases next_ite_cases run with ⟨_, rfl⟩ | ⟨_, rfl⟩
    · exact (rest.setHost (h := { s.host with owedBusy := none, tx := .free }) ⟨rest.host.1, rest.host.2⟩).choose
    · exact rest
  case reportSent =>
    change execReportSent s = _ at run
    unfold execReportSent at run
    split at run <;> cases run
    next cls _ =>
      exact (rest.setHost (h := { s.host with queue := removeOldest cls s.host.queue, tx := .free })
        ⟨rest.host.1, by simp [rest.host.2, removeOldest]⟩).choose
    all_goals exact rest
  case reportStopIdleEnd =>
    rcases next_ite_cases run with ⟨_, rfl⟩ | ⟨_, rfl⟩
    · exact (rest.setHost (h := { s.host with tx := .free }) ⟨rest.host.1, rest.host.2⟩).choose
    · exact rest
  all_goals exact absurd ⟨_, rfl⟩ request

/-! ### The part state -/

theorem State.resetAll_atRest (s : State) (part : Part) : (s.resetAll part).atRest := by
  have disp : DispatchBlock.reset.atRest := by
    refine ⟨rfl, rfl, ?_, ?_⟩ <;> decide
  have lines : ∀ l, State.reset.line l = Line.reset := by decide
  have ports : ∀ p, State.reset.port p = Port.reset := by decide
  refine ⟨rfl, ⟨rfl, rfl⟩, rfl, disp, fun l => ?_, fun p => ?_⟩
  · show (State.reset.line l).atRest
    rw [lines]
    exact ⟨rfl, rfl, rfl⟩
  · show (State.reset.port p).atRest
    rw [ports]
    exact ⟨rfl, rfl⟩

theorem State.atRest.scan {s : State} (rest : s.atRest) : s.scan.atRest :=
  ⟨rfl, rest.host, rest.inHand, rest.disp, rest.lines, rest.ports⟩

theorem State.atRest.setPart {s : State} (rest : s.atRest) (part : Part) : (s.setPart part).atRest :=
  ⟨rest.programmer, rest.host, rest.inHand, rest.disp, rest.lines, rest.ports⟩

theorem State.startingOk_of_part {s t : State} (start : s.startingOk) (part : t.part = s.part)
    (rest : s.part.state = .starting → t.atRest) : t.startingOk := by
  rw [State.startingOk_iff] at start ⊢
  rw [part]
  exact ⟨start.1, rest⟩

theorem exec_startingOk {s t : State} {i : Instr} (start : s.startingOk) (run : exec i s = .next t) : t.startingOk := by
  have start' := s.startingOk_iff.1 start
  obtain ⟨pin, rest⟩ := start'
  by_cases reset : i = .resetPin
  · subst reset
    cases run
    exact (State.startingOk_iff _).2 ⟨fun _ => ⟨rfl, rfl⟩, fun _ => s.resetAll_atRest _⟩
  by_cases release : i = .resetPinRelease
  · subst release
    rcases next_ite_cases run with ⟨held, rfl⟩ | ⟨_, rfl⟩
    · refine (State.startingOk_iff _).2 ⟨fun e => (by cases e), fun _ => ?_⟩
      exact ((rest (pin held).1).setPart _).scan
    · exact start
  by_cases scan : i = .startUpScanEnd
  · subst scan
    rcases next_ite_cases run with ⟨⟨_, scanning⟩, rfl⟩ | ⟨_, rfl⟩
    · have part := execStartUpScanEnd_only s .part (by decide)
      refine (State.startingOk_iff _).2 ⟨fun held => ?_, fun off => ?_⟩
      · rw [part] at held
        have off := (pin held).2
        rw [scanning] at off
        cases off
      · rw [part] at off
        cases off
    · exact start
  have others : i ≠ .replySent → t.startingOk := fun reply => by
    have only := exec_changesOnly run
    have part : t.part = s.part := by
      refine only .part ?_
      cases i
      case resetPin => exact absurd rfl reset
      case resetPinRelease => exact absurd rfl release
      case startUpScanEnd => exact absurd rfl scan
      case replySent => exact absurd rfl reply
      all_goals simp only [blocksOf]; decide
    exact State.startingOk_of_part start part fun starting => exec_atRest (rest starting) starting run reset release scan
  by_cases reply : i = .replySent
  · subst reply
    change execReplySent s = _ at run
    unfold execReplySent at run
    split at run
    · split at run <;> cases run
      next r replying =>
        unfold State.replyDone
        split
        · exact (State.startingOk_iff _).2 ⟨fun e => (by cases e), fun _ => (s.resetAll_atRest _).scan⟩
        · refine State.startingOk_of_part start rfl fun starting => ?_
          have idle := (rest starting).host.1
          rw [replying] at idle
          cases idle
      all_goals exact start
    · cases run
      exact start
  · exact others reply

theorem State.tick_startingOk {s : State} (start : s.startingOk) : s.tick.startingOk := by
  rw [State.startingOk_iff] at start ⊢
  unfold State.tick
  split
  · exact start
  next free =>
    refine ⟨fun held => absurd held free, fun starting => ?_⟩
    have rest := start.2 starting
    refine ⟨rest.programmer, rest.host, rest.inHand, rest.disp, fun l => ?_, rest.ports⟩
    show Line.atRest (Vector.get (Vector.map _ _) _)
    rw [Vector.get_eq_getElem, Vector.getElem_map]
    exact rest.lines l

/-- Settles O55: the engine's hand and the ports move together, and a STARTING part stays at rest. -/
theorem stepKeepsPortsAndEngineInStep : Obligations.StepKeepsPortsAndEngineInStep := by
  intro s t start ok run
  refine step_keeps (P := fun s => s.startingOk ∧ s.portsOk) (fun s q h => ⟨h.1, h.2⟩) (fun s h => ?_) (fun i s t h run => ?_)
    ⟨start, ok⟩ run
  · exact ⟨State.tick_startingOk h.1, (State.portsKeep.of_blocks s.tick_only (by decide) (by decide)).portsOk h.2⟩
  · exact ⟨exec_startingOk h.1 run, exec_portsOk h.1 h.2 run⟩

end Sys2Proof.Machine
end

section
/-! SUPPORT: what steps 7 to 13 answer when they pass (R68 to R73, R112, R113): the free id, the route, and the lowest
lane over all that remain. -/

namespace Sys2Proof.Machine

theorem State.entryBanks_rising (s : State) (home : Floor) (banks : BankSet) :
    (s.entryBanks home banks).Pairwise (· < ·) := (List.pairwise_lt_finRange 4).filter _

theorem State.directBanks_rising (s : State) (home : Floor) (banks : BankSet) (d : Floor) :
    (s.directBanks home banks d).Pairwise (· < ·) := (s.entryBanks_rising home banks).filter _

theorem State.transferPairs_rising (s : State) (home : Floor) (banks : BankSet) (d : Floor) :
    (s.transferPairs home banks d).Pairwise fun p q => p.1 < q.1 ∨ (p.1 = q.1 ∧ p.2 < q.2) := by
  refine List.pairwise_flatMap.2 ⟨fun b _ => ?_, (s.entryBanks_rising home banks).imp fun {b c} lt p hp q hq => .inl ?_⟩
  · exact List.pairwise_map.2 (((List.pairwise_lt_finRange 128).filter _).imp fun lt => .inr ⟨rfl, lt⟩)
  · obtain ⟨_, -, rfl⟩ := List.mem_map.1 hp
    obtain ⟨_, -, rfl⟩ := List.mem_map.1 hq
    exact lt

/-- The winner of a trip against any lane of another trip whose winner costs no less. -/
theorem State.lane_le_of_winners {s : State} {b h : Bank} {t u : Trip} {c : CarNo} {n : Nat}
    (won : s.evaluate b t = some (c, n)) (le : ∀ a m, s.evaluate h u = some (a, m) → n ≤ m) (a : CarNo) :
    s.lane b t c ≤ s.lane h u a ∧
      (s.lane b t c = s.lane h u a → ∃ a' m, s.evaluate h u = some (a', m) ∧ m = n ∧ a' ≤ a) := by
  obtain ⟨cost, bound, -, -⟩ := State.evaluate_some won
  cases other : s.evaluate h u with
  | none =>
    rw [State.evaluate_eq_none_iff.1 other a, ← cost]
    exact ⟨by omega, fun e => by omega⟩
  | some x =>
    obtain ⟨a', m⟩ := x
    obtain ⟨cost', -, least, first⟩ := State.evaluate_some other
    have le' := le a' m other
    have least' := least a
    rw [← cost]
    refine ⟨le'.trans least', fun e => ⟨a', m, rfl, by omega, ?_⟩⟩
    by_contra lt
    have := first a (lt_of_not_ge lt)
    omega

/-- R68 to R73, R112, R113: what a grant stands on. -/
structure State.grants (s : State) (r : Credential) (home : Floor) (banks : BankSet) (d : Floor) (id : Nat) (x : Choice) :
    Prop where
  away : d ≠ home
  isOpen : (s.floor d).state = .isOpen
  permitted : (s.permitted r).has d = true
  free : s.freeId = some id
  included : s.lane x.bank { origin := home, dest := x.transfer.getD d, units := r.units } x.car ≤ 65534
  direct : x.transfer = none →
    s.direct home banks d x.bank ∧ s.bankPasses r x.bank ∧
      ∀ h, s.direct home banks d h → s.bankPasses r h → ∀ a,
        s.lane x.bank { origin := home, dest := d, units := r.units } x.car ≤
            s.lane h { origin := home, dest := d, units := r.units } a ∧
          (s.lane x.bank { origin := home, dest := d, units := r.units } x.car =
              s.lane h { origin := home, dest := d, units := r.units } a →
            x.bank < h ∨ (x.bank = h ∧ x.car ≤ a))
  transfer : ∀ t, x.transfer = some t →
    (s.disp.tickets.length < 256 ∨ ∃ y ∈ s.disp.tickets, y.badge = r.badge) ∧
      (∀ h, ¬ s.direct home banks d h) ∧ s.pairRemains r home banks d x.bank t ∧
      ∀ h g, s.pairRemains r home banks d h g → ∀ a,
        s.lane x.bank { origin := home, dest := t, units := r.units } x.car ≤
            s.lane h { origin := home, dest := g, units := r.units } a ∧
          (s.lane x.bank { origin := home, dest := t, units := r.units } x.car =
              s.lane h { origin := home, dest := g, units := r.units } a →
            x.bank < h ∨ (x.bank = h ∧ (t < g ∨ (t = g ∧ x.car ≤ a))))

section
variable {s : State} {r : Credential} {home d : Floor} {banks : BankSet} {id : Nat} {x : Choice}

theorem State.findCar_ok {badge : Badge} {override : Bool} {units : Nat}
    (ok : s.findCar badge override home banks d units = .ok (id, x)) :
    ∃ q kept, s.route home banks d = some q ∧ s.filterRoute override d q = .ok kept ∧ s.freeId = some id ∧
      s.ticketRoom badge kept = true ∧ s.chooseCar home d units kept = some x := by
  unfold State.findCar at ok
  split at ok
  · cases ok
  next q route =>
    split at ok
    · cases ok
    next kept filter =>
      split at ok
      · cases ok
      next i free =>
        split at ok
        · cases ok
        next room =>
          split at ok
          · cases ok
          next c chosen =>
            cases ok
            exact ⟨q, kept, route, filter, free, by simpa using room, chosen⟩

theorem State.filterRoute_direct_ok {override : Bool} {bs : List Bank} {kept : Route}
    (ok : s.filterRoute override d (.direct bs) = .ok kept) : kept = .direct (bs.filter (s.passes override)) := by
  simp only [State.filterRoute] at ok
  split at ok <;> cases ok
  rfl

theorem State.filterRoute_transfer_ok {override : Bool} {ps : List (Bank × Floor)} {kept : Route}
    (ok : s.filterRoute override d (.transfer ps) = .ok kept) : kept = .transfer (ps.filter (s.pairPasses override d)) := by
  simp only [State.filterRoute] at ok
  split at ok <;> cases ok
  rfl

/-- R69, R112: the winner over direct candidates. -/
theorem State.chooseCar_of_direct
    (chosen : s.chooseCar home d r.units
      (.direct ((s.directBanks home banks d).filter (s.passes (s.overrideFlag r)))) = some x) :
    x.transfer = none ∧ s.lane x.bank { origin := home, dest := d, units := r.units } x.car ≤ 65534 ∧
      s.direct home banks d x.bank ∧ s.bankPasses r x.bank ∧
      ∀ h, s.direct home banks d h → s.bankPasses r h → ∀ a,
        s.lane x.bank { origin := home, dest := d, units := r.units } x.car ≤
            s.lane h { origin := home, dest := d, units := r.units } a ∧
          (s.lane x.bank { origin := home, dest := d, units := r.units } x.car =
              s.lane h { origin := home, dest := d, units := r.units } a →
            x.bank < h ∨ (x.bank = h ∧ x.car ≤ a)) := by
  obtain ⟨none, listed, n, won, least⟩ := State.chooseCar_direct_some ((s.directBanks_rising home banks d).filter _) chosen
  obtain ⟨listed, passes⟩ := List.mem_filter.1 listed
  obtain ⟨cost, bound, -, -⟩ := State.evaluate_some won
  refine ⟨none, cost ▸ bound, State.mem_directBanks.1 listed, State.passes_iff.1 passes, fun h direct passes a => ?_⟩
  have member := List.mem_filter.2 ⟨State.mem_directBanks.2 direct, State.passes_iff.2 passes⟩
  obtain ⟨le, tie⟩ := State.lane_le_of_winners won (fun a m e => (least h member a m e).1) a
  refine ⟨le, fun e => ?_⟩
  obtain ⟨a', m, other, same, before⟩ := tie e
  rcases lt_or_eq_of_le ((least h member a' m other).2 same.symm) with lt | eq
  · exact .inl lt
  · rw [← eq, won] at other
    cases other
    exact .inr ⟨eq, before⟩

/-- R70, R113: the winner over transfer pairs. -/
theorem State.chooseCar_of_transfer
    (chosen : s.chooseCar home d r.units
      (.transfer ((s.transferPairs home banks d).filter (s.pairPasses (s.overrideFlag r) d))) = some x) :
    ∃ t, x.transfer = some t ∧ s.lane x.bank { origin := home, dest := t, units := r.units } x.car ≤ 65534 ∧
      s.pairRemains r home banks d x.bank t ∧
      ∀ h g, s.pairRemains r home banks d h g → ∀ a,
        s.lane x.bank { origin := home, dest := t, units := r.units } x.car ≤
            s.lane h { origin := home, dest := g, units := r.units } a ∧
          (s.lane x.bank { origin := home, dest := t, units := r.units } x.car =
              s.lane h { origin := home, dest := g, units := r.units } a →
            x.bank < h ∨ (x.bank = h ∧ (t < g ∨ (t = g ∧ x.car ≤ a)))) := by
  have remains : ∀ p : Bank × Floor,
      p ∈ (s.transferPairs home banks d).filter (s.pairPasses (s.overrideFlag r) d) ↔ s.pairRemains r home banks d p.1 p.2 :=
    fun p => by
      rw [List.mem_filter, State.mem_transferPairs, State.pairPasses_iff]
      rfl
  obtain ⟨t, via, listed, n, won, least⟩ :=
    State.chooseCar_transfer_some ((s.transferPairs_rising home banks d).filter _) chosen
  obtain ⟨cost, bound, -, -⟩ := State.evaluate_some won
  refine ⟨t, via, cost ▸ bound, (remains (x.bank, t)).1 listed, fun h g remain a => ?_⟩
  have member := (remains (h, g)).2 remain
  obtain ⟨le, tie⟩ := State.lane_le_of_winners won (fun a m e => (least (h, g) member a m e).1) a
  refine ⟨le, fun e => ?_⟩
  obtain ⟨a', m, other, same, before⟩ := tie e
  rcases (least (h, g) member a' m other).2 same.symm with lt | ⟨eq, floor⟩
  · exact .inl lt
  · refine .inr ⟨eq, ?_⟩
    rcases lt_or_eq_of_le floor with lt | e
    · exact .inl lt
    · simp only at eq e
      rw [← eq, ← e, won] at other
      cases other
      exact .inr ⟨e, before⟩

/-- Steps 7 to 13 answer an id and a choice only as R68 to R73, R112 and R113 say. -/
theorem State.testTrip_ok (ok : s.testTrip r home banks d = .ok (id, x)) : s.grants r home banks d id x := by
  unfold State.testTrip at ok
  split at ok
  · cases ok
  next tested =>
    obtain ⟨q, kept, route, filter, free, room, chosen⟩ := State.findCar_ok ok
    have away : d ≠ home := fun e => by simp [State.testFloor, e] at tested
    have isOpen : (s.floor d).state = .isOpen := by
      cases hs : (s.floor d).state with
      | isOpen => rfl
      | isClosed => simp [State.testFloor, away, hs] at tested
    have permitted : (s.permitted r).has d = true := by
      simpa [State.testFloor, away, isOpen] using tested
    by_cases near : ∃ b, s.direct home banks d b
    · rw [State.route_of_direct near] at route
      cases route
      rw [State.filterRoute_direct_ok filter] at chosen
      obtain ⟨none, included, direct⟩ := State.chooseCar_of_direct chosen
      exact ⟨away, isOpen, permitted, free, by rwa [none], fun _ => direct, fun t e => by rw [none] at e; cases e⟩
    · have far : ∀ b, ¬ s.direct home banks d b := fun b hb => near ⟨b, hb⟩
      have pair : ∃ b t, s.transferPair home banks d b t := by
        by_contra noPair
        rw [State.route_of_not_reaches fun reach => reach.elim near noPair] at route
        cases route
      rw [State.route_of_transfer far pair] at route
      cases route
      rw [State.filterRoute_transfer_ok filter] at chosen room
      obtain ⟨t, via, included, remains⟩ := State.chooseCar_of_transfer chosen
      have space : s.disp.tickets.length < 256 ∨ ∃ y ∈ s.disp.tickets, y.badge = r.badge := by
        by_contra full
        rw [not_or, not_lt] at full
        rw [State.ticketRoom_transfer_eq_false_iff.2 ⟨full.1, fun y hy e => full.2 ⟨y, hy, e⟩⟩] at room
        cases room
      refine ⟨away, isOpen, permitted, free, by rw [via]; exact included, fun e => ?_, fun t' e => ?_⟩
      · rw [via] at e
        cases e
      · cases via.symm.trans e
        exact ⟨space, far, remains⟩

/-- R69, R70: the bank of a grant passes the mode filter. -/
theorem State.grants.passes (h : s.grants r home banks d id x) : s.bankPasses r x.bank := by
  cases via : x.transfer with
  | none =>
    obtain ⟨-, passes, -⟩ := h.direct via
    exact passes
  | some t =>
    obtain ⟨-, -, ⟨-, passes, -⟩, -⟩ := h.transfer t via
    exact passes

/-- R70: no transfer floor is the home floor or the destination. -/
theorem State.grants.transfer_ne {t : Floor} (h : s.grants r home banks d id x) (via : x.transfer = some t) :
    t ≠ home ∧ t ≠ d := by
  obtain ⟨-, far, ⟨⟨enters, -, -, away, serves, -⟩, -, -⟩, -⟩ := h.transfer t via
  exact ⟨away, fun e => far x.bank ⟨enters, e ▸ serves⟩⟩

end

end Sys2Proof.Machine
end

section
/-! PROOF of O14 (R4): the check of a credential record, case by case. -/

namespace Sys2Proof.Machine

theorem BadgeState.ofCode_eq_none_iff {b : Byte} : BadgeState.ofCode b = none ↔ b ≠ 1 ∧ b ≠ 2 ∧ b ≠ 3 := by
  have same : ∀ n : Nat, n < 256 → (b = BitVec.ofNat 8 n ↔ b.toNat = n) := fun n hn => by
    rw [← BitVec.toNat_inj, BitVec.toNat_ofNat, Nat.mod_eq_of_lt hn]
  have one := same 1 (by decide)
  have two := same 2 (by decide)
  have three := same 3 (by decide)
  unfold BadgeState.ofCode
  split
  next h => simp [one.2 h]
  next h => simp [two.2 h]
  next h => simp [three.2 h]
  next n1 n2 n3 => exact ⟨fun _ => ⟨fun e => n1 (one.1 e), fun e => n2 (two.1 e), fun e => n3 (three.1 e)⟩, fun _ => rfl⟩

theorem BadgeState.code_of_ofCode {b : Byte} {st : BadgeState} (h : BadgeState.ofCode b = some st) : st.code = b := by
  unfold BadgeState.ofCode at h
  split at h <;> cases h <;> simp [BadgeState.code, ← BitVec.toNat_inj, *]

theorem floorOf_eq_none_iff {n : Nat} : floorOf n = none ↔ 128 ≤ n := by
  unfold floorOf
  split <;> simp_all

theorem floorOf_eq_some_iff {n : Nat} {f : Floor} : floorOf n = some f ↔ f.val = n := by
  unfold floorOf
  split
  next h => simp [Fin.ext_iff, eq_comm]
  next h => exact ⟨fun e => (by cases e), fun (e : f.val = n) => absurd (e ▸ f.isLt) h⟩

theorem floorOf_map_val (n : Nat) : (floorOf n).map (fun f => f.val) = if n < 128 then some n else none := by
  unfold floorOf
  split <;> simp [*]

theorem clampFloors_map_val (bs : List Byte) :
    (clampFloors bs).map (fun f => f.val) = (bs.map fun b => b.toNat).filter fun n => n < 128 := by
  induction bs with
  | nil => rfl
  | cons b bs ih =>
    unfold clampFloors at ih ⊢
    rw [List.filterMap_cons]
    by_cases h : b.toNat < 128
    · have some : floorOf b.toNat = some ⟨b.toNat, h⟩ := floorOf_eq_some_iff.2 rfl
      simp [some, h, ih]
    · have none : floorOf b.toNat = none := floorOf_eq_none_iff.2 (not_lt.1 h)
      simp [none, h, ih]

section
variable {badge : Badge} {state tenant units : Byte} {groups : List Byte} {defaultFloor : Byte} {personal : List Byte}
  {validFrom : BitVec 16} {hasUntil : Byte} {validUntil : BitVec 16}

theorem byte_toNat_eq_zero_iff {b : Byte} : b.toNat = 0 ↔ b = 0 := by
  rw [← BitVec.toNat_inj]
  rfl

/-- R4: when the check takes a record, and the record. -/
theorem checkCredential_eq_some_iff {r : Credential} :
    checkCredential badge state tenant units groups defaultFloor personal validFrom hasUntil validUntil = some r ↔
      ((badge.toNat ≠ 0 ∧ badge.toNat ≠ 4294967295) ∧
        (groups.length ≠ 0 ∧ groups.length ≤ 4 ∧ personal.length ≤ 2) ∧
        (hasUntil.toNat = 0 ∨ validFrom.toNat ≤ validUntil.toNat)) ∧
      ∃ st tn, BadgeState.ofCode state = some st ∧ floorOf tenant.toNat = some tn ∧
        r = { badge := badge, state := st, tenant := tn, units := clampUnits units, groups := groups,
              defaultFloor := floorOf defaultFloor.toNat, personal := clampFloors personal, validFrom := validFrom,
              validUntil := if hasUntil.toNat = 0 then none else some validUntil } := by
  unfold checkCredential
  split
  next bad => exact ⟨fun h => (by cases h), fun ⟨⟨⟨h0, h1⟩, _⟩, _⟩ => absurd bad (by simp [h0, h1])⟩
  next named =>
    split
    next bad =>
      exact ⟨fun h => (by cases h), fun ⟨⟨_, ⟨h0, h1, h2⟩, _⟩, _⟩ => absurd bad (by simp [h0]; omega)⟩
    next counted =>
      split
      next bad => exact ⟨fun h => (by cases h), fun ⟨⟨_, _, h0⟩, _⟩ => by omega⟩
      next ordered =>
        have checks : (badge.toNat ≠ 0 ∧ badge.toNat ≠ 4294967295) ∧
            (groups.length ≠ 0 ∧ groups.length ≤ 4 ∧ personal.length ≤ 2) ∧
            (hasUntil.toNat = 0 ∨ validFrom.toNat ≤ validUntil.toNat) := by
          refine ⟨not_or.1 named, ?_, ?_⟩ <;> omega
        rw [and_iff_right checks]
        cases hst : BadgeState.ofCode state with
        | none => simp
        | some st =>
          cases htn : floorOf tenant.toNat with
          | none => simp
          | some tn => simp [eq_comm (a := r)]

theorem checkCredential_eq_none_iff :
    checkCredential badge state tenant units groups defaultFloor personal validFrom hasUntil validUntil = none ↔
      badge = 0 ∨ badge = 4294967295 ∨ (state ≠ 1 ∧ state ≠ 2 ∧ state ≠ 3) ∨ groups.length = 0 ∨ 4 < groups.length ∨
        2 < personal.length ∨ 128 ≤ tenant.toNat ∨ (hasUntil ≠ 0 ∧ validUntil.toNat < validFrom.toNat) := by
  have zero : badge = 0 ↔ badge.toNat = 0 := by
    rw [← BitVec.toNat_inj]
    rfl
  have top : badge = 4294967295 ↔ badge.toNat = 4294967295 := by
    rw [← BitVec.toNat_inj]
    rfl
  rw [zero, top, ← BadgeState.ofCode_eq_none_iff, ← floorOf_eq_none_iff, ne_eq hasUntil, ← byte_toNat_eq_zero_iff]
  have taken : (∃ r, checkCredential badge state tenant units groups defaultFloor personal validFrom hasUntil validUntil =
      some r) ↔ ((badge.toNat ≠ 0 ∧ badge.toNat ≠ 4294967295) ∧
        (groups.length ≠ 0 ∧ groups.length ≤ 4 ∧ personal.length ≤ 2) ∧
        (hasUntil.toNat = 0 ∨ validFrom.toNat ≤ validUntil.toNat)) ∧
      (∃ st, BadgeState.ofCode state = some st) ∧ ∃ tn, floorOf tenant.toNat = some tn := by
    simp only [checkCredential_eq_some_iff, exists_and_left]
    refine and_congr Iff.rfl ⟨fun ⟨_, st, hst, tn, htn, _⟩ => ⟨⟨st, hst⟩, tn, htn⟩,
      fun ⟨⟨st, hst⟩, tn, htn⟩ => ⟨_, st, hst, tn, htn, rfl⟩⟩
  rw [← not_iff_not, ← ne_eq, Option.ne_none_iff_exists', taken]
  cases BadgeState.ofCode state <;> cases floorOf tenant.toNat <;> simp [-List.length_eq_zero_iff]
  omega

end

/-- Settles O14: the check's outcome as a record with its conditions, and the clamped fields read off it. -/
theorem credentialCheckRefusesAndClamps : Obligations.CredentialCheckRefusesAndClamps := by
  intro badge state tenant units groups defaultFloor personal validFrom hasUntil validUntil
  refine ⟨checkCredential_eq_none_iff, fun r checked => ?_⟩
  obtain ⟨-, st, tn, hst, htn, rfl⟩ := checkCredential_eq_some_iff.1 checked
  exact ⟨rfl, BadgeState.code_of_ofCode hst, floorOf_eq_some_iff.1 htn, rfl, rfl, floorOf_map_val _,
    clampFloors_map_val _, rfl, by simp only [byte_toNat_eq_zero_iff]⟩

end Sys2Proof.Machine
end

section
/-! PROOF of O56 (R79, R118, R120): what each event leaves of the Booking Table and the Ticket Table. -/

namespace Sys2Proof.Machine

/-! ### The credential of a decision (R3, R6) -/

theorem clampUnits_eq (b : Byte) : clampUnits b = 1 ∨ clampUnits b = 4 := by
  unfold clampUnits
  split <;> simp

theorem decodeCredential_units {bs : List Byte} {r : Credential} (h : decodeCredential bs = some r) :
    r.units = 1 ∨ r.units = 4 := by
  unfold decodeCredential at h
  simp only at h
  split at h
  · cases h
  · obtain ⟨-, st, tn, -, -, rfl⟩ := checkCredential_eq_some_iff.1 h
    exact clampUnits_eq _

theorem StoreBlock.record_units {st : StoreBlock} {p k : Nat} {r : Credential} (h : st.record p k = some r) :
    r.units = 1 ∨ r.units = 4 := by
  obtain ⟨-, -, raw⟩ := StoreBlock.record_eq_some_iff.1 h
  exact decodeCredential_units (rawRecord_eq_some_iff.1 raw).1

/-- A lookup that finds something finds it in a slot in use. -/
theorem StoreBlock.lookup_found {st : StoreBlock} {badge : Badge} {r : Credential} {p k : Nat}
    (h : st.lookup badge = .found r p k) : st.record p k = some r ∧ r.badge = badge := by
  have idle : st.lookup badge ≠ .inProgram := by rw [h]; simp
  rw [StoreBlock.lookup_eq_answer idle] at h
  obtain ⟨_, _, record, same, _⟩ := StoreBlock.search_eq_some_iff.1 (StoreBlock.answer_eq_found_iff.1 h)
  exact ⟨record, same⟩

theorem State.identify_ok {s : State} {badge : Badge} {r : Credential} (h : s.identify badge = some (.ok r)) :
    ∃ p k, s.store.lookup badge = .found r p k := by
  unfold State.identify at h
  split at h
  · cases h
  · cases h
  · cases h
  next c p k found =>
    unfold State.testCredential at h
    split at h
    · cases h
    · cases h
    · split at h
      · cases h
      · split at h
        · cases h
        · cases h
          exact ⟨p, k, found⟩

/-! ### Steps that keep the tables -/

/-- From `s` to `t` the tables stay as R79, R118 and R120 want them. -/
structure State.tablesKeep (s t : State) : Prop where
  bookings : s.bookingsOk → t.bookingsOk
  tickets : s.ticketsOk → t.ticketsOk
  quiet : s.quietOk → t.quietOk

theorem State.tablesKeep.refl (s : State) : s.tablesKeep s := ⟨id, id, id⟩

theorem State.tablesKeep.trans {s t u : State} (h : s.tablesKeep t) (g : t.tablesKeep u) : s.tablesKeep u :=
  ⟨g.bookings ∘ h.bookings, g.tickets ∘ h.tickets, g.quiet ∘ h.quiet⟩

theorem State.tablesKeep.of_disp {s t : State} (disp : t.disp = s.disp) : s.tablesKeep t := by
  refine ⟨fun h => ?_, fun h => ?_, fun h => ?_⟩
  · unfold State.bookingsOk
    rwa [disp]
  · unfold State.ticketsOk
    rwa [disp]
  · unfold State.quietOk State.quiet State.mode
    rwa [disp]

theorem State.tablesKeep.of_blocks {s t : State} {bs : List Block} (only : s.changesOnly bs t) (disp : .disp ∉ bs) :
    s.tablesKeep t := .of_disp (only .disp disp)

/-- A list of operations of one kind. -/
theorem State.tablesKeep.foldl {α : Type} {s t : State} {f : State → α → State} {xs : List α}
    (hf : ∀ (u : State) (x : α), u.tablesKeep (f u x)) (h : s.tablesKeep t) : s.tablesKeep (xs.foldl f t) := by
  induction xs generalizing t with
  | nil => exact h
  | cons x xs ih => exact ih (h.trans (hf t x))

theorem State.event.bookingsOk {s t : State} (h : s.event t) (ok : s.bookingsOk) : t.bookingsOk := by
  obtain ⟨once, each⟩ := ok
  refine ⟨once.sublist h.bookingIds, fun k hk => ?_⟩
  obtain ⟨j, hj, e⟩ := h.bookings k hk
  rw [e]
  exact each j hj

theorem State.event.ticketsOk {s t : State} (h : s.event t) (ok : s.ticketsOk) : t.ticketsOk := by
  obtain ⟨room, once, each⟩ := ok
  refine ⟨?_, once.sublist h.ticketBadges, fun x hx => ?_⟩
  · have le := h.ticketBadges.length_le
    simp only [List.length_map] at le
    omega
  · obtain ⟨y, hy, e⟩ := h.tickets x hx
    rw [e]
    exact each y hy

/-- No booking is in the bank and no ticket names it. -/
def State.carriesNone (s : State) (b : Bank) : Prop :=
  (∀ k ∈ s.disp.bookings, k.bank ≠ b) ∧ ∀ x ∈ s.disp.tickets, x.names b = false

theorem State.quietOk_iff (s : State) : s.quietOk ↔ ∀ b, s.quiet b → s.carriesNone b := Iff.rfl

/-- A bank that carries nobody goes on so. -/
theorem State.event.carriesNone {s t : State} (h : s.event t) {b : Bank} (none : s.carriesNone b) : t.carriesNone b := by
  obtain ⟨bookings, tickets⟩ := none
  refine ⟨fun k hk => ?_, fun x hx => ?_⟩
  · obtain ⟨j, hj, e⟩ := h.bookings k hk
    rw [e]
    exact bookings j hj
  · obtain ⟨y, hy, e⟩ := h.tickets x hx
    rw [e]
    exact tickets y hy

theorem State.event.tablesKeep {s t : State} (h : s.event t) : s.tablesKeep t := by
  refine ⟨h.bookingsOk, h.ticketsOk, fun ok b quiet => ?_⟩
  unfold State.quiet State.mode at quiet
  rw [h.modes] at quiet
  exact h.carriesNone (ok b quiet)

/-! ### Changes of mode (R120, R153, R154) -/

/-- R153, R154: a cleared bank carries nobody. -/
theorem State.clearBank_carriesNone (s : State) (b : Bank) (r : CancelReason) : (s.clearBank b r).carriesNone b := by
  unfold State.clearBank
  simp only
  refine (State.eachConfigured_event _ _ _).carriesNone ⟨fun k hk => ?_, fun x hx => ?_⟩
  · rw [State.setTickets_bookings, State.cancelAll_bookings] at hk
    obtain ⟨mem, kept⟩ := List.mem_filter.1 hk
    intro same
    have listed := (mem_serialOrder (s.disp.bookings.filter fun k => k.bank = b) k).2
      (List.mem_filter.2 ⟨mem, by simpa using same⟩)
    simpa using List.all_eq_true.1 kept k listed
  · simpa using (List.mem_filter.1 hx).2

theorem State.changeMode_carriesNone {s : State} {b : Bank} {new old : BankMode} {i : Bool} (had : s.mode b = some old)
    (quiet : new = .out ∨ new = .fireRecall) : (s.changeMode b new i).carriesNone b := by
  unfold State.changeMode State.modeEffects
  rw [had]
  rcases quiet with rfl | rfl
  · exact ((State.formBank_event _ _).trans (State.post_event _ _ _)).carriesNone (State.clearBank_carriesNone _ _ _)
  · exact ((State.eachConfigured_event _ _ _).trans (State.post_event _ _ _)).carriesNone
      (State.clearBank_carriesNone _ _ _)

theorem State.changeMode_tablesKeep (s : State) (b : Bank) (new : BankMode) (i : Bool) :
    s.tablesKeep (s.changeMode b new i) := by
  cases had : s.mode b with
  | none =>
    unfold State.changeMode
    rw [had]
    exact .refl s
  | some old =>
    have event := State.changeMode_event (new := new) (i := i) had
    refine ⟨fun ok => event.bookingsOk ok, fun ok => event.ticketsOk ok, fun ok c quiet => ?_⟩
    have mode : (s.changeMode b new i).mode c = (s.setMode b new).mode c := by rw [State.mode, event.modes, State.mode]
    unfold State.quiet at quiet
    rw [mode] at quiet
    by_cases e : b = c
    · subst e
      rw [State.mode_setMode_self] at quiet
      exact State.changeMode_carriesNone had (by simpa using quiet)
    · rw [State.mode_setMode_ne _ _ _ _ e] at quiet
      exact event.carriesNone (s := s.setMode b new) (ok c quiet)

theorem State.jobCompleted_tablesKeep (s : State) (g : Program) : s.tablesKeep (s.jobCompleted g) := by
  have applied : s.tablesKeep (s.applyJob g.job) := .of_disp rfl
  have reload : ∀ (u : State) (p : PortNo), u.tablesKeep (u.reloadPort p) := fun _ _ => .of_disp rfl
  cases hj : g.job <;> simp only [State.jobCompleted, hj] at applied ⊢
  case credential => exact .refl s
  case group | profile | tenant | site => exact applied
  case floor => exact (s.changeFloors_event _).tablesKeep
  case bank => exact applied.trans (State.recount_event _ _).tablesKeep
  case reader p _ => exact applied.trans (reload _ p)
  case bankMode b m =>
    unfold State.modeCompleted
    split
    · exact applied
    · split
      · exact applied
      · exact applied.trans (State.changeMode_tablesKeep _ _ _ _)
  case carService => exact (s.changeWithdrawn_event _ _ _).tablesKeep
  case erase =>
    unfold State.erasedPage
    split
    · exact .of_blocks (s.setPolicy_only _) (by decide)
    split
    · exact (s.changeFloors_event _).tablesKeep
    split
    · exact s.eraseBanks_event.tablesKeep
    split
    · exact .foldl reload (.of_blocks (s.setPolicy_only _) (by decide))
    · exact .refl s

/-! ### A grant (R74, R79, R119, R123) -/

theorem State.removeTicket_event (s : State) (b : Badge) : s.event (s.removeTicket b) := s.filterTickets_event _

theorem has_bankSetOfList {bs : List Bank} {b : Bank} : (bankSetOfList bs).has b = true ↔ b ∈ bs := by
  have single : ∀ c : Bank, (BitVec.ofNat 4 (2 ^ c.val)).getLsbD b.val = decide (b = c) := by revert b; decide
  induction bs with
  | nil => simp [bankSetOfList]
  | cons c bs ih =>
    rw [bankSetOfList, BankSet.has, BitVec.getLsbD_or, single, Bool.or_eq_true, decide_eq_true_eq, List.mem_cons]
    exact or_congr Iff.rfl ih

/-- R74, R119: the state of a grant before it cancels and answers. -/
def State.granted (s : State) (pres : Presentation) (r : Credential) (home d : Floor) (id : Nat) (c : Choice) (used : Bool) :
    State :=
  ((s.setDisp { s.disp with serial := s.disp.serial + 1 }).place (s.newBooking pres home d r.units id c used)).grantTicket
    (s.overrideFlag r) c.transfer d used (s.newBooking pres home d r.units id c used)

theorem State.grantTicket_bookings (s : State) (o : Bool) (t : Option Floor) (d : Floor) (used : Bool) (k : Booking) :
    (s.grantTicket o t d used k).disp.bookings = s.disp.bookings := by
  unfold State.grantTicket
  split
  · rfl
  · split <;> rfl

theorem State.grantTicket_modes (s : State) (o : Bool) (t : Option Floor) (d : Floor) (used : Bool) (k : Booking) :
    (s.grantTicket o t d used k).disp.modes = s.disp.modes := by
  unfold State.grantTicket
  split
  · rfl
  · split <;> rfl

section
variable {s : State} {pres : Presentation} {r : Credential} {home d : Floor} {banks : BankSet} {id : Nat} {c : Choice}
  {used : Bool}

theorem State.granted_bookings :
    (s.granted pres r home d id c used).disp.bookings =
      s.disp.bookings ++ [s.newBooking pres home d r.units id c used] := by
  unfold State.granted
  rw [State.grantTicket_bookings]
  rfl

theorem State.granted_modes : (s.granted pres r home d id c used).disp.modes = s.disp.modes := by
  unfold State.granted
  rw [State.grantTicket_modes]
  rfl

/-- R119, R123: the ticket that a transfer grant writes. -/
theorem State.granted_tickets_of_transfer {t : Floor} (via : c.transfer = some t) :
    (s.granted pres r home d id c used).disp.tickets =
      (s.disp.tickets.filter fun y => y.badge ≠ pres.badge) ++
        [s.newTicket (s.overrideFlag r) t d (s.newBooking pres home d r.units id c used)] := by
  unfold State.granted
  generalize hk : s.newBooking pres home d r.units id c used = k
  have badge : k.badge = pres.badge := by rw [← hk]; rfl
  rw [via, ← badge]
  rfl

/-- R66, R123: the tickets that a direct grant leaves. -/
theorem State.granted_tickets_of_direct (near : c.transfer = none) :
    (s.granted pres r home d id c used).disp.tickets =
      if used then s.disp.tickets.filter fun y => y.badge ≠ pres.badge else s.disp.tickets := by
  unfold State.granted
  generalize hk : s.newBooking pres home d r.units id c used = k
  have badge : k.badge = pres.badge := by rw [← hk]; rfl
  rw [near, ← badge]
  cases used <;> rfl

theorem State.granted_bookingsOk (g : s.grants r home banks d id c) (units : r.units = 1 ∨ r.units = 4)
    (ok : s.bookingsOk) : (s.granted pres r home d id c used).bookingsOk := by
  obtain ⟨once, each⟩ := ok
  obtain ⟨below, fresh⟩ := State.freeId_spec g.free
  unfold State.bookingsOk
  rw [State.granted_bookings]
  refine ⟨?_, fun k hk => ?_⟩
  · rw [List.map_append]
    refine List.nodup_append.2 ⟨once, List.nodup_singleton _, fun i hi j hj => ?_⟩
    rw [List.mem_singleton.1 hj]
    intro e
    rw [e] at hi
    exact fresh hi
  · rcases List.mem_append.1 hk with old | new
    · exact each k old
    · rw [List.mem_singleton.1 new]
      refine ⟨below, ?_, units⟩
      show home ≠ c.transfer.getD d
      cases via : c.transfer with
      | none => exact g.away.symm
      | some t => exact (g.transfer_ne via).1.symm

theorem State.granted_ticketsOk (g : s.grants r home banks d id c) (badge : r.badge = pres.badge) (ok : s.ticketsOk) :
    (s.granted pres r home d id c used).ticketsOk := by
  have event := (s.removeTicket_event pres.badge).ticketsOk ok
  cases via : c.transfer with
  | none =>
    unfold State.ticketsOk
    rw [State.granted_tickets_of_direct via]
    split
    · exact event
    · exact ok
  | some t =>
    obtain ⟨room, once, each⟩ := event
    obtain ⟨space, -⟩ := g.transfer t via
    unfold State.ticketsOk
    rw [State.granted_tickets_of_transfer via]
    refine ⟨?_, ?_, fun y hy => ?_⟩
    · rw [List.length_append, List.length_singleton]
      rcases space with few | ⟨y, hy, same⟩
      · have le : (s.disp.tickets.filter fun y => y.badge ≠ pres.badge).length ≤ s.disp.tickets.length :=
          List.length_filter_le _ _
        omega
      · have lt : (s.disp.tickets.filter fun y => y.badge ≠ pres.badge).length < s.disp.tickets.length :=
          List.length_filter_lt_length_iff_exists.2 ⟨y, hy, by simp [same, badge]⟩
        have := ok.1
        omega
    · rw [List.map_append]
      refine List.nodup_append.2 ⟨once, List.nodup_singleton _, fun i hi j hj => ?_⟩
      rw [List.mem_singleton.1 hj]
      obtain ⟨y, hy, rfl⟩ := List.mem_map.1 hi
      have ne : y.badge ≠ pres.badge := by simpa using (List.mem_filter.1 hy).2
      exact ne
    · rcases List.mem_append.1 hy with old | new
      · exact each y old
      · rw [List.mem_singleton.1 new]
        exact (g.transfer_ne via).2

theorem State.not_quiet_of_passes {b : Bank} (passes : s.bankPasses r b) : ¬ s.quiet b := by
  unfold State.quiet
  rcases passes with h | h | ⟨h, -⟩ <;> simp [h]

theorem State.granted_quietOk (g : s.grants r home banks d id c) (ok : s.quietOk) :
    (s.granted pres r home d id c used).quietOk := by
  intro b quiet
  unfold State.quiet State.mode at quiet
  rw [State.granted_modes] at quiet
  have other : ∀ h, s.bankPasses r h → h ≠ b := fun h passes e => State.not_quiet_of_passes passes (e ▸ quiet)
  obtain ⟨bookings, tickets⟩ := ok b quiet
  obtain ⟨-, removed⟩ := (s.removeTicket_event pres.badge).carriesNone ⟨bookings, tickets⟩
  refine ⟨fun k hk => ?_, ?_⟩
  · rw [State.granted_bookings] at hk
    rcases List.mem_append.1 hk with old | new
    · exact bookings k old
    · rw [List.mem_singleton.1 new]
      exact other _ g.passes
  · cases via : c.transfer with
    | none =>
      rw [State.granted_tickets_of_direct via]
      split
      · exact removed
      · exact tickets
    | some t =>
      rw [State.granted_tickets_of_transfer via]
      intro y hy
      rcases List.mem_append.1 hy with old | new
      · exact removed y old
      · rw [List.mem_singleton.1 new]
        have onward : (bankSetOfList ((s.onwardBanks t d).filter (s.passes (s.overrideFlag r)))).has b = false := by
          rw [Bool.eq_false_iff, ne_eq, has_bankSetOfList, List.mem_filter, State.passes_iff]
          exact fun h => other b h.2 rfl
        simp only [Ticket.names, State.newTicket, State.newBooking, onward, Bool.or_false]
        exact decide_eq_false (other _ g.passes)

theorem State.grant_tablesKeep (g : s.grants r home banks d id c) (badge : r.badge = pres.badge)
    (units : r.units = 1 ∨ r.units = 4) : s.tablesKeep (s.grant pres r home d id c used) := by
  have booked : s.tablesKeep (s.granted pres r home d id c used) :=
    ⟨State.granted_bookingsOk g units, State.granted_ticketsOk g badge, State.granted_quietOk g⟩
  have cancelled : ∀ (u : State) (o : Option Booking), u.tablesKeep (u.cancelSuperseded o) := fun u o => by
    cases o with
    | none => exact .refl u
    | some k => exact (u.cancel_event _ _).tablesKeep
  exact (booked.trans (cancelled _ _)).trans (.of_disp rfl)

theorem State.deny_tablesKeep (s : State) (x : Presentation) (e : DenyReason) (d : Option Floor) :
    s.tablesKeep (s.deny x e d) := .of_disp rfl

theorem State.decideTrip_tablesKeep (badge : r.badge = pres.badge) (units : r.units = 1 ∨ r.units = 4) :
    s.tablesKeep (s.decideTrip pres r home banks d used) := by
  unfold State.decideTrip
  split
  · split
    · exact (s.removeTicket_event _).tablesKeep.trans (State.deny_tablesKeep _ _ _ _)
    · exact State.deny_tablesKeep _ _ _ _
  next id c ok => exact State.grant_tablesKeep (State.testTrip_ok ok) badge units

theorem State.decide_tablesKeep : s.tablesKeep (s.decide pres home banks) := by
  unfold State.decide
  split
  · exact .of_disp rfl
  · exact State.deny_tablesKeep _ _ _ _
  next r known =>
    obtain ⟨p, k, found⟩ := State.identify_ok known
    obtain ⟨record, badge⟩ := StoreBlock.lookup_found found
    have units := StoreBlock.record_units record
    unfold State.decideJourney
    simp only
    split
    · exact State.decideTrip_tablesKeep badge units
    · have removed : s.tablesKeep
          (if supersededTicket (s.ticketAt pres.badge home) pres.floor then s.removeTicket pres.badge else s) := by
        split
        · exact (s.removeTicket_event _).tablesKeep
        · exact .refl s
      split
      · exact removed.trans (State.deny_tablesKeep _ _ _ _)
      · exact removed.trans (State.decideTrip_tablesKeep badge units)

end

/-! ### Each command -/

theorem State.takeAnswer_tablesKeep (s : State) (l : Bank) (x : Transaction) (a : Option CarAnswer) :
    s.tablesKeep (s.takeAnswer l x a) := by
  rcases a with _ | st | _ | _
  · exact .of_blocks (s.failAttempt_only l) (by decide)
  · have closed := (s.takeStatus_event l x.car x.kind st).trans (State.closeCars_event s _)
    exact closed.tablesKeep.trans (.of_blocks (State.endTransaction_only _ l x) (by decide))
  · exact .of_blocks (s.answerHold_only l x) (by decide)
  · exact .of_blocks (s.answerResend_only l x) (by decide)

theorem State.hear_tablesKeep {s : State} {l : Bank} {f : Transaction → State} (h : ∀ x, s.tablesKeep (f x)) :
    s.tablesKeep (s.hear l f) := by
  unfold State.hear
  split
  · split
    · exact h _
    · exact .refl s
  · exact .refl s

theorem State.answerByte_tablesKeep (s : State) (l : Bank) (b : Byte) : s.tablesKeep (State.answerByte l s b) := by
  refine State.hear_tablesKeep fun x => ?_
  split
  · exact .of_disp rfl
  · exact s.takeAnswer_tablesKeep l x _

theorem State.choose_tablesKeep (s : State) : s.tablesKeep s.choose := .of_disp rfl

theorem execVerifyMatch_tablesKeep {s t : State} (run : exec .verifyMatch s = .next t) : s.tablesKeep t := by
  change execVerifyMatch s = _ at run
  unfold execVerifyMatch at run
  split at run <;> cases run
  next => exact .refl s
  next g _ =>
    have stored : s.tablesKeep (s.setStore (s.store.complete g)) := .of_disp rfl
    have closed := (stored.trans (State.jobCompleted_tablesKeep _ g)).trans (State.closeCars_event s _).tablesKeep
    generalize s.closeCars ((s.setStore (s.store.complete g)).jobCompleted g) = u at closed
    have woken : u.tablesKeep u.wakePorts := .of_disp rfl
    exact ((closed.trans woken).trans (.of_blocks (State.completeRequest_only _ .done) (by decide))).trans
      (State.choose_tablesKeep _)

theorem execRecallInputAsserted_tablesKeep {s t : State} {b : Bank} (run : exec (.recallInputAsserted b) s = .next t) :
    s.tablesKeep t := by
  have level : s.tablesKeep (s.setRcl b true) := .of_disp rfl
  rcases next_ite_cases run with ⟨_, rfl⟩ | ⟨_, rfl⟩
  · have posted : (s.setRcl b true).tablesKeep ((s.setRcl b true).post .urgent (.recallInput b true)) := .of_disp rfl
    have forced : ∀ u : State, u.tablesKeep (u.forceRecall b) := fun u => by
      unfold State.forceRecall
      split
      · exact .refl u
      · exact u.changeMode_tablesKeep _ _ _
    exact (((level.trans posted).trans (forced _)).trans (State.closeCars_event _ _).tablesKeep).trans
      (State.choose_tablesKeep _)
  · exact level

/-- The events that take bookings out, at their close. -/
theorem State.tablesKeep.closed {s u : State} (h : s.event u) : s.tablesKeep (s.closeCars u).choose :=
  (h.trans (State.closeCars_event s u)).tablesKeep.trans (State.choose_tablesKeep _)

theorem State.tablesKeep.of_empty {s t : State} (bookings : t.disp.bookings = []) (tickets : t.disp.tickets = []) :
    s.tablesKeep t := by
  refine ⟨fun _ => ?_, fun _ => ?_, fun _ b _ => ?_⟩
  · simp [State.bookingsOk, bookings]
  · simp [State.ticketsOk, tickets]
  · simp [bookings, tickets]

theorem exec_tablesKeep {s t : State} {i : Instr} (run : exec i s = .next t) : s.tablesKeep t := by
  have only := exec_changesOnly run
  cases i
  case resetPin =>
    cases run
    exact .of_empty rfl rfl
  case replySent =>
    change execReplySent s = _ at run
    unfold execReplySent at run
    split at run
    · split at run <;> cases run
      · unfold State.replyDone
        split
        · exact .of_empty rfl rfl
        · exact .of_disp rfl
      all_goals exact .refl s
    · cases run
      exact .refl s
  case startUpScanEnd =>
    rcases next_ite_cases run with ⟨_, rfl⟩ | ⟨_, rfl⟩
    · have disp := execStartUpScanEnd_only s .disp (by decide)
      exact .of_empty (congrArg DispatchBlock.bookings disp) (congrArg DispatchBlock.tickets disp)
    · exact .refl _
  case verifyMatch => exact execVerifyMatch_tablesKeep run
  case recallInputAsserted => exact execRecallInputAsserted_tablesKeep run
  case decisionMoment =>
    change execDecisionMoment s = _ at run
    unfold execDecisionMoment at run
    split at run <;> cases run
    next x home banks _ _ =>
      have closed := (State.decide_tablesKeep (s := s) (pres := x) (home := home) (banks := banks)).trans
        (State.closeCars_event s _).tablesKeep
      exact closed.trans (.of_disp rfl)
    next => exact .refl s
  case status l _ _ _ _ _ _ _ _ _ _ _ =>
    cases run
    exact (State.hear_tablesKeep fun x => s.takeAnswer_tablesKeep l x _).trans (State.choose_tablesKeep _)
  case answerByteTimeout l _ =>
    cases run
    exact ((State.tablesKeep.foldl (fun u b => u.answerByte_tablesKeep l b) (.refl s)).trans
      (.of_blocks (State.cutAnswer_only _ l) (by decide))).trans (State.choose_tablesKeep _)
  case badAnswer l _ =>
    cases run
    exact (State.tablesKeep.foldl (fun u b => u.answerByte_tablesKeep l b) (.refl s)).trans (State.choose_tablesKeep _)
  case contactTimer b c =>
    rcases next_ite_cases run with ⟨_, rfl⟩ | ⟨_, rfl⟩
    · exact .closed (s.loseContact_event b c)
    · exact .refl _
  case abandonTimer =>
    rcases next_ite_cases run with ⟨_, rfl⟩ | ⟨_, rfl⟩
    · exact .closed (s.cancelAll_event _ _)
    · exact .refl _
  case ticketExpiry =>
    rcases next_ite_cases run with ⟨_, rfl⟩ | ⟨_, rfl⟩
    · have left := (s.filterTickets_event fun t => !s.expired t).tablesKeep
      have reported := State.tablesKeep.foldl (f := State.reportExpiry)
        (xs := badgeOrder (s.disp.tickets.filter s.expired)) (fun u x => .of_disp rfl) left
      exact reported.trans (State.choose_tablesKeep _)
    · exact .refl _
  all_goals exact .of_blocks only (by simp only [blocksOf]; decide)

/-- Settles O56: bookings and tickets only leave, but for a grant, whose id is free, whose bank passes the modes and whose
ticket takes the place of the badge's own. -/
theorem stepKeepsTheTablesAndQuietBanks : Obligations.StepKeepsTheTablesAndQuietBanks := by
  have tick : ∀ s : State, s.tablesKeep s.tick := fun s => .of_blocks s.tick_only (by decide)
  refine ⟨fun s t bookings tickets run => ?_, fun s t quiet run => ?_⟩
  · exact step_keeps (P := fun s => s.bookingsOk ∧ s.ticketsOk) (fun _ _ h => h)
      (fun s h => ⟨(tick s).bookings h.1, (tick s).tickets h.2⟩)
      (fun _ _ _ h run => ⟨(exec_tablesKeep run).bookings h.1, (exec_tablesKeep run).tickets h.2⟩) ⟨bookings, tickets⟩ run
  · exact step_keeps (P := State.quietOk) (fun _ _ h => h) (fun s h => (tick s).quiet h)
      (fun _ _ _ h run => (exec_tablesKeep run).quiet h) quiet run

end Sys2Proof.Machine
end

section
/-! SUPPORT: numbers, sums and floor sets in bytes (R1, R178). -/

namespace Sys2Proof.Machine

/-! ### Sums -/

theorem byteSum_append (xs ys : List Byte) : byteSum (xs ++ ys) = byteSum xs + byteSum ys := by
  induction xs with
  | nil => simp [byteSum]
  | cons x xs ih => rw [List.cons_append, byteSum, byteSum, ih, Nat.add_assoc]

/-- The check byte makes the sum 0 modulo 256. -/
theorem byteSum_checked (xs : List Byte) : byteSum (xs ++ [checkByte xs]) % 256 = 0 := by
  have check : (checkByte xs).toNat = (256 - byteSum xs % 256) % 256 := by simp [checkByte, byte]
  rw [byteSum_append]
  simp only [byteSum, check]
  omega

/-! ### Numbers, least significant byte first -/

@[simp] theorem toLE_length (k n : Nat) : (toLE k n).length = k := by
  induction k generalizing n with
  | zero => rfl
  | succ k ih => rw [toLE, List.length_cons, ih]

theorem toLE_getElem? {k i : Nat} (hi : i < k) (n : Nat) : (toLE k n)[i]? = some (BitVec.ofNat 8 (n / 256 ^ i)) := by
  induction k generalizing n i with
  | zero => omega
  | succ k ih =>
    cases i with
    | zero => simp [toLE]
    | succ i =>
      rw [toLE, List.getElem?_cons_succ, ih (by omega), Nat.div_div_eq_div_mul, Nat.pow_succ']

theorem leNat_lt (bs : List Byte) : leNat bs < 256 ^ bs.length := by
  induction bs with
  | nil => simp [leNat]
  | cons b bs ih =>
    have hb := b.isLt
    rw [leNat, List.length_cons, Nat.pow_succ]
    omega

theorem leNat_toLE {k n : Nat} (h : n < 256 ^ k) : leNat (toLE k n) = n := by
  induction k generalizing n with
  | zero =>
    simp only [Nat.pow_zero, Nat.lt_one_iff] at h
    simp [toLE, leNat, h]
  | succ k ih =>
    rw [toLE, leNat, ih (by rw [Nat.pow_succ] at h; omega), BitVec.toNat_ofNat]
    omega

theorem toLE_two (n : Nat) : toLE 2 n = [BitVec.ofNat 8 n, BitVec.ofNat 8 (n / 256)] := rfl

theorem toLE_four (n : Nat) :
    toLE 4 n = [BitVec.ofNat 8 n, BitVec.ofNat 8 (n / 256), BitVec.ofNat 8 (n / 65536), BitVec.ofNat 8 (n / 16777216)] := by
  simp only [toLE, Nat.div_div_eq_div_mul]

/-! ### Floor sets (R178) -/

/-- Floor `f` stands at bit `f mod 8` of byte `f div 8`. -/
theorem floorSetBytes_getElem? (set : FloorSet) (f : Floor) :
    ∃ x, (floorSetBytes set)[f.val / 8]? = some x ∧ x.getLsbD (f.val % 8) = set.has f := by
  refine ⟨_, toLE_getElem? (by omega) _, ?_⟩
  have place : f.val % 8 + 8 * (f.val / 8) = f.val := by omega
  rw [BitVec.getLsbD_ofNat, show (256 : Nat) = 2 ^ 8 from rfl, ← Nat.pow_mul, Nat.testBit_div_two_pow, place]
  simp [FloorSet.has, BitVec.getLsbD, Nat.mod_lt]

theorem floorsHeld_floorSetBytes (set : FloorSet) : floorsHeld (floorSetBytes set) set := by
  intro f
  obtain ⟨x, at_f, bit⟩ := floorSetBytes_getElem? set f
  rw [List.getD_eq_getElem?_getD, at_f, Option.getD_some, bit]

theorem floorSetBytes_length (set : FloorSet) : (floorSetBytes set).length = 16 := toLE_length _ _

end Sys2Proof.Machine
end

section
/-! PROOF of O52 (R178, R180 to R182): the frames by their kinds. -/

namespace Sys2Proof.Machine

theorem framed_sum (lead : Byte) (payload : List Byte) : byteSum (framed lead payload) % 256 = 0 := byteSum_checked _

theorem commandFrame_sum (c : CarNo) (x : CommandBody) : byteSum (commandFrame c x) % 256 = 0 := byteSum_checked _

theorem optFloorByte_eq (f : Option Floor) : optFloorByte f = (f.map fun f => BitVec.ofNat 8 f.val).getD 255 := by
  cases f <;> rfl

theorem directionCode_eq (d : Option Dir) : directionCode d = (d.map fun d => if d = .up then (1 : Byte) else 2).getD 0 := by
  rcases d with _ | _ | _ <;> rfl

theorem directionCode_some (d : Dir) : directionCode (some d) = if d = .up then (1 : Byte) else 2 := by
  cases d <;> rfl

theorem BookingState.code_eq (st : BookingState) : st.code = if st = .waiting then 0 else 1 := by cases st <;> rfl

theorem Booking.dir_eq_up_iff (k : Booking) : k.dir = .up ↔ k.origin < k.dest := by
  unfold Booking.dir dirOf
  split <;> simp [*]

/-- The 18 and more bytes of a STOPSET body. -/
theorem stopset_length (gen : Byte) (keys : List Key) (enabled : FloorSet) :
    (CommandBody.stopset gen keys enabled).bytes.length = 18 + keys.length := by
  simp [CommandBody.bytes, floorSetBytes]
  omega

theorem Key.entry_eq (k : Key) : k.entry = BitVec.ofNat 8 (k.floor.val + if k.dir = .down then 128 else 0) := by
  unfold Key.entry byte
  cases k.dir
  · simp
  · simp [Nat.add_comm]

theorem Answer.grant_flags (isRepeat : Bool) (transfer : Option Label) :
    byte (isRepeat.toNat + 2 * transfer.isSome.toNat) =
      BitVec.ofNat 8 ((if isRepeat then 1 else 0) + if transfer = none then 0 else 2) := by
  cases isRepeat <;> cases transfer <;> rfl

theorem framed_eq (lead : Byte) (payload : List Byte) :
    ∃ check, framed lead payload = lead :: byte payload.length :: payload ++ [check] := ⟨_, rfl⟩

theorem Reply.frame_eq (r : Reply) :
    ∃ check, r.frame = [0xC3, byte (3 + r.body.bytes.length), r.type, r.tag, r.status.code] ++ r.body.bytes ++ [check] := by
  obtain ⟨check, h⟩ := framed_eq 0xC3 ([r.type, r.tag, r.status.code] ++ r.body.bytes)
  refine ⟨check, h.trans ?_⟩
  rw [List.length_append]
  rfl

theorem Report.frame_eq (r : Report) :
    ∃ check, r.frame = [0xC5, byte (7 + r.body.bytes.length), byte r.body.kind, r.cls.code, flagByte r.gap] ++
      toLE 4 r.clock.toNat ++ r.body.bytes ++ [check] := by
  obtain ⟨check, h⟩ := framed_eq 0xC5
    ([byte r.body.kind, r.cls.code, flagByte r.gap] ++ toLE 4 r.clock.toNat ++ r.body.bytes)
  refine ⟨check, h.trans ?_⟩
  rw [List.length_append, List.length_append, toLE_length]
  rfl

theorem commandFrame_eq (c : CarNo) (x : CommandBody) :
    ∃ check, commandFrame c x = [0x96, byte c.val, x.kind, byte x.bytes.length] ++ x.bytes ++ [check] := ⟨_, rfl⟩

/-- Settles O52: each frame written out, its sum by the check byte. -/
theorem sentFramesHoldTheirPayloads : Obligations.SentFramesHoldTheirPayloads := by
  unfold Obligations.SentFramesHoldTheirPayloads
  intro b le2 le4 flag optional label way present withCount
  have four : ∀ n, toLE 4 n = le4 n := toLE_four
  have floor : ∀ f, optFloorByte f = optional f := optFloorByte_eq
  have dir : ∀ d, directionCode (some d) = way d := directionCode_some
  have opt : ∀ n x, optField n x = present n x := fun n x => by cases x <;> rfl
  refine ⟨fun a => framed_sum _ _, fun r => framed_sum _ _, fun r => framed_sum _ _, fun x => framed_sum _ _,
    commandFrame_sum, ?reply, ?busy, rfl, ?bookings, ?badge, ?car, ?part, ?codes, ?report, ?started, ?storeFault, ?grant,
    ?deny, ?cancelled, ?carService, ?lineState, ?bankMode, ?recallInput, ?ticketExpired, ?granted, ?denied, ?retry, ?pong,
    ?poll, ?recallTo, ?stopset⟩
  case reply =>
    intro r
    obtain ⟨check, h⟩ := r.frame_eq
    refine ⟨check, h.trans ?_⟩
    cases r.status <;> rfl
  case busy => exact fun type tag => framed_eq 0xC3 [type, tag, ReplyStatus.busy.code]
  case bookings =>
    intro total listed
    refine congrArg (b total :: ·) (congrArg (List.flatMap · listed) (funext fun k => ?_))
    simp only [Booking.bytes, four, dir, Booking.dir_eq_up_iff, way, BookingState.code_eq]
    cases k.leg <;> rfl
  case badge =>
    intro v
    refine ⟨floorSetBytes v.permitted, floorSetBytes_length _, floorsHeld_floorSetBytes _, ?_⟩
    have ticket : Ticket.bytes = fun k =>
        [b k.transfer.val, b k.dest.val, b k.firstBank.val, k.onward.setWidth 8] ++ le2 (k.firstLeg.getD 65535) ++
          le4 k.expiry.toNat := funext fun k => by
      rw [Ticket.bytes, four]
      rfl
    rw [ReplyBody.bytes, BadgeView.bytes, opt, opt, floor, ticket]
    rfl
  case car =>
    intro v
    refine ⟨floorSetBytes v.car.enabled, floorSetBytes_length _, floorsHeld_floorSetBytes _, ?_⟩
    have status : Status.bytes = fun st =>
        [b st.position.val, (st.direction.map way).getD 0, st.motion.code, st.doors.code, st.carMode.code, b st.load] ++
          present 1 (st.accepted.map fun g => [g]) ++ [if st.fresh then 1 else 2] ++
          withCount (st.calls.map fun f => [b f.val]) := funext fun st => by
      rw [Status.bytes, opt, directionCode_eq]
      rfl
    have stop : Stop.bytes = fun e =>
        [b e.key.floor.val, way e.key.dir, flag e.pickup, flag e.drop, flag e.call] := funext fun e => by
      rw [Stop.bytes, dir]
      rfl
    rw [ReplyBody.bytes, CarView.bytes, opt, opt, opt, opt, opt, status, stop]
    simp only [four, dir]
    rfl
  case part =>
    intro v
    rw [ReplyBody.bytes, PartView.bytes, four]
    cases v.part <;> simp only [PartState.code, Calendar.bytes, List.append_assoc] <;> rfl
  case codes => decide
  case report =>
    intro r
    obtain ⟨check, h⟩ := r.frame_eq
    refine ⟨check, h.trans ?_⟩
    rw [four]
    cases r.cls <;> rfl
  case started =>
    intro cause isSet m n
    cases cause <;> exact ⟨rfl, rfl⟩
  case storeFault => exact fun page verify => ⟨rfl, rfl⟩
  case grant =>
    intro port badge id bank car o d leg transfer cancelled
    refine ⟨rfl, ?_⟩
    rw [← four, ← floor]
    rfl
  case deny =>
    intro port badge reason floor' d
    refine ⟨rfl, ?_⟩
    rw [← four, ← floor, ← floor]
    rfl
  case cancelled =>
    intro id badge port bank car o d leg st reason
    refine ⟨rfl, ?_⟩
    rw [← four, ← BookingState.code_eq]
    rfl
  case carService => exact fun bank car old new => ⟨rfl, rfl⟩
  case lineState => exact fun line old new => ⟨rfl, rfl⟩
  case bankMode => exact fun bank old new byInput m n => ⟨rfl, rfl⟩
  case recallInput => exact fun bank asserted => ⟨rfl, rfl⟩
  case ticketExpired =>
    intro badge transfer d id
    refine ⟨rfl, ?_⟩
    rw [← four]
    rfl
  case granted =>
    intro bank car dest isRepeat transfer
    obtain ⟨check, h⟩ := framed_eq 0x5A (Answer.grant bank car dest isRepeat transfer).payload
    refine ⟨check, h.trans ?_⟩
    cases isRepeat <;> cases transfer <;> rfl
  case denied => exact fun reason => framed_eq 0x5A [4, reason.code]
  case retry => exact framed_eq 0x5A [5]
  case pong =>
    intro part
    obtain ⟨check, h⟩ := framed_eq 0x5A [6, part.code]
    refine ⟨check, h.trans ?_⟩
    cases part <;> rfl
  case poll => exact fun c => commandFrame_eq c .poll
  case recallTo => exact fun c f => commandFrame_eq c (.recallTo f)
  case stopset =>
    intro c gen keys enabled
    obtain ⟨check, h⟩ := commandFrame_eq c (.stopset gen keys enabled)
    refine ⟨floorSetBytes enabled, check, floorSetBytes_length _, floorSetBytes_getElem? enabled, h.trans ?_⟩
    rw [stopset_length]
    simp only [CommandBody.bytes, funext Key.entry_eq]
    simp [CommandBody.kind, b, byte]

end Sys2Proof.Machine
end

section
/-! PROOF of O50 (R178, R179, R3, R4, R20): each slot reads back field by field. -/

namespace Sys2Proof.Machine

/-! ### Parts of a slot -/

theorem padSlot_eq {bs : List Byte} (h : bs.length ≤ 28) : padSlot bs = bs ++ List.replicate (28 - bs.length) 255 := by
  rw [padSlot, List.take_append, List.take_of_length_le h, List.take_replicate]
  congr 2
  omega

theorem padSlot_length (bs : List Byte) : (padSlot bs).length = 28 := by simp [padSlot]

theorem fillTo_length (n : Nat) (bs : List Byte) : (fillTo n bs).length = n := by simp [fillTo]

theorem take_fillTo {n : Nat} {bs : List Byte} (h : bs.length ≤ n) : (fillTo n bs).take bs.length = bs := by
  rw [fillTo, List.take_take, Nat.min_eq_left h, List.take_left]

/-- The bytes at the place where the first part ends. -/
theorem bytesAt_append {xs ys : List Byte} {i n : Nat} (h : xs.length = i) : bytesAt (xs ++ ys) i n = ys.take n := by
  rw [bytesAt, ← h, List.drop_left]

theorem byteAt_append {xs ys : List Byte} {i : Nat} {b : Byte} (h : xs.length = i) : byteAt (xs ++ b :: ys) i = b := by
  subst h
  simp [byteAt]

theorem leNat_toLE_bitVec {k w : Nat} (h : 2 ^ w = 256 ^ k) (x : BitVec w) : BitVec.ofNat w (leNat (toLE k x.toNat)) = x := by
  rw [leNat_toLE (h ▸ x.isLt), BitVec.ofNat_toNat, BitVec.setWidth_eq]

theorem byte_toNat {n : Nat} (h : n < 256) : (byte n).toNat = n := by
  rw [byte, BitVec.toNat_ofNat, Nat.mod_eq_of_lt h]

/-! ### Credentials (R3, R4, R179) -/

/-- What R4 leaves of a record that it takes. -/
structure Credential.storable (r : Credential) : Prop where
  badge : r.badge.toNat ≠ 0 ∧ r.badge.toNat ≠ 4294967295
  groups : r.groups.length ≠ 0 ∧ r.groups.length ≤ 4
  personal : r.personal.length ≤ 2
  units : r.units = 1 ∨ r.units = 4
  until_ : ∀ d, r.validUntil = some d → r.validFrom.toNat ≤ d.toNat

theorem checkCredential_storable {badge : Badge} {state tenant units : Byte} {groups : List Byte} {defaultFloor : Byte}
    {personal : List Byte} {validFrom : BitVec 16} {hasUntil : Byte} {validUntil : BitVec 16} {r : Credential}
    (h : checkCredential badge state tenant units groups defaultFloor personal validFrom hasUntil validUntil = some r) :
    r.storable := by
  obtain ⟨⟨named, ⟨some, few, floors⟩, ordered⟩, st, tn, -, -, rfl⟩ := checkCredential_eq_some_iff.1 h
  refine ⟨named, ⟨some, few⟩, (List.length_filterMap_le _ _).trans floors, clampUnits_eq _, fun d hd => ?_⟩
  dsimp only at hd ⊢
  split at hd
  · cases hd
  next present =>
    cases hd
    exact ordered.resolve_left present

theorem decodeCredential_storable {bs : List Byte} {r : Credential} (h : decodeCredential bs = some r) : r.storable := by
  unfold decodeCredential at h
  simp only at h
  split at h
  · cases h
  · exact checkCredential_storable h

theorem BadgeState.ofCode_code (st : BadgeState) : BadgeState.ofCode st.code = some st := by cases st <;> rfl

theorem floorOf_byte (f : Floor) : floorOf (byte f.val).toNat = some f := by
  rw [byte_toNat (by omega), floorOf_eq_some_iff]

theorem floorOf_optFloorByte (f : Option Floor) : floorOf (optFloorByte f).toNat = f := by
  cases f with
  | none => rfl
  | some f => exact floorOf_byte f

theorem clampFloors_bytes (fs : List Floor) : clampFloors (fs.map fun f => byte f.val) = fs := by
  induction fs with
  | nil => rfl
  | cons f fs ih =>
    unfold clampFloors at ih ⊢
    rw [List.map_cons, List.filterMap_cons, floorOf_byte]
    exact congrArg (f :: ·) ih

/-- The three bytes of a stored valid-until. -/
def Credential.untilBytes (r : Credential) : List Byte :=
  match r.validUntil with
  | none => [0, 0, 0]
  | some d => 1 :: toLE 2 d.toNat

theorem Credential.untilBytes_length (r : Credential) : r.untilBytes.length = 3 := by
  unfold Credential.untilBytes
  split <;> rfl

/-- The bytes of a credential slot, part by part. -/
theorem encodeCredential_eq (r : Credential) :
    encodeCredential r =
      toLE 4 r.badge.toNat ++ (r.state.code :: byte r.tenant.val :: byte r.units :: byte r.groups.length ::
        (fillTo 4 r.groups ++ (optFloorByte r.defaultFloor :: byte r.personal.length ::
          (fillTo 2 (r.personal.map fun f => byte f.val) ++ (toLE 2 r.validFrom.toNat ++ (r.untilBytes ++
            List.replicate 7 255)))))) := by
  have length : (toLE 4 r.badge.toNat ++ [r.state.code, byte r.tenant.val, byte r.units, byte r.groups.length] ++
      fillTo 4 r.groups ++ [optFloorByte r.defaultFloor, byte r.personal.length] ++
      fillTo 2 (r.personal.map fun f => byte f.val) ++ toLE 2 r.validFrom.toNat ++ r.untilBytes).length = 21 := by
    simp [fillTo_length, r.untilBytes_length]
  have padded : encodeCredential r = padSlot (toLE 4 r.badge.toNat ++
      [r.state.code, byte r.tenant.val, byte r.units, byte r.groups.length] ++ fillTo 4 r.groups ++
      [optFloorByte r.defaultFloor, byte r.personal.length] ++ fillTo 2 (r.personal.map fun f => byte f.val) ++
      toLE 2 r.validFrom.toNat ++ r.untilBytes) := rfl
  rw [padded, padSlot_eq (length.le.trans (by decide)), length]
  simp only [List.append_assoc, List.cons_append, List.nil_append]

theorem encodeCredential_length (r : Credential) : (encodeCredential r).length = 28 := padSlot_length _

theorem byteAt_append_right {xs ys : List Byte} {n : Nat} (h : xs.length = n) (i : Nat) :
    byteAt (xs ++ ys) (n + i) = byteAt ys i := by
  rw [byteAt, byteAt, List.getD_append_right _ _ _ _ (by omega), h, Nat.add_sub_cancel_left]

theorem bytesAt_append_right {xs ys : List Byte} {n : Nat} (h : xs.length = n) (i m : Nat) :
    bytesAt (xs ++ ys) (n + i) m = bytesAt ys i m := by
  subst h
  simp [bytesAt]

theorem bytesAt_left {xs ys : List Byte} {n : Nat} (h : xs.length = n) : bytesAt (xs ++ ys) 0 n = xs := by
  rw [bytesAt, List.drop_zero, ← h, List.take_left]

/-- The fields of 28 bytes laid out as a credential slot. -/
theorem decodeCredential_of_parts {A G P V U R : List Byte} {st tn un gc df pc : Byte} (hA : A.length = 4)
    (hG : G.length = 4) (hP : P.length = 2) (hV : V.length = 2) (hU : U.length = 3) (groups : gc.toNat ≤ 4)
    (personal : pc.toNat ≤ 2) :
    decodeCredential (A ++ (st :: tn :: un :: gc :: (G ++ (df :: pc :: (P ++ (V ++ (U ++ R))))))) =
      checkCredential (BitVec.ofNat 32 (leNat A)) st tn un (G.take gc.toNat) df (P.take pc.toNat)
        (BitVec.ofNat 16 (leNat V)) (byteAt U 0) (BitVec.ofNat 16 (leNat (bytesAt U 1 2))) := by
  generalize hE : A ++ (st :: tn :: un :: gc :: (G ++ (df :: pc :: (P ++ (V ++ (U ++ R)))))) = E
  have tail4 : ∀ i, byteAt E (4 + i) = byteAt (st :: tn :: un :: gc :: (G ++ (df :: pc :: (P ++ (V ++ (U ++ R)))))) i :=
    fun i => by rw [← hE, byteAt_append_right hA]
  have tail12 : ∀ i, byteAt E (12 + i) = byteAt (df :: pc :: (P ++ (V ++ (U ++ R)))) i := fun i =>
    calc byteAt E (12 + i) = byteAt E (4 + (4 + (4 + i))) := by congr 1; omega
      _ = byteAt (G ++ (df :: pc :: (P ++ (V ++ (U ++ R))))) (4 + i) := by
        rw [tail4, show 4 + (4 + i) = 4 + i + 1 + 1 + 1 + 1 by omega]
        rfl
      _ = _ := byteAt_append_right hG i
  have part4 : ∀ i n, bytesAt E (4 + i) n =
      bytesAt (st :: tn :: un :: gc :: (G ++ (df :: pc :: (P ++ (V ++ (U ++ R)))))) i n :=
    fun i n => by rw [← hE, bytesAt_append_right hA]
  have part12 : ∀ i n, bytesAt E (12 + i) n = bytesAt (df :: pc :: (P ++ (V ++ (U ++ R)))) i n := fun i n =>
    calc bytesAt E (12 + i) n = bytesAt E (4 + (4 + (4 + i))) n := by congr 1; omega
      _ = bytesAt (G ++ (df :: pc :: (P ++ (V ++ (U ++ R))))) (4 + i) n := by
        rw [part4, show 4 + (4 + i) = 4 + i + 1 + 1 + 1 + 1 by omega]
        rfl
      _ = _ := bytesAt_append_right hG i n
  have badge : bytesAt E 0 4 = A := by rw [← hE, bytesAt, List.drop_zero, ← hA, List.take_left]
  have groupBytes : bytesAt E 8 gc.toNat = G.take gc.toNat := by
    refine (part4 4 gc.toNat).trans ?_
    exact List.take_append_of_le_length (by omega)
  have personalBytes : bytesAt E 14 pc.toNat = P.take pc.toNat := by
    refine (part12 2 pc.toNat).trans ?_
    exact List.take_append_of_le_length (by omega)
  have fromBytes : bytesAt E 16 2 = V := by
    refine (part12 4 2).trans ((bytesAt_append_right hP 0 2).trans ?_)
    rw [bytesAt, List.drop_zero, ← hV, List.take_left]
  have until0 : byteAt E 18 = byteAt U 0 := by
    refine (tail12 6).trans ((byteAt_append_right hP 2).trans ((byteAt_append_right hV 0).trans ?_))
    rw [byteAt, byteAt, List.getD_append _ _ _ _ (by omega)]
  have until1 : bytesAt E 19 2 = bytesAt U 1 2 := by
    refine (part12 7 2).trans ((bytesAt_append_right hP 3 2).trans ((bytesAt_append_right hV 1 2).trans ?_))
    rw [bytesAt, bytesAt, List.drop_append_of_le_length (by omega), List.take_append_of_le_length (by simp; omega)]
  have state := tail4 0
  have tenant := tail4 1
  have unit := tail4 2
  have groupCount := tail4 3
  have floor := tail12 0
  have personalCount := tail12 1
  have few : ¬ (4 < gc.toNat ∨ 2 < pc.toNat) := by omega
  simp only [Nat.reduceAdd, byteAt, List.getD_cons_zero, List.getD_cons_succ] at state tenant unit groupCount
  simp only [Nat.reduceAdd, byteAt, List.getD_cons_zero, List.getD_cons_succ] at floor personalCount
  simp only [decodeCredential, byteAt, state, tenant, unit, groupCount, floor, personalCount, badge, groupBytes,
    personalBytes, fromBytes, until1, few, if_false]
  rw [← byteAt, until0]
  rfl

/-- R179: a storable record's slot reads back as the record. -/
theorem decodeCredential_encodeCredential {r : Credential} (h : r.storable) :
    decodeCredential (encodeCredential r) = some r := by
  obtain ⟨badge, ⟨named, few⟩, floors, units, ordered⟩ := h
  have groupCount : (byte r.groups.length).toNat = r.groups.length := byte_toNat (by omega)
  have floorCount : (byte r.personal.length).toNat = r.personal.length := byte_toNat (by omega)
  have groups : (fillTo 4 r.groups).take r.groups.length = r.groups := take_fillTo few
  have personal : (fillTo 2 (r.personal.map fun f => byte f.val)).take r.personal.length =
      r.personal.map fun f => byte f.val := by
    have := take_fillTo (n := 2) (bs := r.personal.map fun f => byte f.val) (by simpa using floors)
    rwa [List.length_map] at this
  rw [encodeCredential_eq, decodeCredential_of_parts (toLE_length _ _) (fillTo_length _ _) (fillTo_length _ _)
    (toLE_length _ _) r.untilBytes_length (by omega) (by omega), groupCount, floorCount, groups, personal,
    leNat_toLE_bitVec (by decide), leNat_toLE_bitVec (by decide), checkCredential_eq_some_iff]
  have clamped : clampUnits (byte r.units) = r.units := by rcases units with e | e <;> rw [e] <;> rfl
  refine ⟨⟨badge, ⟨named, few, by simpa using floors⟩, ?_⟩, r.state, r.tenant, BadgeState.ofCode_code _, floorOf_byte _, ?_⟩
  · unfold Credential.untilBytes
    cases hd : r.validUntil with
    | none => exact .inl rfl
    | some d =>
      refine .inr ?_
      show r.validFrom.toNat ≤ (BitVec.ofNat 16 (leNat (toLE 2 d.toNat))).toNat
      rw [leNat_toLE_bitVec (by decide)]
      exact ordered d hd
  · rw [clamped, floorOf_optFloorByte, clampFloors_bytes]
    obtain ⟨_, _, _, _, _, _, _, _, u⟩ := r
    congr 1
    cases u with
    | none => rfl
    | some d =>
      show some d = some (BitVec.ofNat 16 (leNat (toLE 2 d.toNat)))
      rw [leNat_toLE_bitVec (by decide)]

/-! ### Policy items (R20, R23 to R34, R179) -/

/-- A slot with one byte other than 255 is not erased. -/
theorem slotErased_eq_false {bs : List Byte} {i : Nat} (h : byteAt bs i ≠ 255) : slotErased bs = false := by
  refine decide_eq_false fun e => h ?_
  rw [e, byteAt, freeSlot, List.getD_eq_getElem?_getD, List.getElem?_replicate]
  split <;> rfl

theorem byte_ne_255 {b : Byte} (h : b.toNat < 255) : b ≠ 255 := fun e => by
  rw [e] at h
  exact absurd h (by decide)

theorem loadGroupSlot_encodeGroup (g : Group) : loadGroupSlot (encodeGroup g) = g := by
  have slot : encodeGroup g = toLE 16 g.floors.toNat ++
      (byte g.profile.val :: byte (g.enabled.toNat + 2 * g.override.toNat) :: List.replicate 10 255) := by
    rw [encodeGroup, padSlot_eq (by simp), List.append_assoc]
    rfl
  have floorBytes : bytesAt (encodeGroup g) 0 16 = toLE 16 g.floors.toNat := by
    rw [slot]
    exact bytesAt_left (toLE_length _ _)
  have profileByte : byteAt (encodeGroup g) 16 = byte g.profile.val := by
    rw [slot]
    exact byteAt_append_right (toLE_length _ _) 0
  have flagByte : byteAt (encodeGroup g) 17 = byte (g.enabled.toNat + 2 * g.override.toNat) := by
    rw [slot]
    exact byteAt_append_right (toLE_length _ _) 1
  have number : (byte g.profile.val).toNat = g.profile.val := byte_toNat (by omega)
  have used : slotErased (encodeGroup g) = false :=
    slotErased_eq_false (i := 16) (byte_ne_255 (by rw [profileByte, number]; omega))
  unfold loadGroupSlot
  rw [used, floorBytes, profileByte, flagByte, leNat_toLE_bitVec (by decide), checkGroup]
  simp only [number, g.profile.isLt, dite_true]
  obtain ⟨floors, profile, enabled, override⟩ := g
  cases enabled <;> cases override <;> simp [byte]

theorem loadTenantSlot_encodeTenant (t : Tenant) : loadTenantSlot (encodeTenant t) = t := by
  have slot : encodeTenant t = toLE 16 t.floors.toNat ++ (t.state.code :: List.replicate 11 255) := by
    rw [encodeTenant, padSlot_eq (by simp), List.append_assoc]
    rfl
  have floorBytes : bytesAt (encodeTenant t) 0 16 = toLE 16 t.floors.toNat := by
    rw [slot]
    exact bytesAt_left (toLE_length _ _)
  have stateByte : byteAt (encodeTenant t) 16 = t.state.code := by
    rw [slot]
    exact byteAt_append_right (toLE_length _ _) 0
  have used : slotErased (encodeTenant t) = false :=
    slotErased_eq_false (i := 16) (by rw [stateByte]; cases t.state <;> decide)
  unfold loadTenantSlot
  rw [used, floorBytes, stateByte, leNat_toLE_bitVec (by decide), checkTenant]
  obtain ⟨floors, state⟩ := t
  cases state <;> rfl

theorem bankSetOf_setWidth (x : BankSet) : bankSetOf (x.setWidth 8) = some x := by
  revert x
  decide

theorem loadFloorSlot_encodeFloor {f : FloorRec}
    (h : ∀ x ∈ [f.label.c0, f.label.c1, f.label.c2], 32 ≤ x.toNat ∧ x.toNat ≤ 126) : loadFloorSlot (encodeFloor f) = f := by
  obtain ⟨⟨c0, c1, c2⟩, kind, state, banks⟩ := f
  simp only [List.mem_cons, List.not_mem_nil, or_false, forall_eq_or_imp, forall_eq] at h
  obtain ⟨h0, h1, h2⟩ := h
  have used : slotErased (encodeFloor { label := { c0 := c0, c1 := c1, c2 := c2 }, kind := kind, state := state,
                                        banks := banks }) = false :=
    slotErased_eq_false (i := 0) (byte_ne_255 (b := c0) (by omega))
  have chars : labelChar c0 && labelChar c1 && labelChar c2 := by simp [labelChar, h0, h1, h2]
  have kindCode : FloorKind.ofCode kind.code = some kind := by cases kind <;> rfl
  have stateCode : FloorState.ofCode state.code = some state := by cases state <;> rfl
  unfold loadFloorSlot
  rw [used]
  show (checkFloor c0 c1 c2 kind.code state.code (banks.setWidth 8)).getD FloorRec.erased = _
  rw [checkFloor, if_pos chars, kindCode, stateCode, bankSetOf_setWidth]
  rfl

theorem clampTo_eq {lo hi n : Nat} (h : lo ≤ n) (h' : n ≤ hi) : clampTo lo hi n = n := by
  unfold clampTo
  omega

theorem leNat_pair {n : Nat} (h : n < 65536) : leNat [BitVec.ofNat 8 n, BitVec.ofNat 8 (n / 256)] = n :=
  leNat_toLE (k := 2) h

/-- What R30 leaves of a bank's nine settings. -/
structure BankRec.clamped (b : BankRec) : Prop where
  carCount : 1 ≤ b.carCount ∧ b.carCount ≤ 8
  capacity : 1 ≤ b.capacity ∧ b.capacity ≤ 32
  floorTime : 5 ≤ b.floorTime ∧ b.floorTime ≤ 100
  stopTime : 20 ≤ b.stopTime ∧ b.stopTime ≤ 300
  loadBias : b.loadBias ≤ 50
  tripCap : 2 ≤ b.tripCap ∧ b.tripCap ≤ 8
  maxWait : 60 ≤ b.maxWait ∧ b.maxWait ≤ 900
  contactTime : 1 ≤ b.contactTime ∧ b.contactTime ≤ 10
  fullThreshold : 50 ≤ b.fullThreshold ∧ b.fullThreshold ≤ 100

theorem clampTo_bounds {lo hi : Nat} (h : lo ≤ hi) (n : Nat) : lo ≤ clampTo lo hi n ∧ clampTo lo hi n ≤ hi := by
  unfold clampTo
  omega

theorem checkBank_clamped {a1 a2 a3 a4 a5 a6 a7 a8 a9 a10 : Nat} {w : CarSet} {m : BankMode} {b : BankRec}
    (h : checkBank a1 a2 a3 a4 a5 a6 a7 a8 a9 a10 w m = some b) : b.clamped := by
  obtain ⟨rf, -, rfl⟩ := Option.map_eq_some_iff.1 h
  exact ⟨clampTo_bounds (by decide) _, clampTo_bounds (by decide) _, clampTo_bounds (by decide) _,
    clampTo_bounds (by decide) _, (clampTo_bounds (by decide) _).2, clampTo_bounds (by decide) _,
    clampTo_bounds (by decide) _, clampTo_bounds (by decide) _, clampTo_bounds (by decide) _⟩

theorem BankMode.ofCode_code (m : BankMode) : BankMode.ofCode m.code = some m := by cases m <;> rfl

theorem loadBankSlot_encodeBank {b : BankRec} (h : b.clamped) : loadBankSlot (encodeBank b) = b := by
  obtain ⟨carCount, capacity, floorTime, stopTime, loadBias, tripCap, maxWait, contactTime, fullThreshold⟩ := h
  obtain ⟨b1, b2, b3, b4, b5, b6, b7, b8, b9, recallFloor, withdrawn, storedMode⟩ := b
  dsimp only at carCount capacity floorTime stopTime loadBias tripCap maxWait contactTime fullThreshold
  have used : slotErased (encodeBank ⟨b1, b2, b3, b4, b5, b6, b7, b8, b9, recallFloor, withdrawn, storedMode⟩) = false :=
    slotErased_eq_false (i := 13) (show storedMode.code ≠ 255 by cases storedMode <;> decide)
  unfold loadBankSlot
  rw [used]
  show (match BankMode.ofCode storedMode.code with
    | none => BankRec.erased
    | some m => (checkBank (byte b1).toNat (byte b2).toNat (byte b3).toNat
        (leNat [BitVec.ofNat 8 b4, BitVec.ofNat 8 (b4 / 256)]) (byte b5).toNat (byte b6).toNat
        (leNat [BitVec.ofNat 8 b7, BitVec.ofNat 8 (b7 / 256)]) (byte b8).toNat (byte b9).toNat
        (byte recallFloor.val).toNat withdrawn m).getD BankRec.erased) = _
  rw [BankMode.ofCode_code, byte_toNat (by omega), byte_toNat (by omega), byte_toNat (by omega), leNat_pair (by omega),
    byte_toNat (by omega), byte_toNat (by omega), leNat_pair (by omega), byte_toNat (by omega), byte_toNat (by omega)]
  simp only [checkBank, floorOf_byte, Option.map_some, Option.getD_some, clampTo_eq carCount.1 carCount.2,
    clampTo_eq capacity.1 capacity.2, clampTo_eq floorTime.1 floorTime.2, clampTo_eq stopTime.1 stopTime.2,
    clampTo_eq (Nat.zero_le _) loadBias, clampTo_eq tripCap.1 tripCap.2, clampTo_eq maxWait.1 maxWait.2,
    clampTo_eq contactTime.1 contactTime.2, clampTo_eq fullThreshold.1 fullThreshold.2]

theorem checkReader_holdTime {e h b k t : Byte} {r : ReaderRec} (checked : checkReader e h b k t = some r) :
    2 ≤ r.holdTime ∧ r.holdTime ≤ 30 := by
  unfold checkReader at checked
  split at checked <;> cases checked
  exact clampTo_bounds (by decide) _

theorem loadReaderSlot_encodeReader {r : ReaderRec} (h : 2 ≤ r.holdTime ∧ r.holdTime ≤ 30) :
    loadReaderSlot (encodeReader r) = r := by
  obtain ⟨enabled, home, banks, kind, holdTime⟩ := r
  dsimp only at h
  have used : slotErased (encodeReader ⟨enabled, home, banks, kind, holdTime⟩) = false :=
    slotErased_eq_false (i := 1) (byte_ne_255 (b := byte home.val) (by rw [byte_toNat (by omega)]; omega))
  have kindCode : ReaderKind.ofCode kind.code = some kind := by cases kind <;> rfl
  unfold loadReaderSlot
  rw [used]
  show (checkReader (byte enabled.toNat) (byte home.val) (banks.setWidth 8) kind.code (byte holdTime)).getD
    ReaderRec.erased = _
  rw [checkReader, floorOf_byte, bankSetOf_setWidth, kindCode, byte_toNat (n := holdTime) (by omega),
    clampTo_eq h.1 h.2]
  cases enabled <;> rfl

theorem loadSiteSlot_encodeSite {n : Nat} (h : 60 ≤ n) (h' : n ≤ 1800) : loadSiteSlot (encodeSite n) = n := by
  have used : slotErased (encodeSite n) = false :=
    slotErased_eq_false (i := 1) (byte_ne_255 (b := BitVec.ofNat 8 (n / 256)) (by rw [BitVec.toNat_ofNat]; omega))
  unfold loadSiteSlot
  rw [used]
  show clampLife (leNat [BitVec.ofNat 8 n, BitVec.ofNat 8 (n / 256)]) = n
  rw [leNat_pair (by omega), clampLife, clampTo_eq h h']

/-! ### Profiles (R24, R179) -/

/-- An interval that R24 takes. -/
def Interval.good (i : Interval) : Prop := i.start < 1440 ∧ i.stop ≠ 0 ∧ i.stop ≤ 1440

/-- The word of an interval. -/
def Interval.word (i : Interval) : Nat := i.start + 2048 * i.stop + 4194304 * i.days.toNat

theorem Interval.word_lt {i : Interval} (h : i.good) : i.word < 67108864 := by
  have days := i.days.isLt
  obtain ⟨start, -, stop⟩ := h
  unfold Interval.word
  omega

theorem checkInterval_good {w : BitVec 32} {i : Interval} (h : checkInterval w = some i) : i.good := by
  unfold checkInterval at h
  simp only at h
  split at h <;> cases h
  next ok =>
    unfold Interval.good
    dsimp only
    omega

theorem checkInterval_word {i : Interval} (h : i.good) : checkInterval (BitVec.ofNat 32 i.word) = some i := by
  have lt := Interval.word_lt h
  obtain ⟨start, stop0, stop⟩ := h
  have number : (BitVec.ofNat 32 i.word).toNat = i.word := by
    rw [BitVec.toNat_ofNat, Nat.mod_eq_of_lt (by omega)]
  have days := i.days.isLt
  have startBits : i.word % 2048 = i.start := by unfold Interval.word; omega
  have stopBits : i.word / 2048 % 2048 = i.stop := by unfold Interval.word; omega
  have dayBits : i.word / 4194304 = i.days.toNat := by unfold Interval.word; omega
  have high : i.word / 67108864 = 0 := by omega
  unfold checkInterval
  simp only [number, startBits, stopBits, dayBits, high]
  rw [if_neg (by omega)]
  simp

theorem checkIntervals_good {ws : List (BitVec 32)} {p : List Interval} (h : checkIntervals ws = some p) :
    p.length = ws.length ∧ ∀ i ∈ p, i.good := by
  induction ws generalizing p with
  | nil =>
    cases h
    simp
  | cons w ws ih =>
    unfold checkIntervals at h
    split at h
    next i is hi his =>
      cases h
      obtain ⟨length, each⟩ := ih his
      refine ⟨by simp [length], fun j hj => ?_⟩
      rcases List.mem_cons.1 hj with rfl | hj
      · exact checkInterval_good hi
      · exact each j hj
    next => cases h

theorem checkIntervals_words {p : List Interval} (h : ∀ i ∈ p, i.good) :
    checkIntervals (p.map fun i => BitVec.ofNat 32 i.word) = some p := by
  induction p with
  | nil => rfl
  | cons i p ih =>
    rw [List.map_cons, checkIntervals, checkInterval_word (h i List.mem_cons_self),
      ih fun j hj => h j (List.mem_cons_of_mem _ hj)]

theorem flatMap_encodeInterval_length (p : List Interval) : (p.flatMap encodeInterval).length = 4 * p.length := by
  induction p with
  | nil => rfl
  | cons i p ih =>
    rw [List.flatMap_cons, List.length_append, ih, encodeInterval, toLE_length, List.length_cons]
    omega

/-- The words of a profile's bytes, one after another. -/
theorem intervalWords_eq {p : List Interval} (h : ∀ i ∈ p, i.good) (rest : List Byte) :
    ((List.range p.length).map fun i => BitVec.ofNat 32 (leNat (bytesAt (p.flatMap encodeInterval ++ rest) (4 * i) 4))) =
      p.map fun i => BitVec.ofNat 32 i.word := by
  induction p with
  | nil => rfl
  | cons i p ih =>
    have length : (encodeInterval i).length = 4 := toLE_length _ _
    have lt := Interval.word_lt (h i List.mem_cons_self)
    rw [List.length_cons, List.range_succ_eq_map, List.map_cons, List.map_cons, List.map_map, List.flatMap_cons,
      List.append_assoc, ← ih fun j hj => h j (List.mem_cons_of_mem _ hj)]
    refine congrArg₂ List.cons ?_ (List.map_congr_left fun j _ => ?_)
    · rw [bytesAt, List.drop_zero, ← length, List.take_left]
      exact congrArg _ (leNat_toLE (k := 4) (show i.word < 256 ^ 4 by omega))
    · show BitVec.ofNat 32 (leNat (bytesAt _ (4 * (j + 1)) 4)) = _
      rw [show 4 * (j + 1) = 4 + 4 * j by omega, bytesAt_append_right length]

theorem loadProfileSlot_encodeProfile {p : List Interval} (few : p.length ≤ 6) (h : ∀ i ∈ p, i.good) :
    loadProfileSlot (encodeProfile p) = p := by
  have slot : encodeProfile p = byte p.length :: (p.flatMap encodeInterval ++ List.replicate (27 - 4 * p.length) 255) := by
    have length := flatMap_encodeInterval_length p
    rw [encodeProfile, padSlot_eq (by rw [List.length_cons, length]; omega), List.length_cons, length, List.cons_append]
    congr 3
    omega
  have count : byteAt (encodeProfile p) 0 = byte p.length := by rw [slot]; rfl
  have number : (byte p.length).toNat = p.length := byte_toNat (by omega)
  have used : slotErased (encodeProfile p) = false :=
    slotErased_eq_false (i := 0) (byte_ne_255 (by rw [count, number]; omega))
  have words : profileWords (encodeProfile p) p.length = p.map fun i => BitVec.ofNat 32 i.word := by
    rw [profileWords, slot, ← intervalWords_eq h (List.replicate (27 - 4 * p.length) 255)]
    refine List.map_congr_left fun i _ => ?_
    rw [show 1 + 4 * i = 4 * i + 1 by omega]
    rfl
  unfold loadProfileSlot
  rw [used, count, number, words, if_neg (by simp), if_neg (by omega), checkProfile,
    if_neg (by rw [List.length_map]; omega), checkIntervals_words h, Option.getD_some]

/-- Settles O50: each slot laid out by its parts, and each part read back. -/
theorem storedSlotsReadBack : Obligations.StoredSlotsReadBack := by
  refine ⟨fun _ _ _ _ _ _ _ _ _ _ r checked => ⟨decodeCredential_encodeCredential (checkCredential_storable checked),
      encodeCredential_length r⟩, loadGroupSlot_encodeGroup, fun w p checked => ?_, loadTenantSlot_encodeTenant,
    fun f => loadFloorSlot_encodeFloor, fun _ _ _ _ _ _ _ _ _ _ _ _ _ checked =>
      loadBankSlot_encodeBank (checkBank_clamped checked),
    fun _ _ _ _ _ _ checked => loadReaderSlot_encodeReader (checkReader_holdTime checked),
    fun n => loadSiteSlot_encodeSite⟩
  unfold checkProfile at checked
  split at checked
  · cases checked
  next few =>
    obtain ⟨length, good⟩ := checkIntervals_good checked
    exact loadProfileSlot_encodeProfile (by omega) good

end Sys2Proof.Machine
end

section
/-! PROOF of O51 (R1, R13, R18, R179): a WRITE image read back, byte by byte, slot by slot. -/

namespace Sys2Proof.Machine

/-! ### Reading a written page -/

/-- A page that holds an image reads as the image's bytes. -/
theorem pageRead_writePage {m : List Host.Cell} (wf : Store.wf m = true) {p : Nat} {image : List Byte}
    (length : image.length = 512) {i n : Nat} (h : i + n ≤ 512) :
    pageRead (Store.writePage m p image) p i n = bytesAt image i n := by
  refine List.ext_getElem? fun j => ?_
  rw [pageRead, List.getElem?_map, bytesAt, List.getElem?_take, List.getElem?_drop]
  by_cases hj : j < n
  · have read := Store.read_writePage_in wf p image length (i + j) (by omega)
    rw [List.getElem?_range hj, Option.map_some, if_pos hj, read, ← List.getElem?_eq_getElem]
  · rw [List.getElem?_eq_none (by simpa using hj), if_neg hj]
    rfl

/-! ### The image by its slots (R179) -/

theorem slotTail_length {p n k : Nat} : (slotTail p n k).length = if k = 15 then 3 else 4 := by
  unfold slotTail
  split
  next h => simp [h]
  · split
    next h => simp [h]
    · split <;> rfl

section
variable {p n : Nat}

theorem imageBody_cons (k : Nat) (slot : List Byte) (slots : List (List Byte)) :
    imageBody p n k (slot :: slots) = slot ++ slotTail p n k ++ imageBody p n (k + 1) slots := rfl

/-- The slot at place `j` and what follows it. -/
theorem imageBody_drop {slots : List (List Byte)} (each : ∀ x ∈ slots, x.length = 28) {k j : Nat} {slot : List Byte}
    (hk : k + slots.length ≤ 16) (hj : slots[j]? = some slot) :
    ∃ rest, (imageBody p n k slots).drop (32 * j) = slot ++ slotTail p n (k + j) ++ rest := by
  induction slots generalizing k j with
  | nil => simp at hj
  | cons x xs ih =>
    rw [List.length_cons] at hk
    cases j with
    | zero =>
      cases hj
      exact ⟨imageBody p n (k + 1) xs, rfl⟩
    | succ j =>
      rw [List.getElem?_cons_succ] at hj
      have more : xs ≠ [] := by rintro rfl; simp at hj
      have some := List.length_pos_iff.2 more
      have head : (x ++ slotTail p n k).length = 32 := by
        rw [List.length_append, each x List.mem_cons_self, slotTail_length, if_neg (by omega)]
      obtain ⟨rest, tail⟩ := ih (fun y hy => each y (List.mem_cons_of_mem _ hy)) (k := k + 1) (by omega) hj
      refine ⟨rest, ?_⟩
      rw [imageBody_cons, show 32 * (j + 1) = (x ++ slotTail p n k).length + 32 * j by omega, ← List.drop_drop,
        List.drop_left, tail, show k + 1 + j = k + (j + 1) by omega]

theorem imageBody_length {slots : List (List Byte)} (each : ∀ x ∈ slots, x.length = 28) {k : Nat}
    (hk : k + slots.length = 16) (some : slots ≠ []) : (imageBody p n k slots).length = 32 * slots.length - 1 := by
  induction slots generalizing k with
  | nil => exact absurd rfl some
  | cons x xs ih =>
    rw [List.length_cons] at hk
    rw [imageBody_cons, List.length_append, List.length_append, each x List.mem_cons_self, slotTail_length,
      List.length_cons]
    cases xs with
    | nil =>
      simp only [List.length_nil] at hk
      rw [if_pos (by omega)]
      rfl
    | cons y ys =>
      rw [ih (fun z hz => each z (List.mem_cons_of_mem _ hz)) (k := k + 1) (by omega) (by simp)]
      rw [List.length_cons] at hk ⊢
      rw [if_neg (by omega)]
      omega

theorem writeImage_length {slots : List (List Byte)} (each : ∀ x ∈ slots, x.length = 28) (sixteen : slots.length = 16) :
    (writeImage p n slots).length = 512 := by
  have some : slots ≠ [] := by rintro rfl; simp at sixteen
  simp only [writeImage]
  rw [List.length_append, imageBody_length each (by omega) some, sixteen]
  rfl

/-- A slot of an image, with the bytes that the page puts after it. -/
theorem writeImage_bytesAt {slots : List (List Byte)} (each : ∀ x ∈ slots, x.length = 28) (sixteen : slots.length = 16)
    {k : Nat} {slot : List Byte} (hk : slots[k]? = some slot) :
    bytesAt (writeImage p n slots) (32 * k) 28 = slot ∧
      (k < 15 → bytesAt (writeImage p n slots) (32 * k + 28) 4 = slotTail p n k) := by
  obtain ⟨rest, drop⟩ := imageBody_drop (p := p) (n := n) each (k := 0) (by omega) hk
  rw [Nat.zero_add] at drop
  have lt : k < 16 := sixteen ▸ (List.getElem?_eq_some_iff.1 hk).1
  have length : slot.length = 28 := each slot (List.mem_of_getElem? hk)
  have some : slots ≠ [] := by rintro rfl; simp at sixteen
  have body := imageBody_length (p := p) (n := n) each (k := 0) (by omega) some
  have whole : (writeImage p n slots).drop (32 * k) =
      slot ++ (slotTail p n k ++ (rest ++ [checkByte (imageBody p n 0 slots)])) := by
    simp only [writeImage]
    rw [List.drop_append_of_le_length (by omega), drop]
    simp only [List.append_assoc]
  refine ⟨?_, fun early => ?_⟩
  · rw [bytesAt, whole, ← length, List.take_left]
  · have tail := slotTail_length (p := p) (n := n) (k := k)
    rw [if_neg (by omega)] at tail
    rw [bytesAt, ← List.drop_drop, whole, ← length, List.drop_left, ← tail, List.take_left]

theorem writeImage_sum (slots : List (List Byte)) : byteSum (writeImage p n slots) % 256 = 0 := byteSum_checked _

end

/-! ### A written page (R18) -/

theorem bytesAt_take (bs : List Byte) (i : Nat) {m n : Nat} (h : n ≤ m) : bytesAt bs i n = (bytesAt bs i m).take n := by
  rw [bytesAt, bytesAt, List.take_take, Nat.min_eq_left h]

section
variable {m : List Host.Cell} {p n : Nat} {slots : List (List Byte)}

theorem slotRead_writePage (wf : Store.wf m = true) (each : ∀ x ∈ slots, x.length = 28) (sixteen : slots.length = 16)
    {k : Nat} (hk : k < 16) : some (slotRead (Store.writePage m p (writeImage p n slots)) p k) = slots[k]? := by
  have at_k : slots[k]? = some slots[k] := List.getElem?_eq_getElem (by omega)
  rw [at_k, slotRead, pageRead_writePage wf (writeImage_length each sixteen) (by omega),
    (writeImage_bytesAt each sixteen at_k).1]

theorem pageMarker_writePage (wf : Store.wf m = true) (each : ∀ x ∈ slots, x.length = 28) (sixteen : slots.length = 16)
    (hp : p < 65536) : pageMarker (Store.writePage m p (writeImage p n slots)) p = p := by
  have at_k : slots[0]? = some slots[0] := List.getElem?_eq_getElem (by omega)
  obtain ⟨-, tail⟩ := writeImage_bytesAt (p := p) (n := n) each sixteen at_k
  rw [pageMarker, pageRead_writePage wf (writeImage_length each sixteen) (by omega), bytesAt_take _ _ (by decide : 2 ≤ 4)]
  rw [show 28 = 32 * 0 + 28 from rfl, tail (by decide)]
  exact leNat_toLE (k := 2) hp

theorem pageStamp_writePage (wf : Store.wf m = true) (each : ∀ x ∈ slots, x.length = 28) (sixteen : slots.length = 16)
    (hp : p < 65536) (some_ : 1 ≤ n) (bound : n ≤ 4294967294) :
    pageStamp (Store.writePage m p (writeImage p n slots)) p = some n := by
  have at_k : slots[1]? = some slots[1] := List.getElem?_eq_getElem (by omega)
  obtain ⟨-, tail⟩ := writeImage_bytesAt (p := p) (n := n) each sixteen at_k
  have stamp : leNat (pageRead (Store.writePage m p (writeImage p n slots)) p 60 4) = n := by
    rw [pageRead_writePage wf (writeImage_length each sixteen) (by omega), show 60 = 32 * 1 + 28 from rfl,
      tail (by decide)]
    exact leNat_toLE (k := 4) (show n < 256 ^ 4 by omega)
  unfold pageStamp
  simp only [stamp, pageMarker_writePage wf each sixteen hp]
  exact if_pos ⟨trivial, some_, bound⟩

theorem pageGood_writePage (wf : Store.wf m = true) (each : ∀ x ∈ slots, x.length = 28) (sixteen : slots.length = 16)
    (hp : p < 65535) : pageGood (Store.writePage m p (writeImage p n slots)) p := by
  have marker := pageMarker_writePage (n := n) wf each sixteen (p := p) (by omega)
  have length := writeImage_length (p := p) (n := n) each sixteen
  refine ⟨?_, .inr marker, fun erased => by omega⟩
  rw [pageRead_writePage wf length (by omega), bytesAt, List.drop_zero, ← length, List.take_length]
  exact writeImage_sum slots

end

/-- Settles O51: the page reads as its image, whose parts are the slots, the marker, the stamp and the check byte. -/
theorem writtenPageIsJudgedGood : Obligations.WrittenPageIsJudgedGood := by
  intro m p n slots wf hp some bound sixteen each
  exact ⟨pageGood_writePage wf each sixteen (by omega), pageStamp_writePage wf each sixteen (by omega) some bound,
    fun k hk => slotRead_writePage wf each sixteen hk⟩

end Sys2Proof.Machine
end

section
/-! PROOF of O5 (R3, R4, R19): which slot of a badge the scan keeps, and what 28 bytes hold. -/

namespace Sys2Proof.Machine

/-! ### GOOD pages (R18) -/

theorem judgeGood_iff (m : List Host.Cell) (p : Nat) : judgeGood m p = true ↔ pageGood m p := by
  have whole : (pageRead m p 0 Config.pageBytes).all (fun b => b = 255) = true ↔
      ∀ i < 512, Store.read m (512 * p + i) = 255 := by
    simp [pageRead, pageAddress, Config.pageBytes]
  unfold judgeGood pageGood sumOk
  simp only [Bool.and_eq_true, Bool.or_eq_true, decide_eq_true_eq, whole, and_assoc]
  refine and_congr Iff.rfl (and_congr Iff.rfl ?_)
  rw [imp_iff_not_or]

theorem mem_scanBad {m : List Host.Cell} {p : Nat} : p ∈ scanBad m ↔ p < 2112 ∧ ¬ pageGood m p := by
  rw [scanBad, List.mem_filter, List.mem_range, ← judgeGood_iff]
  simp [Config.pages]

theorem scanBad_contains {m : List Host.Cell} {p : Nat} (hp : p < 2112) :
    (scanBad m).contains p = false ↔ pageGood m p := by
  rw [← Bool.not_eq_true, List.contains_iff_mem, mem_scanBad]
  simp [hp]

theorem probeRange_lt {badge : Badge} {p : Nat} (h : p ∈ probeRange badge) : p < 2048 := by
  rw [probeRange_eq] at h
  have := homePage_lt badge
  simp only [List.mem_cons, List.not_mem_nil, or_false] at h
  omega

/-! ### Places in the probe range (R5) -/

/-- A slot of the probe range has one place. -/
theorem probeSlots_nodup (badge : Badge) : (probeSlots badge).Nodup := by
  have pages := probeRange_nodup badge
  unfold probeSlots
  refine List.nodup_flatMap.2 ⟨fun p _ => ?_, ?_⟩
  · exact List.nodup_range.map fun _ _ e => (Prod.mk.inj e).2
  · refine pages.imp fun {p q} ne x hx hy => ?_
    obtain ⟨_, -, rfl⟩ := List.mem_map.1 hx
    obtain ⟨_, -, e⟩ := List.mem_map.1 hy
    exact ne (Prod.mk.inj e).1.symm

theorem mem_probeSlots {badge : Badge} {p k : Nat} : (p, k) ∈ probeSlots badge ↔ p ∈ probeRange badge ∧ k < 16 := by
  simp [probeSlots]

theorem probeSlots_place_unique {badge : Badge} {i j : Nat} {x : Nat × Nat} (hi : (probeSlots badge)[i]? = some x)
    (hj : (probeSlots badge)[j]? = some x) : i = j :=
  (List.getElem?_inj (List.getElem?_eq_some_iff.1 hi).1 (probeSlots_nodup badge)).1 (hi.trans hj.symm)

/-! ### Rivals (R19) -/

/-- A slot that counts as holding a record: its GOOD page lies in the record's probe range. -/
def slotHolds (m : List Host.Cell) (p k : Nat) (r : Credential) : Prop :=
  pageGood m p ∧ decodeCredential (slotRead m p k) = some r ∧ p ∈ probeRange r.badge

theorem slotHolds_iff {m : List Host.Cell} {p k : Nat} {r : Credential} :
    slotHolds m p k r ↔ pageGood m p ∧ rawRecord m p k = some r := by
  rw [slotHolds, rawRecord_eq_some_iff]

theorem slotHolds_record {m : List Host.Cell} {p k : Nat} {r x : Credential} (h : slotHolds m p k r)
    (g : slotHolds m p k x) : r = x := by
  have e := (slotHolds_iff.1 h).2.symm.trans (slotHolds_iff.1 g).2
  exact Option.some.inj e

/-- The stamp that the scan compares: a page without a stamp in range counts as bearing the lowest (log 8). -/
def rankStamp (m : List Host.Cell) (p : Nat) : Nat := (pageStamp m p).getD 0

theorem isRival_iff {m : List Host.Cell} {badge : Badge} {p k : Nat} (range : p < 2112) :
    (!(scanBad m).contains p && ((rawRecord m p k).any fun r => r.badge = badge)) = true ↔
      ∃ r, slotHolds m p k r ∧ r.badge = badge := by
  rw [Bool.and_eq_true, Bool.not_eq_true', scanBad_contains range]
  simp only [slotHolds_iff]
  cases rawRecord m p k <;> simp

theorem mem_rivals {m : List Host.Cell} {badge : Badge} {i n p k : Nat} :
    (i, n, p, k) ∈ rivals m (scanBad m) badge ↔
      (probeSlots badge)[i]? = some (p, k) ∧ n = rankStamp m p ∧ ∃ r, slotHolds m p k r ∧ r.badge = badge := by
  unfold rivals
  rw [List.mem_map]
  constructor
  · rintro ⟨⟨⟨q, j⟩, i'⟩, member, e⟩
    obtain ⟨listed, rival⟩ := List.mem_filter.1 member
    have at_i := List.mem_zipIdx_iff_getElem?.1 listed
    simp only [Prod.mk.injEq] at e
    obtain ⟨rfl, rfl, rfl, rfl⟩ := e
    have range : q < 2112 := Nat.lt_trans (probeRange_lt (mem_probeSlots.1 (List.mem_of_getElem? at_i)).1) (by decide)
    simp only at rival
    exact ⟨at_i, rfl, (isRival_iff range).1 rival⟩
  · rintro ⟨at_i, rfl, holds⟩
    have range : p < 2112 := Nat.lt_trans (probeRange_lt (mem_probeSlots.1 (List.mem_of_getElem? at_i)).1) (by decide)
    have rival := (isRival_iff range).2 holds
    exact ⟨((p, k), i), List.mem_filter.2 ⟨List.mem_zipIdx_iff_getElem?.2 at_i, by simpa only using rival⟩, rfl⟩

/-- R19: one slot has precedence over another with the badge. -/
def slotBefore (m : List Host.Cell) (badge : Badge) (p k q j : Nat) : Prop :=
  rankStamp m q < rankStamp m p ∨
    (rankStamp m q = rankStamp m p ∧ ∃ i i' : Nat, i < i' ∧ (probeSlots badge)[i]? = some (p, k) ∧
      (probeSlots badge)[i']? = some (q, j))

theorem scanKeeps_iff {m : List Host.Cell} {p k : Nat} {r : Credential} (hk : k < 16) (holds : slotHolds m p k r) :
    scanKeeps m (scanBad m) p k r = true ↔
      ∀ q j x, j < 16 → slotHolds m q j x → x.badge = r.badge → (q, j) ≠ (p, k) → slotBefore m r.badge p k q j := by
  have place : ∀ {q j x}, j < 16 → slotHolds m q j x → x.badge = r.badge → ∃ i, (probeSlots r.badge)[i]? = some (q, j) :=
    fun {q j x} hj h e => List.mem_iff_getElem?.1 (mem_probeSlots.2 ⟨e ▸ h.2.2, hj⟩)
  obtain ⟨i, at_i⟩ := place hk holds rfl
  have own : (i, rankStamp m p, p, k) ∈ rivals m (scanBad m) r.badge := mem_rivals.2 ⟨at_i, rfl, r, holds, rfl⟩
  unfold scanKeeps
  simp only [List.all_eq_true, Bool.or_eq_true, List.any_eq_true, Bool.and_eq_true, decide_eq_true_eq]
  constructor
  · intro all q j x hj h e ne
    obtain ⟨i', at_i'⟩ := place hj h e
    rcases all (i', rankStamp m q, q, j) (mem_rivals.2 ⟨at_i', rfl, x, h, e⟩) with ⟨rfl, rfl⟩ | ⟨⟨a, n, q', j'⟩, member, ⟨same, before⟩⟩
    · exact absurd rfl ne
    · obtain ⟨rfl, rfl⟩ := same
      obtain ⟨at_a, rfl, -⟩ := mem_rivals.1 member
      have stamps : rankStamp m q < rankStamp m q' ∨ (rankStamp m q' = rankStamp m q ∧ a < i') := by
        simpa [keptBefore] using before
      exact stamps.imp id fun ⟨e, lt⟩ => ⟨e.symm, a, i', lt, at_a, at_i'⟩
  · rintro all ⟨i', n, q, j⟩ member
    obtain ⟨at_i', rfl, x, h, e⟩ := mem_rivals.1 member
    have hj : j < 16 := (mem_probeSlots.1 (List.mem_of_getElem? at_i')).2
    by_cases same : (q, j) = (p, k)
    · cases same
      exact .inl ⟨rfl, rfl⟩
    · refine .inr ⟨_, own, ⟨rfl, rfl⟩, ?_⟩
      rcases all q j x hj h e same with lt | ⟨eq, a, a', lt, at_a, at_a'⟩
      · simp [keptBefore, lt]
      · have ha := probeSlots_place_unique at_a at_i
        have ha' := probeSlots_place_unique at_a' at_i'
        subst ha ha'
        simp [keptBefore, eq, lt]

theorem mem_scanFreed {m : List Host.Cell} {p k : Nat} :
    (p, k) ∈ scanFreed m (scanBad m) ↔
      p < 2048 ∧ k < 16 ∧ ∃ r, slotHolds m p k r ∧ scanKeeps m (scanBad m) p k r = false := by
  unfold scanFreed
  rw [List.mem_flatMap]
  constructor
  · rintro ⟨q, hq, member⟩
    rw [List.mem_range] at hq
    split at member
    · cases member
    next good =>
      obtain ⟨j, hj, e⟩ := List.mem_map.1 member
      cases e
      obtain ⟨hk, free⟩ := List.mem_filter.1 hj
      have range : p < 2112 := Nat.lt_trans hq (by decide)
      split at free
      next r raw =>
        exact ⟨hq, List.mem_range.1 hk, r,
          slotHolds_iff.2 ⟨(scanBad_contains range).1 (by simpa using good), raw⟩, by simpa using free⟩
      · cases free
  · rintro ⟨hp, hk, r, holds, lost⟩
    obtain ⟨good, raw⟩ := slotHolds_iff.1 holds
    refine ⟨p, List.mem_range.2 hp, ?_⟩
    have range : p < 2112 := Nat.lt_trans hp (by decide)
    rw [if_neg (ne_true_of_eq_false ((scanBad_contains range).2 good))]
    exact List.mem_map.2 ⟨k, List.mem_filter.2 ⟨List.mem_range.2 hk, by simp only [raw, lost, Bool.not_false]⟩, rfl⟩

/-- R19: the slots in use after the scan. -/
theorem scanStore_record_iff {m : List Host.Cell} {p k : Nat} {r : Credential} (hk : k < 16) :
    (scanStore m).record p k = some r ↔
      slotHolds m p k r ∧
        ∀ q j x, j < 16 → slotHolds m q j x → x.badge = r.badge → (q, j) ≠ (p, k) → slotBefore m r.badge p k q j := by
  have bad : (scanStore m).bad p = (scanBad m).contains p := rfl
  have freed : (scanStore m).freed = scanFreed m (scanBad m) := by rw [scanStore]
  have cells : (scanStore m).cells = m := by rw [scanStore]
  rw [StoreBlock.record_eq_some_iff, bad, freed, cells]
  constructor
  · rintro ⟨good, kept, raw⟩
    have range := probeRange_lt (rawRecord_eq_some_iff.1 raw).2
    have holds : slotHolds m p k r := slotHolds_iff.2 ⟨(scanBad_contains (by omega)).1 good, raw⟩
    refine ⟨holds, (scanKeeps_iff hk holds).1 ?_⟩
    by_contra lost
    exact kept (mem_scanFreed.2 ⟨range, hk, r, holds, by simpa using lost⟩)
  · rintro ⟨holds, keeps⟩
    obtain ⟨good, raw⟩ := slotHolds_iff.1 holds
    have range := probeRange_lt holds.2.2
    refine ⟨(scanBad_contains (by omega)).2 good, fun member => ?_, raw⟩
    obtain ⟨-, -, x, held, lost⟩ := mem_scanFreed.1 member
    cases slotHolds_record held holds
    rw [(scanKeeps_iff hk holds).2 keeps] at lost
    cases lost

theorem StoreBlock.countInUse_slotsInUse (st : StoreBlock) (n : Nat) :
    { st with slotsInUse := n }.countInUse = st.countInUse := by
  have pages : { st with slotsInUse := n }.pageInUse = st.pageInUse := rfl
  rw [StoreBlock.countInUse, StoreBlock.countInUse, pages]

theorem scanStore_slotsInUse (m : List Host.Cell) : (scanStore m).slotsInUse = (scanStore m).countInUse := by
  unfold scanStore
  rw [StoreBlock.countInUse_slotsInUse]

/-- R19: no two slots keep one badge. -/
theorem scanStore_badgesOnce (m : List Host.Cell) : (scanStore m).badgesOnce := by
  intro p k q j r x hk hj hr hx same
  obtain ⟨holdsR, keepsR⟩ := (scanStore_record_iff hk).1 hr
  obtain ⟨holdsX, keepsX⟩ := (scanStore_record_iff hj).1 hx
  by_contra ne
  have differ : (q, j) ≠ (p, k) := fun e => ne ⟨(Prod.mk.inj e).1.symm, (Prod.mk.inj e).2.symm⟩
  rcases keepsR q j x hj holdsX same.symm differ with lt | ⟨eq, a, b, lt, at_a, at_b⟩ <;>
    rcases keepsX p k r hk holdsR same differ.symm with lt' | ⟨eq', c, d, lt', at_c, at_d⟩ <;> try omega
  rw [← same] at at_c at_d
  have := probeSlots_place_unique at_a at_d
  have := probeSlots_place_unique at_b at_c
  omega

theorem exec_resetPinRelease {s : State} (held : s.part.resetPin = true) :
    exec .resetPinRelease s = .next (s.setPart { s.part with resetPin := false, scanning := true }).scan := if_pos held

theorem State.scan_store (s : State) : s.scan.store = scanStore s.store.cells := rfl

/-! ### What 28 bytes hold (R3, R4, R179) -/

theorem numAt_eq {bs : List Byte} {i : Nat} (h : i < bs.length) : (byteAt bs i).toNat = numAt bs i := by
  simp [byteAt, numAt, h]

theorem bytesAt_succ {bs : List Byte} {i n : Nat} (h : i < bs.length) :
    bytesAt bs i (n + 1) = bs.getD i 0 :: bytesAt bs (i + 1) n := by
  rw [bytesAt, bytesAt, List.drop_eq_getElem_cons h, List.take_succ_cons, List.getD_eq_getElem _ _ h]

theorem leNat_bytesAt_four {bs : List Byte} {i : Nat} (h : i + 4 ≤ bs.length) :
    leNat (bytesAt bs i 4) =
      numAt bs i + 256 * numAt bs (i + 1) + 65536 * numAt bs (i + 2) + 16777216 * numAt bs (i + 3) := by
  have next : i + 1 + 1 = i + 2 ∧ i + 1 + 1 + 1 = i + 3 := ⟨rfl, rfl⟩
  rw [bytesAt_succ (by omega), bytesAt_succ (by omega), bytesAt_succ (by omega), bytesAt_succ (by omega)]
  simp only [leNat, bytesAt, List.take_zero, numAt, next.1, next.2]
  omega

theorem leNat_bytesAt_two {bs : List Byte} {i : Nat} (h : i + 2 ≤ bs.length) :
    leNat (bytesAt bs i 2) = numAt bs i + 256 * numAt bs (i + 1) := by
  rw [bytesAt_succ (by omega), bytesAt_succ (by omega)]
  simp only [leNat, bytesAt, List.take_zero, numAt]
  omega

theorem numAt_lt (bs : List Byte) (i : Nat) : numAt bs i < 256 := (bs.getD i 0).isLt

/-- R3, R179: the fields of 28 bytes that hold a record. -/
theorem decodeCredential_of_length {bs : List Byte} (h : bs.length = 28) :
    decodeCredential bs =
      if 4 < numAt bs 7 ∨ 2 < numAt bs 13 then none
      else checkCredential
        (BitVec.ofNat 32 (numAt bs 0 + 256 * numAt bs 1 + 65536 * numAt bs 2 + 16777216 * numAt bs 3))
        (bs.getD 4 0) (bs.getD 5 0) (bs.getD 6 0) (bytesAt bs 8 (numAt bs 7)) (bs.getD 12 0)
        (bytesAt bs 14 (numAt bs 13)) (BitVec.ofNat 16 (numAt bs 16 + 256 * numAt bs 17)) (bs.getD 18 0)
        (BitVec.ofNat 16 (numAt bs 19 + 256 * numAt bs 20)) := by
  have at_place : ∀ i, i < 28 → byteAt bs i = bs.getD i 0 := fun i hi => by simp [byteAt, h, hi]
  unfold decodeCredential
  rw [leNat_bytesAt_four (by omega), leNat_bytesAt_two (by omega), leNat_bytesAt_two (by omega), at_place 4 (by decide),
    at_place 5 (by decide), at_place 6 (by decide), at_place 12 (by decide), at_place 18 (by decide),
    numAt_eq (by omega), numAt_eq (by omega)]

theorem byte_ne_states {b : Byte} : (b ≠ 1 ∧ b ≠ 2 ∧ b ≠ 3) ↔ b.toNat = 0 ∨ 3 < b.toNat := by
  simp only [ne_eq, ← BitVec.toNat_inj]
  change (¬ b.toNat = 1 ∧ ¬ b.toNat = 2 ∧ ¬ b.toNat = 3) ↔ _
  omega

/-- Settles O5: a kept slot has precedence over every rival (`scanStore_record_iff`), and a record is its 28 bytes'
fields when they pass the check (`decodeCredential_of_length`, `checkCredential_eq_some_iff`). -/
theorem scanKeepsOneSlotForABadge : Obligations.ScanKeepsOneSlotForABadge := by
  refine ⟨fun s held => ⟨_, exec_resetPinRelease held, ?_, ?_⟩, ?_⟩
  · rw [State.scan_store, State.setPart_store]
    generalize s.store.cells = m
    intro m holds stamp p k r hk
    have kept := scanStore_record_iff (m := m) (p := p) (r := r) hk
    simp only [slotHolds, slotBefore, rankStamp] at kept
    exact kept
  · rw [State.scan_store, scanStore_slotsInUse, StoreBlock.countInUse]
    rfl
  intro bs len n badge
  have small : ∀ i, n i < 256 := numAt_lt bs
  have h0 := small 0; have h1 := small 1; have h2 := small 2; have h3 := small 3
  have h16 := small 16; have h17 := small 17; have h19 := small 19; have h20 := small 20
  have badgeNat : (BitVec.ofNat 32 badge).toNat = badge := by
    rw [BitVec.toNat_ofNat]
    exact Nat.mod_eq_of_lt (by omega)
  have fromNat : (BitVec.ofNat 16 (n 16 + 256 * n 17)).toNat = n 16 + 256 * n 17 := by
    rw [BitVec.toNat_ofNat]
    exact Nat.mod_eq_of_lt (by omega)
  have untilNat : (BitVec.ofNat 16 (n 19 + 256 * n 20)).toNat = n 19 + 256 * n 20 := by
    rw [BitVec.toNat_ofNat]
    exact Nat.mod_eq_of_lt (by omega)
  have groupCount : (bytesAt bs 8 (n 7)).length = min (n 7) 20 := by simp [bytesAt, len]
  have personalCount : (bytesAt bs 14 (n 13)).length = min (n 13) 14 := by simp [bytesAt, len]
  have decoded : decodeCredential bs =
      if 4 < n 7 ∨ 2 < n 13 then none
      else checkCredential (BitVec.ofNat 32 badge) (bs.getD 4 0) (bs.getD 5 0) (bs.getD 6 0) (bytesAt bs 8 (n 7))
        (bs.getD 12 0) (bytesAt bs 14 (n 13)) (BitVec.ofNat 16 (n 16 + 256 * n 17)) (bs.getD 18 0)
        (BitVec.ofNat 16 (n 19 + 256 * n 20)) := decodeCredential_of_length len
  constructor
  · rw [decoded]
    split
    next many => exact ⟨fun _ => by omega, fun _ => rfl⟩
    next few =>
      have zero : (BitVec.ofNat 32 badge = 0) ↔ badge = 0 := by
        rw [← BitVec.toNat_inj, badgeNat]; rfl
      have top : (BitVec.ofNat 32 badge = 4294967295) ↔ badge = 4294967295 := by
        rw [← BitVec.toNat_inj, badgeNat]; rfl
      have untilGiven : bs.getD 18 0 ≠ 0 ↔ n 18 ≠ 0 := not_congr byte_toNat_eq_zero_iff.symm
      refine checkCredential_eq_none_iff.trans ?_
      rw [untilNat, fromNat, zero, top, groupCount, personalCount, untilGiven, byte_ne_states]
      have tenant : (bs.getD 5 0).toNat = n 5 := rfl
      have state : (bs.getD 4 0).toNat = n 4 := rfl
      rw [tenant, state]
      omega
  · intro r h
    rw [decoded] at h
    split at h
    · cases h
    next few =>
      obtain ⟨-, st, tn, state, tenant, rfl⟩ := checkCredential_eq_some_iff.1 h
      refine ⟨badgeNat, by rw [BadgeState.code_of_ofCode state], floorOf_eq_some_iff.1 tenant, rfl, rfl,
        floorOf_map_val _, clampFloors_map_val _, fromNat, ?_⟩
      change (if n 18 = 0 then none else some _).map _ = _
      by_cases given : n 18 = 0
      · simp only [given, if_true, Option.map_none]
      · simp only [given, if_false, Option.map_some, untilNat]

end Sys2Proof.Machine
end

section
/-! PROOF of O4 (R18, R20): how the scan judges pages, sets the stamp counter and loads the policy items. -/

namespace Sys2Proof.Machine

/-! ### What a slot's bytes load (R20, R178) -/

theorem byteAt_eq {bs : List Byte} {i : Nat} (h : i < bs.length) : byteAt bs i = bs.getD i 0 := by
  simp [byteAt, h]

theorem slotErased_iff {bs : List Byte} : slotErased bs = true ↔ bs = freeSlot := decide_eq_true_iff

theorem leNat_testBit (bs : List Byte) (n : Nat) : (leNat bs).testBit n = (bs.getD (n / 8) 0).getLsbD (n % 8) := by
  induction bs generalizing n with
  | nil => simp [leNat]
  | cons b bs ih =>
    have lt : b.toNat < 2 ^ 8 := b.isLt
    rw [leNat, Nat.add_comm, show (256 : Nat) = 2 ^ 8 from rfl, Nat.testBit_two_pow_mul_add _ lt, ih]
    by_cases low : n < 8
    · rw [if_pos low, Nat.div_eq_of_lt low, Nat.mod_eq_of_lt low]
      rfl
    · obtain ⟨k, rfl⟩ : ∃ k, n = k + 8 := ⟨n - 8, by omega⟩
      rw [if_neg low, Nat.add_sub_cancel, Nat.add_div_right _ (by decide), Nat.add_mod_right]
      rfl

/-- R178: a floor set out of a slot's first sixteen bytes. -/
theorem floorsHeld_leNat (bs : List Byte) : floorsHeld bs (BitVec.ofNat 128 (leNat (bytesAt bs 0 16))) := by
  intro f
  have small : f.val / 8 < 16 := by omega
  change (BitVec.ofNat 128 _).getLsbD f.val = _
  rw [BitVec.getLsbD_ofNat, leNat_testBit, bytesAt, List.drop_zero, decide_eq_true f.isLt, Bool.true_and]
  congr 1
  rw [List.getD_eq_getElem?_getD, List.getD_eq_getElem?_getD, List.getElem?_take_of_lt small]

theorem FloorKind.ofCode_eq (b : Byte) :
    FloorKind.ofCode b =
      if 4 ≤ b.toNat then none
      else some (match b.toNat with
        | 0 => .ordinary
        | 1 => .lobby
        | 2 => .skyLobby
        | _ => .amenity) := by
  unfold FloorKind.ofCode
  split <;> simp_all
  omega

theorem FloorState.ofCode_eq (b : Byte) :
    FloorState.ofCode b = if 2 ≤ b.toNat then none else some (if b.toNat = 0 then .isOpen else .isClosed) := by
  unfold FloorState.ofCode
  split <;> simp_all
  omega

theorem BankMode.ofCode_eq (b : Byte) :
    BankMode.ofCode b =
      if 5 ≤ b.toNat then none
      else some (match b.toNat with
        | 0 => .out
        | 1 => .normal
        | 2 => .upPeak
        | 3 => .lockdown
        | _ => .fireRecall) := by
  unfold BankMode.ofCode
  split <;> simp_all
  omega

theorem ReaderKind.ofCode_eq (b : Byte) :
    ReaderKind.ofCode b =
      if b.toNat ≠ 1 ∧ b.toNat ≠ 2 then none else some (if b.toNat = 1 then .kiosk else .gate) := by
  unfold ReaderKind.ofCode
  split <;> simp_all

theorem FloorKind.ofCode_eq_none_iff {b : Byte} : FloorKind.ofCode b = none ↔ 4 ≤ b.toNat := by
  rw [FloorKind.ofCode_eq]
  split <;> simp [*]

theorem FloorState.ofCode_eq_none_iff {b : Byte} : FloorState.ofCode b = none ↔ 2 ≤ b.toNat := by
  rw [FloorState.ofCode_eq]
  split <;> simp [*]

theorem BankMode.ofCode_eq_none_iff {b : Byte} : BankMode.ofCode b = none ↔ 5 ≤ b.toNat := by
  rw [BankMode.ofCode_eq]
  split <;> simp [*]

theorem ReaderKind.ofCode_eq_none_iff {b : Byte} : ReaderKind.ofCode b = none ↔ b.toNat ≠ 1 ∧ b.toNat ≠ 2 := by
  rw [ReaderKind.ofCode_eq]
  split <;> simp [*]

theorem bankSetOf_eq_none_iff {b : Byte} : bankSetOf b = none ↔ 16 ≤ b.toNat := by
  unfold bankSetOf
  split <;> simp_all

theorem bankSetOf_toNat {b : Byte} {set : BankSet} (h : bankSetOf b = some set) : set.toNat = b.toNat := by
  unfold bankSetOf at h
  split at h <;> cases h
  next lt => rw [BitVec.toNat_setWidth, Nat.mod_eq_of_lt lt]

theorem labelChar_eq_false_iff {b : Byte} : labelChar b = false ↔ b.toNat < 32 ∨ 126 < b.toNat := by
  rw [labelChar, decide_eq_false_iff_not]
  omega

/-! ### The intervals of a profile (R24) -/

/-- The bits of an interval word (R24, R178). -/
theorem checkInterval_eq (w : BitVec 32) :
    checkInterval w =
      if 1440 ≤ w.toNat % 2048 ∨ w.toNat / 2048 % 2048 = 0 ∨ 1440 < w.toNat / 2048 % 2048 ∨ 67108864 ≤ w.toNat then none
      else some { days := BitVec.ofNat 4 (w.toNat / 4194304), start := w.toNat % 2048, stop := w.toNat / 2048 % 2048 } := by
  have high : w.toNat / 67108864 ≠ 0 ↔ 67108864 ≤ w.toNat := by omega
  unfold checkInterval
  refine if_congr ?_ rfl rfl
  rw [high]

theorem checkInterval_eq_none_iff {w : BitVec 32} :
    checkInterval w = none ↔
      1440 ≤ w.toNat % 2048 ∨ w.toNat / 2048 % 2048 = 0 ∨ 1440 < w.toNat / 2048 % 2048 ∨ 67108864 ≤ w.toNat := by
  rw [checkInterval_eq]
  split <;> simp [*]

theorem checkIntervals_map {ws : List (BitVec 32)} {p : List Interval} (h : checkIntervals ws = some p) :
    ws.map checkInterval = p.map some := by
  induction ws generalizing p with
  | nil =>
    cases h
    rfl
  | cons w ws ih =>
    unfold checkIntervals at h
    split at h
    next i is hi his =>
      cases h
      rw [List.map_cons, hi, ih his, List.map_cons]
    · cases h

theorem checkIntervals_eq_none_iff {ws : List (BitVec 32)} :
    checkIntervals ws = none ↔ ∃ w ∈ ws, checkInterval w = none := by
  induction ws with
  | nil => simp [checkIntervals]
  | cons w ws ih =>
    rw [checkIntervals, List.exists_mem_cons_iff, ← ih]
    cases checkInterval w <;> cases checkIntervals ws <;> simp

/-! ### The checks of a floor, a reader and a bank (R27, R30, R32) -/

section
variable {c0 c1 c2 kind state banks : Byte}

theorem checkFloor_eq_none_iff :
    checkFloor c0 c1 c2 kind state banks = none ↔
      (∃ x ∈ [c0, c1, c2], x.toNat < 32 ∨ 126 < x.toNat) ∨ 4 ≤ kind.toNat ∨ 2 ≤ state.toNat ∨ 16 ≤ banks.toNat := by
  have chars : ¬ (labelChar c0 && labelChar c1 && labelChar c2) = true ↔
      ∃ x ∈ [c0, c1, c2], x.toNat < 32 ∨ 126 < x.toNat := by
    simp only [Bool.and_eq_true, not_and_or, Bool.not_eq_true, labelChar_eq_false_iff, List.mem_cons,
      List.not_mem_nil, or_false, exists_eq_or_imp, exists_eq_left, or_assoc]
  rw [← chars, ← FloorKind.ofCode_eq_none_iff, ← FloorState.ofCode_eq_none_iff, ← bankSetOf_eq_none_iff, checkFloor]
  split
  next labelled =>
    cases FloorKind.ofCode kind <;> cases FloorState.ofCode state <;> cases bankSetOf banks <;> simp [labelled]
  next unlabelled => exact ⟨fun _ => .inl unlabelled, fun _ => rfl⟩

theorem checkFloor_eq_some {r : FloorRec} (h : checkFloor c0 c1 c2 kind state banks = some r) :
    r.label = { c0 := c0, c1 := c1, c2 := c2 } ∧ FloorKind.ofCode kind = some r.kind ∧
      FloorState.ofCode state = some r.state ∧ bankSetOf banks = some r.banks := by
  unfold checkFloor at h
  split at h
  · split at h <;> cases h
    next hk hs hb => exact ⟨rfl, hk, hs, hb⟩
  · cases h

variable {enabled home hold : Byte}

theorem checkReader_eq_none_iff :
    checkReader enabled home banks kind hold = none ↔
      128 ≤ home.toNat ∨ 16 ≤ banks.toNat ∨ (kind.toNat ≠ 1 ∧ kind.toNat ≠ 2) := by
  rw [← floorOf_eq_none_iff, ← bankSetOf_eq_none_iff, ← ReaderKind.ofCode_eq_none_iff, checkReader]
  cases floorOf home.toNat <;> cases bankSetOf banks <;> cases ReaderKind.ofCode kind <;> simp

theorem checkReader_eq_some {r : ReaderRec} (h : checkReader enabled home banks kind hold = some r) :
    r.enabled = decide (enabled.toNat ≠ 0) ∧ floorOf home.toNat = some r.home ∧ bankSetOf banks = some r.banks ∧
      ReaderKind.ofCode kind = some r.kind ∧ r.holdTime = clampTo 2 30 hold.toNat := by
  unfold checkReader at h
  split at h <;> cases h
  next hh hb hk => exact ⟨rfl, hh, hb, hk, rfl⟩

end

theorem slotErased_used {bs : List Byte} (used : bs ≠ freeSlot) : slotErased bs = false := decide_eq_false used

section
variable {bs : List Byte} (len : bs.length = 28) (used : bs ≠ freeSlot)
include len used

theorem groupLoads_loadGroupSlot : groupLoads bs (loadGroupSlot bs) := by
  unfold loadGroupSlot groupLoads
  rw [slotErased_used used, byteAt_eq (by omega), byteAt_eq (by omega)]
  unfold checkGroup
  change (64 ≤ (bs.getD 16 0).toNat → _) ∧ ((bs.getD 16 0).toNat < 64 → _)
  by_cases h : (bs.getD 16 0).toNat < 64
  · rw [dif_pos h]
    exact ⟨fun no => by omega, fun _ => ⟨floorsHeld_leNat bs, rfl, rfl, rfl⟩⟩
  · rw [dif_neg h]
    exact ⟨fun _ => rfl, fun no => absurd no h⟩

theorem tenantLoads_loadTenantSlot : tenantLoads bs (loadTenantSlot bs) := by
  unfold loadTenantSlot tenantLoads
  rw [slotErased_used used, byteAt_eq (by omega)]
  have codes : TenantState.ofCode (bs.getD 16 0) =
      if numAt bs 16 = 0 then some .normal else if numAt bs 16 = 1 then some .locked else none := by
    unfold TenantState.ofCode numAt
    split
    next h => rw [if_pos h]
    next h => rw [if_neg (by omega), if_pos h]
    next h0 h1 => rw [if_neg h0, if_neg h1]
  have held := floorsHeld_leNat bs
  rw [checkTenant, codes]
  generalize numAt bs 16 = n at *
  by_cases h0 : n = 0
  · simp [h0, held]
  · by_cases h1 : n = 1
    · simp [h1, held]
    · have : ¬ n < 2 := by omega
      simp [h0, h1, this]

theorem floorLoads_loadFloorSlot : floorLoads bs (loadFloorSlot bs) := by
  have refused : (∃ x ∈ [bs.getD 0 0, bs.getD 1 0, bs.getD 2 0], x.toNat < 32 ∨ 126 < x.toNat) ↔
      ∃ i < 3, numAt bs i < 32 ∨ 126 < numAt bs i := by
    simp only [List.mem_cons, List.not_mem_nil, or_false, exists_eq_or_imp, exists_eq_left, numAt]
    constructor
    · rintro (h | h | h)
      · exact ⟨0, by decide, h⟩
      · exact ⟨1, by decide, h⟩
      · exact ⟨2, by decide, h⟩
    · rintro ⟨i, hi, h⟩
      match i, hi with
      | 0, _ => exact .inl h
      | 1, _ => exact .inr (.inl h)
      | 2, _ => exact .inr (.inr h)
  have none_iff := checkFloor_eq_none_iff (c0 := bs.getD 0 0) (c1 := bs.getD 1 0) (c2 := bs.getD 2 0)
    (kind := bs.getD 3 0) (state := bs.getD 4 0) (banks := bs.getD 5 0)
  rw [refused] at none_iff
  unfold loadFloorSlot floorLoads
  rw [slotErased_used used, byteAt_eq (by omega), byteAt_eq (by omega), byteAt_eq (by omega), byteAt_eq (by omega),
    byteAt_eq (by omega), byteAt_eq (by omega)]
  cases h : checkFloor (bs.getD 0 0) (bs.getD 1 0) (bs.getD 2 0) (bs.getD 3 0) (bs.getD 4 0) (bs.getD 5 0) with
  | none => exact ⟨fun _ => rfl, fun no => absurd (none_iff.1 h) no⟩
  | some r =>
    obtain ⟨label, kind, state, banks⟩ := checkFloor_eq_some h
    refine ⟨fun yes => absurd (h.symm.trans (none_iff.2 yes)) (by simp), fun _ => ⟨label, ?_, ?_, bankSetOf_toNat banks⟩⟩
    · rw [FloorKind.ofCode_eq] at kind
      split at kind
      · cases kind
      · exact (Option.some.inj kind).symm
    · rw [FloorState.ofCode_eq] at state
      split at state
      · cases state
      · exact (Option.some.inj state).symm

theorem readerLoads_loadReaderSlot : readerLoads bs (loadReaderSlot bs) := by
  have none_iff := checkReader_eq_none_iff (enabled := bs.getD 0 0) (home := bs.getD 1 0) (banks := bs.getD 2 0)
    (kind := bs.getD 3 0) (hold := bs.getD 4 0)
  unfold loadReaderSlot readerLoads
  rw [slotErased_used used, byteAt_eq (by omega), byteAt_eq (by omega), byteAt_eq (by omega), byteAt_eq (by omega),
    byteAt_eq (by omega)]
  cases h : checkReader (bs.getD 0 0) (bs.getD 1 0) (bs.getD 2 0) (bs.getD 3 0) (bs.getD 4 0) with
  | none => exact ⟨fun _ => rfl, fun no => absurd (none_iff.1 h) no⟩
  | some r =>
    obtain ⟨enabled, home, banks, kind, hold⟩ := checkReader_eq_some h
    refine ⟨fun yes => absurd (h.symm.trans (none_iff.2 yes)) (by simp), fun _ =>
      ⟨enabled ▸ decide_eq_true_iff, floorOf_eq_some_iff.1 home, bankSetOf_toNat banks, ?_, hold⟩⟩
    rw [ReaderKind.ofCode_eq] at kind
    split at kind
    · cases kind
    · exact (Option.some.inj kind).symm

theorem bankLoads_loadBankSlot : bankLoads bs (loadBankSlot bs) := by
  unfold loadBankSlot bankLoads
  rw [slotErased_used used, leNat_bytesAt_two (by omega), leNat_bytesAt_two (by omega)]
  simp only [numAt_eq (bs := bs) (i := 0) (by omega), numAt_eq (bs := bs) (i := 1) (by omega),
    numAt_eq (bs := bs) (i := 2) (by omega), numAt_eq (bs := bs) (i := 5) (by omega),
    numAt_eq (bs := bs) (i := 6) (by omega), numAt_eq (bs := bs) (i := 9) (by omega),
    numAt_eq (bs := bs) (i := 10) (by omega), numAt_eq (bs := bs) (i := 11) (by omega),
    byteAt_eq (bs := bs) (i := 12) (by omega), byteAt_eq (bs := bs) (i := 13) (by omega), BankMode.ofCode_eq,
    Bool.false_eq_true, if_false]
  by_cases mode : 5 ≤ (bs.getD 13 0).toNat
  · rw [if_pos mode]
    exact ⟨fun _ => rfl, fun no => absurd (.inr mode) no⟩
  · rw [if_neg mode]
    simp only [checkBank]
    cases h : floorOf (numAt bs 11) with
    | none => exact ⟨fun _ => rfl, fun no => absurd (.inl (floorOf_eq_none_iff.1 h)) no⟩
    | some f =>
      have floor := floorOf_eq_some_iff.1 h
      refine ⟨fun yes => absurd yes ?_, fun _ =>
        ⟨rfl, rfl, rfl, rfl, rfl, rfl, rfl, rfl, rfl, floor, rfl, rfl⟩⟩
      rintro (far | far)
      · exact absurd f.isLt (by omega)
      · exact mode far

theorem profileLoads_loadProfileSlot : profileLoads bs (loadProfileSlot bs) := by
  unfold profileLoads
  intro word start stop refused
  unfold loadProfileSlot
  rw [slotErased_used used, numAt_eq (by omega), if_neg (by simp)]
  by_cases many : 6 < numAt bs 0
  · rw [if_pos many]
    exact ⟨fun _ => rfl, fun no => absurd (.inl many) no⟩
  rw [if_neg many]
  have few : numAt bs 0 ≤ 6 := not_lt.1 many
  have words : ∀ i < numAt bs 0, leNat (bytesAt bs (1 + 4 * i) 4) = word i := fun i hi => by
    rw [leNat_bytesAt_four (by omega)]
    show _ = numAt bs (1 + 4 * i) + 256 * numAt bs (2 + 4 * i) + 65536 * numAt bs (3 + 4 * i) +
      16777216 * numAt bs (4 + 4 * i)
    rw [show 1 + 4 * i + 1 = 2 + 4 * i by omega, show 1 + 4 * i + 2 = 3 + 4 * i by omega,
      show 1 + 4 * i + 3 = 4 + 4 * i by omega]
  have number : ∀ i, (BitVec.ofNat 32 (word i)).toNat = word i := fun i => by
    have := numAt_lt bs (1 + 4 * i)
    have := numAt_lt bs (2 + 4 * i)
    have := numAt_lt bs (3 + 4 * i)
    have := numAt_lt bs (4 + 4 * i)
    have value : word i = numAt bs (1 + 4 * i) + 256 * numAt bs (2 + 4 * i) + 65536 * numAt bs (3 + 4 * i) +
      16777216 * numAt bs (4 + 4 * i) := rfl
    rw [BitVec.toNat_ofNat]
    exact Nat.mod_eq_of_lt (by omega)
  have list : profileWords bs (numAt bs 0) = (List.range (numAt bs 0)).map fun i => BitVec.ofNat 32 (word i) :=
    List.map_congr_left fun i hi => by rw [words i (List.mem_range.1 hi)]
  have listLength : (profileWords bs (numAt bs 0)).length = numAt bs 0 := by simp [profileWords]
  have bad : (∃ w ∈ profileWords bs (numAt bs 0), checkInterval w = none) ↔
      ∃ i < numAt bs 0, 1440 ≤ start i ∨ stop i = 0 ∨ 1440 < stop i ∨ 67108864 ≤ word i := by
    rw [list]
    simp only [List.mem_map, List.mem_range, exists_exists_and_eq_and, checkInterval_eq_none_iff, number]
    exact Iff.rfl
  rw [checkProfile, if_neg (by omega)]
  cases h : checkIntervals (profileWords bs (numAt bs 0)) with
  | none => exact ⟨fun _ => rfl, fun no => absurd (.inr (bad.1 (checkIntervals_eq_none_iff.1 h))) no⟩
  | some p =>
    have each := checkIntervals_map h
    constructor
    · rintro (far | far)
      · exact absurd far many
      · rw [checkIntervals_eq_none_iff.2 (bad.2 far)] at h
        cases h
    · intro good
      have length := congrArg List.length each
      rw [List.length_map, List.length_map, listLength] at length
      refine ⟨length.symm, fun i hi => ?_⟩
      have at_i := congrArg (fun l => l[i]?) each
      simp only [list, List.getElem?_map, List.getElem?_range hi, Option.map_some] at at_i
      obtain ⟨x, hx, e⟩ := Option.map_eq_some_iff.1 at_i.symm
      rw [checkInterval_eq, number] at e
      split at e
      · cases e
      next ok =>
        cases Option.some.inj e
        refine ⟨_, hx, rfl, rfl, ?_⟩
        show (BitVec.ofNat 4 (word i / 4194304)).toNat = _
        rw [BitVec.toNat_ofNat]
        exact Nat.mod_eq_of_lt (by omega)

theorem loadSiteSlot_used : loadSiteSlot bs = max 60 (min 1800 (numAt bs 0 + 256 * numAt bs 1)) := by
  rw [loadSiteSlot, slotErased_used used, leNat_bytesAt_two (by omega)]
  rfl

end

/-! ### The scan's judgement and its stamp (R18) -/

theorem foldl_max_spec (l : List Nat) (a : Nat) :
    (a ≤ l.foldl max a ∧ ∀ x ∈ l, x ≤ l.foldl max a) ∧ (l.foldl max a = a ∨ l.foldl max a ∈ l) := by
  induction l generalizing a with
  | nil => simp
  | cons b l ih =>
    obtain ⟨⟨first, each⟩, source⟩ := ih (max a b)
    rw [List.foldl_cons]
    refine ⟨⟨by omega, fun x hx => ?_⟩, ?_⟩
    · rcases List.mem_cons.1 hx with rfl | hx
      · omega
      · exact each x hx
    · rcases source with e | member
      · rcases Nat.le_total a b with le | le
        · exact .inr (by rw [e, Nat.max_eq_right le]; exact List.mem_cons_self)
        · exact .inl (by rw [e, Nat.max_eq_left le])
      · exact .inr (List.mem_cons_of_mem _ member)

theorem pageStamp_bounds {m : List Host.Cell} {p n : Nat} (h : pageStamp m p = some n) : 1 ≤ n ∧ n ≤ 4294967294 := by
  unfold pageStamp at h
  simp only at h
  split at h <;> cases h
  next ok => exact ⟨ok.2.1, ok.2.2⟩

/-- The stamps on GOOD programmed pages. -/
def goodStamps (m : List Host.Cell) : List Nat :=
  ((List.range Config.pages).filter fun p => !(scanBad m).contains p).filterMap fun p => pageStamp m p

theorem scanStamp_eq (m : List Host.Cell) : scanStamp m (scanBad m) = min 4294967294 ((goodStamps m).foldl max 0 + 1) := rfl

theorem mem_goodStamps {m : List Host.Cell} {n : Nat} :
    n ∈ goodStamps m ↔ ∃ p < 2112, pageGood m p ∧ pageStamp m p = some n := by
  unfold goodStamps
  rw [List.mem_filterMap]
  refine exists_congr fun p => ?_
  rw [List.mem_filter, List.mem_range, and_assoc]
  refine and_congr_right fun range => ?_
  rw [Bool.not_eq_true', scanBad_contains range]

theorem scanStore_stamp (m : List Host.Cell) : (scanStore m).stamp = some (scanStamp m (scanBad m)) := by rw [scanStore]

theorem scanStore_bad (m : List Host.Cell) (p : Nat) : (scanStore m).bad p = (scanBad m).contains p := by
  rw [scanStore]
  rfl

/-! ### The items of the scan (R20) -/

theorem State.scan_policy (s : State) : s.scan.policy = scanPolicy s.store.cells (scanBad s.store.cells) := rfl

theorem slotRead_length (m : List Host.Cell) (p k : Nat) : (slotRead m p k).length = 28 := by
  simp [slotRead, pageRead]

theorem policySlotRead_free {m : List Host.Cell} {p k : Nat} (hp : p < 2112)
    (h : ¬ pageGood m p ∨ slotRead m p k = freeSlot) : policySlotRead m (scanBad m) p k = freeSlot := by
  unfold policySlotRead
  split
  · rfl
  next good => exact h.resolve_left (not_not.2 ((scanBad_contains hp).1 (by simpa using good)))

theorem policySlotRead_used {m : List Host.Cell} {p k : Nat} (hp : p < 2112) (good : pageGood m p) :
    policySlotRead m (scanBad m) p k = slotRead m p k := by
  unfold policySlotRead
  rw [(scanBad_contains hp).2 good]
  rfl

section
variable (m : List Host.Cell) (bad : List Nat)

theorem scanPolicy_group (n : Fin 256) :
    (scanPolicy m bad).groups.get n = loadGroupSlot (policySlotRead m bad (2048 + n.val / 16) (n.val % 16)) := by
  rw [scanPolicy, Vector.get_eq_getElem, Vector.getElem_ofFn]

theorem scanPolicy_profile (n : Fin 64) :
    (scanPolicy m bad).profiles.get n =
      if n.val = 0 then [] else loadProfileSlot (policySlotRead m bad (2064 + n.val / 16) (n.val % 16)) := by
  rw [scanPolicy, Vector.get_eq_getElem, Vector.getElem_ofFn]

theorem scanPolicy_tenant (n : Fin 128) :
    (scanPolicy m bad).tenants.get n = loadTenantSlot (policySlotRead m bad (2068 + n.val / 16) (n.val % 16)) := by
  rw [scanPolicy, Vector.get_eq_getElem, Vector.getElem_ofFn]

theorem scanPolicy_floor (f : Floor) :
    (scanPolicy m bad).floors.get f = loadFloorSlot (policySlotRead m bad (2076 + f.val / 16) (f.val % 16)) := by
  rw [scanPolicy, Vector.get_eq_getElem, Vector.getElem_ofFn]

theorem scanPolicy_bank (b : Bank) :
    (scanPolicy m bad).banks.get b = loadBankSlot (policySlotRead m bad 2084 b.val) := by
  rw [scanPolicy, Vector.get_eq_getElem, Vector.getElem_ofFn]

theorem scanPolicy_reader (r : PortNo) :
    (scanPolicy m bad).readers.get r = loadReaderSlot (policySlotRead m bad 2085 r.val) := by
  rw [scanPolicy, Vector.get_eq_getElem, Vector.getElem_ofFn]

theorem scanPolicy_ticketLife :
    (scanPolicy m bad).ticketLife = loadSiteSlot (policySlotRead m bad 2084 4) := by
  rw [scanPolicy]

end

theorem slotErased_freeSlot : slotErased freeSlot = true := decide_eq_true rfl

/-- Settles O4: the pages by `mem_scanBad`, the stamp by `mem_goodStamps`, each item by what its slot loads. -/
theorem scanJudgesPagesAndLoadsItems : Obligations.ScanJudgesPagesAndLoadsItems := by
  refine ⟨fun s held => ?_, fun s held => ?_, fun s held => ?_⟩
  · have run := exec_resetPinRelease held
    refine ⟨_, run, rfl, rfl, exec_changesOnly run, ?_⟩
    rw [State.scan_store, State.setPart_store, scanStore_stamp]
    generalize s.store.cells = m
    obtain ⟨⟨-, above⟩, source⟩ := foldl_max_spec (goodStamps m) 0
    refine ⟨fun p hp => by rw [scanStore_bad, scanBad_contains hp], _, rfl, fun p hp n good stamp => ?_, ?_, scanBad m,
      by rw [scanStore], List.pairwise_lt_range.filter _, fun p => mem_scanBad⟩
    · have := above n (mem_goodStamps.2 ⟨p, hp, good, stamp⟩)
      have := pageStamp_bounds stamp
      rw [scanStamp_eq]
      omega
    · rw [scanStamp_eq]
      rcases source with e | member
      · exact .inl (by rw [e]; rfl)
      · obtain ⟨p, hp, good, stamp⟩ := mem_goodStamps.1 member
        exact .inr ⟨p, hp, _, good, stamp, rfl⟩
  · refine ⟨_, exec_resetPinRelease held, ?_⟩
    simp only [State.floor, State.bank, State.reader, State.scan_policy, State.setPart_store]
    generalize s.store.cells = m
    have free := fun p k hp h => policySlotRead_free (m := m) (p := p) (k := k) hp h
    refine ⟨fun n h => ?_, fun n h => ?_, fun n h => ?_, fun f h => ?_, fun b h => ?_, fun r h => ?_, fun h => ?_⟩
    · rw [scanPolicy_group, free _ _ (by omega) h, loadGroupSlot, slotErased_freeSlot, if_pos rfl]
    · rw [scanPolicy_profile, free _ _ (by omega) h, loadProfileSlot, slotErased_freeSlot, if_pos rfl, ite_self]
    · rw [scanPolicy_tenant, free _ _ (by omega) h, loadTenantSlot, slotErased_freeSlot, if_pos rfl]
    · rw [scanPolicy_floor, free _ _ (by omega) h, loadFloorSlot, slotErased_freeSlot, if_pos rfl]
    · rw [scanPolicy_bank, free _ _ (by omega) h, loadBankSlot, slotErased_freeSlot, if_pos rfl]
    · rw [scanPolicy_reader, free _ _ (by omega) h, loadReaderSlot, slotErased_freeSlot, if_pos rfl]
    · rw [scanPolicy_ticketLife, free _ _ (by omega) h, loadSiteSlot, slotErased_freeSlot, if_pos rfl]
  · intro holds
    refine ⟨_, exec_resetPinRelease held, ?_⟩
    have read : ∀ {p k bs}, p < 2112 → holds p k bs →
        policySlotRead s.store.cells (scanBad s.store.cells) p k = bs ∧ bs.length = 28 ∧ bs ≠ freeSlot :=
      fun {p k bs} hp ⟨good, e, used⟩ => ⟨(policySlotRead_used hp good).trans e.symm, e ▸ slotRead_length _ _ _, used⟩
    simp only [State.floor, State.bank, State.reader, State.scan_policy, State.setPart_store]
    refine ⟨fun n bs h => ?_, fun n bs ne h => ?_, fun n bs h => ?_, fun f bs h => ?_, fun b bs h => ?_, fun r bs h => ?_,
      fun bs h => ?_⟩
    · obtain ⟨e, len, used⟩ := read (by omega) h
      rw [scanPolicy_group, e]
      exact groupLoads_loadGroupSlot len used
    · obtain ⟨e, len, used⟩ := read (by omega) h
      rw [scanPolicy_profile, e, if_neg fun (zero : n.val = 0) => ne (Fin.ext zero)]
      exact profileLoads_loadProfileSlot len used
    · obtain ⟨e, len, used⟩ := read (by omega) h
      rw [scanPolicy_tenant, e]
      exact tenantLoads_loadTenantSlot len used
    · obtain ⟨e, len, used⟩ := read (by omega) h
      rw [scanPolicy_floor, e]
      exact floorLoads_loadFloorSlot len used
    · obtain ⟨e, len, used⟩ := read (by omega) h
      rw [scanPolicy_bank, e]
      exact bankLoads_loadBankSlot len used
    · obtain ⟨e, len, used⟩ := read (by omega) h
      rw [scanPolicy_reader, e]
      exact readerLoads_loadReaderSlot len used
    · obtain ⟨e, len, used⟩ := read (by omega) h
      rw [scanPolicy_ticketLife, e]
      exact loadSiteSlot_used len used

end Sys2Proof.Machine
end

section
/-! PROOF of O11 and O12 (R23 to R34, R150, R160): the load requests, refused or begun. -/

namespace Sys2Proof.Machine

/-! ### What a request command answers by its judgement (R164) -/

theorem exec_refuse {s : State} (take : s.canTake) {c : Instr} {tag : Byte} (r : Request) {st : ReplyStatus}
    (carried : requestOf c = some (tag, r)) (judged : s.hostHunt.judge r = .refuse st) :
    exec c s = .next (s.replied r.type tag st .empty) :=
  (exec_of_requestOf carried s).trans (congrArg _ (State.hostFrame_refuse take judged))

theorem exec_done {s s' : State} (take : s.canTake) {c : Instr} {tag : Byte} (r : Request) {body : ReplyBody}
    (carried : requestOf c = some (tag, r)) (judged : s.hostHunt.judge r = .done s'.hostHunt body) :
    exec c s = .next (s'.replied r.type tag .done body) :=
  (exec_of_requestOf carried s).trans (congrArg _ (State.hostFrame_done take judged))

theorem exec_write {s : State} (take : s.canTake) {n : Nat} (stamp : s.store.stamp = some n) {c : Instr} {tag : Byte}
    (r : Request) {p : Nat} {slots : List (List Byte)} {j : Job} (carried : requestOf c = some (tag, r))
    (judged : s.hostHunt.judge r = .write p slots j) : exec c s = .next (s.writing r.type tag p n slots j) :=
  (exec_of_requestOf carried s).trans (congrArg _ (State.hostFrame_write take stamp judged))

/-- R11: a policy request that passes its check begins its item's program. -/
theorem exec_item {s : State} (take : s.canTake) {n : Nat} (stamp : s.store.stamp = some n) {c : Instr} {tag : Byte}
    (r : Request) {j : Job} (carried : requestOf c = some (tag, r)) (judged : s.hostHunt.judge r = s.policyProgram j) :
    exec c s = .next (s.writingItem r.type tag n j) := exec_write take stamp r carried judged

/-! ### Indexes and codes of a request (R178) -/

theorem bankOf_eq_none_iff {n : Nat} : bankOf n = none ↔ 4 ≤ n := by
  unfold bankOf
  split <;> simp_all

theorem bankOf_val (b : Bank) : bankOf b.val = some b := dif_pos b.isLt

theorem carOf_eq_none_iff {n : Nat} : carOf n = none ↔ 8 ≤ n := by
  unfold carOf
  split <;> simp_all

theorem carOf_val (c : CarNo) : carOf c.val = some c := dif_pos c.isLt

theorem floorOf_val (f : Floor) : floorOf f.val = some f := dif_pos f.isLt

theorem bankSetOf_of_toNat {b : Byte} {set : BankSet} (h : b.toNat = set.toNat) : bankSetOf b = some set := by
  have lt : b.toNat < 16 := h ▸ set.isLt
  rw [bankSetOf, if_pos lt]
  refine congrArg some (BitVec.eq_of_toNat_eq ?_)
  rw [BitVec.toNat_setWidth, Nat.mod_eq_of_lt lt, h]

theorem FloorKind.ofCode_code (k : FloorKind) : FloorKind.ofCode k.code = some k := by cases k <;> rfl

theorem FloorState.ofCode_code (st : FloorState) : FloorState.ofCode st.code = some st := by cases st <;> rfl

theorem TenantState.ofCode_code (st : TenantState) : TenantState.ofCode st.code = some st := by cases st <;> rfl

theorem TenantState.ofCode_eq_none_iff {b : Byte} : TenantState.ofCode b = none ↔ 2 ≤ b.toNat := by
  unfold TenantState.ofCode
  split <;> simp_all
  omega

theorem byte_ne_iff {b c : Byte} : b ≠ c ↔ b.toNat ≠ c.toNat := not_congr BitVec.toNat_inj.symm

/-! ### Tables (R23, R24, R26, R32, R34) -/

section
variable {s : State} {n : Nat} (take : s.canTake) (stamp : s.store.stamp = some n) (tag : Byte)
include take stamp

theorem exec_loadGroup (group : BitVec 16) (floors : FloorSet) (profile flags : Byte) :
    ((256 ≤ group.toNat ∨ 64 ≤ profile.toNat) →
      exec (.loadGroup tag group floors profile flags) s = .next (s.replied 7 tag .badValue .empty)) ∧
    ∀ (g : Fin 256) (p : Fin 64), group.toNat = g.val → profile.toNat = p.val →
      exec (.loadGroup tag group floors profile flags) s =
        .next (s.writingItem 7 tag n
          (.group g { floors := floors, profile := p, enabled := flags.getLsbD 0, override := flags.getLsbD 1 })) := by
  constructor
  · intro bad
    refine exec_refuse take (.loadGroup group floors profile flags) rfl ?_
    show s.hostHunt.policyOr _ = _
    by_cases range : group.toNat < 256
    · rw [dif_pos range, checkGroup, dif_neg (by omega)]
      rfl
    · rw [dif_neg range]
      rfl
  · intro g p hg hp
    refine exec_item take stamp (.loadGroup group floors profile flags) rfl ?_
    show s.hostHunt.policyOr _ = _
    unfold checkGroup
    generalize group.toNat = x at hg
    generalize profile.toNat = y at hp
    subst hg hp
    rw [dif_pos g.isLt, dif_pos p.isLt]
    rfl

theorem exec_loadTenant (tenant : Byte) (floors : FloorSet) (state : Byte) :
    ((128 ≤ tenant.toNat ∨ 2 ≤ state.toNat) →
      exec (.loadTenant tag tenant floors state) s = .next (s.replied 9 tag .badValue .empty)) ∧
    ∀ (t : Fin 128) (st : TenantState), tenant.toNat = t.val → state = st.code →
      exec (.loadTenant tag tenant floors state) s =
        .next (s.writingItem 9 tag n (.tenant t { floors := floors, state := st })) := by
  constructor
  · intro bad
    refine exec_refuse take (.loadTenant tenant floors state) rfl ?_
    show s.hostHunt.policyOr _ = _
    by_cases range : tenant.toNat < 128
    · rw [dif_pos range, checkTenant, TenantState.ofCode_eq_none_iff.2 (by omega)]
      rfl
    · rw [dif_neg range]
      rfl
  · rintro t st ht rfl
    refine exec_item take stamp (.loadTenant tenant floors st.code) rfl ?_
    show s.hostHunt.policyOr _ = _
    rw [checkTenant, TenantState.ofCode_code]
    generalize tenant.toNat = x at ht
    subst ht
    rw [dif_pos t.isLt]
    rfl

theorem exec_loadReader (reader enabled home banks kind hold : Byte) :
    ((16 ≤ reader.toNat ∨ 128 ≤ home.toNat ∨ 16 ≤ banks.toNat ∨ (kind ≠ 1 ∧ kind ≠ 2)) →
      exec (.loadReader tag reader enabled home banks kind hold) s = .next (s.replied 6 tag .badValue .empty)) ∧
    ∀ (p : PortNo) (h : Floor) (bs : BankSet) (k : ReaderKind), reader.toNat = p.val → home.toNat = h.val →
      banks.toNat = bs.toNat → kind = k.code →
      exec (.loadReader tag reader enabled home banks kind hold) s =
        .next (s.writingItem 6 tag n
          (.reader p { enabled := enabled != 0, home := h, banks := bs, kind := k,
                       holdTime := max 2 (min 30 hold.toNat) })) := by
  constructor
  · intro bad
    refine exec_refuse take (.loadReader reader enabled home banks kind hold) rfl ?_
    show s.hostHunt.policyOr _ = _
    rw [byte_ne_iff, byte_ne_iff] at bad
    by_cases range : reader.toNat < 16
    · rw [dif_pos range, checkReader_eq_none_iff.2 (bad.resolve_left (by omega))]
      rfl
    · rw [dif_neg range]
      rfl
  · rintro p h bs k hp hh hb rfl
    refine exec_item take stamp (.loadReader reader enabled home banks k.code hold) rfl ?_
    show s.hostHunt.policyOr _ = _
    have used : (enabled != 0) = decide (enabled.toNat ≠ 0) := Bool.eq_iff_iff.2 (by simp [byte_toNat_eq_zero_iff])
    rw [checkReader, hh, floorOf_val, bankSetOf_of_toNat hb, ReaderKind.ofCode_code, used]
    generalize reader.toNat = x at hp
    subst hp
    rw [dif_pos p.isLt]
    rfl

/-- An interval word of LOAD-PROFILE (R24, R178). -/
def wordInterval (x : BitVec 32) : Interval :=
  { days := x.extractLsb' 22 4, start := (x.extractLsb' 0 11).toNat, stop := (x.extractLsb' 11 11).toNat }

omit take stamp in
theorem checkInterval_word_eq (x : BitVec 32) :
    checkInterval x =
      if 1440 ≤ (x.extractLsb' 0 11).toNat ∨ (x.extractLsb' 11 11).toNat = 0 ∨ 1440 < (x.extractLsb' 11 11).toNat ∨
          x.extractLsb' 26 6 ≠ 0 then none
      else some (wordInterval x) := by
  have lt := x.isLt
  have start : (x.extractLsb' 0 11).toNat = x.toNat % 2048 := by simp [BitVec.extractLsb'_toNat]
  have stop : (x.extractLsb' 11 11).toNat = x.toNat / 2048 % 2048 := by
    simp [BitVec.extractLsb'_toNat, Nat.shiftRight_eq_div_pow]
  have high : x.extractLsb' 26 6 ≠ 0 ↔ 67108864 ≤ x.toNat := by
    rw [ne_eq, ← BitVec.toNat_inj, BitVec.extractLsb'_toNat, Nat.shiftRight_eq_div_pow]
    change ¬ x.toNat / 67108864 % 64 = 0 ↔ _
    omega
  have days : x.extractLsb' 22 4 = BitVec.ofNat 4 (x.toNat / 4194304) := by
    refine BitVec.eq_of_toNat_eq ?_
    rw [BitVec.extractLsb'_toNat, Nat.shiftRight_eq_div_pow, BitVec.toNat_ofNat]
  rw [checkInterval_eq, wordInterval, start, stop, days]
  exact if_congr (by rw [high]) rfl rfl

theorem exec_loadProfile (profile : Byte) (w : List (BitVec 32)) :
    ((profile = 0 ∨ 64 ≤ profile.toNat ∨ 6 < w.length ∨
        ∃ x ∈ w, 1440 ≤ (x.extractLsb' 0 11).toNat ∨ (x.extractLsb' 11 11).toNat = 0 ∨
          1440 < (x.extractLsb' 11 11).toNat ∨ x.extractLsb' 26 6 ≠ 0) →
      exec (.loadProfile tag profile w) s = .next (s.replied 8 tag .badValue .empty)) ∧
    ((profile ≠ 0 ∧ w.length ≤ 6 ∧
        ∀ x ∈ w, (x.extractLsb' 0 11).toNat < 1440 ∧ 0 < (x.extractLsb' 11 11).toNat ∧
          (x.extractLsb' 11 11).toNat ≤ 1440 ∧ x.extractLsb' 26 6 = 0) →
      ∀ p : Fin 64, profile.toNat = p.val →
        exec (.loadProfile tag profile w) s = .next (s.writingItem 8 tag n (.profile p (w.map wordInterval)))) := by
  rw [ne_eq profile, ← byte_toNat_eq_zero_iff]
  constructor
  · intro bad
    refine exec_refuse take (.loadProfile profile w) rfl ?_
    show s.hostHunt.policyOr _ = _
    by_cases range : profile.toNat < 64
    · by_cases zero : profile.toNat = 0
      · rw [dif_pos range, if_pos zero]
        rfl
      · have none : checkProfile w = none := by
          unfold checkProfile
          split
          · rfl
          next few =>
            obtain ⟨x, hx, h⟩ := (((bad.resolve_left zero).resolve_left (by omega)).resolve_left few)
            exact checkIntervals_eq_none_iff.2 ⟨x, hx, by rw [checkInterval_word_eq, if_pos h]⟩
        rw [dif_pos range, if_neg zero, none]
        rfl
    · rw [dif_neg range]
      rfl
  · rintro ⟨zero, few, good⟩ p hp
    refine exec_item take stamp (.loadProfile profile w) rfl ?_
    show s.hostHunt.policyOr _ = _
    have each : ∀ x ∈ w, checkInterval x = some (wordInterval x) := fun x hx => by
      obtain ⟨start, stop0, stop, high⟩ := good x hx
      rw [checkInterval_word_eq, if_neg]
      rintro (h | h | h | h)
      · omega
      · omega
      · omega
      · exact h high
    have taken : checkProfile w = some (w.map wordInterval) := by
      rw [checkProfile, if_neg (by omega)]
      cases h : checkIntervals w with
      | none =>
        obtain ⟨x, hx, no⟩ := checkIntervals_eq_none_iff.1 h
        cases (each x hx).symm.trans no
      | some q =>
        have map := checkIntervals_map h
        rw [List.map_congr_left each, ← Function.comp_def some wordInterval, ← List.map_map] at map
        rw [List.map_injective_iff.2 (Option.some_injective _) map]
    rw [taken]
    generalize profile.toNat = x at hp zero
    subst hp
    rw [dif_pos p.isLt, if_neg zero]
    rfl

theorem exec_loadSite (life : BitVec 16) :
    exec (.loadSite tag life) s = .next (s.writingItem 3 tag n (.site (max 60 (min 1800 life.toNat)))) :=
  exec_item take stamp (.loadSite life) rfl rfl

end

/-- Settles O11: each load request by its check. -/
theorem tableLoadsBeginTheirPrograms : Obligations.TableLoadsBeginTheirPrograms :=
  ⟨fun _ tag group floors profile flags _ take stamp => exec_loadGroup take stamp tag group floors profile flags,
    fun _ tag profile w _ take stamp => exec_loadProfile take stamp tag profile w,
    fun _ tag tenant floors state life _ take stamp =>
      ⟨(exec_loadTenant take stamp tag tenant floors state).1, (exec_loadTenant take stamp tag tenant floors state).2,
        exec_loadSite take stamp tag life⟩,
    fun _ tag reader enabled home banks kind hold _ take stamp =>
      exec_loadReader take stamp tag reader enabled home banks kind hold⟩

/-! ### Guarded requests (R27, R29, R30, R150, R160) -/

theorem State.isOut_iff {s : State} {b : Bank} : s.isOut b = true ↔ s.mode b = some .out := decide_eq_true_iff

theorem State.banksOut_iff {s : State} {old new : BankSet} :
    s.banksOut old new = true ↔ ∀ b, old.has b ≠ new.has b → s.mode b = some .out := by
  unfold State.banksOut
  rw [List.all_eq_true]
  refine ⟨fun h b ne => ?_, fun h b _ => ?_⟩
  · have := h b (List.mem_finRange b)
    rw [Bool.or_eq_true, decide_eq_true_eq, State.isOut_iff] at this
    exact this.resolve_left ne
  · rw [Bool.or_eq_true, decide_eq_true_eq, State.isOut_iff]
    exact or_iff_not_imp_left.2 (h b)

theorem carActionOf_eq_none_iff {b : Byte} : carActionOf b = none ↔ b ≠ 1 ∧ b ≠ 2 := by
  rw [byte_ne_iff, byte_ne_iff]
  unfold carActionOf
  split <;> simp_all

section
variable {s : State} {n : Nat} (take : s.canTake) (stamp : s.store.stamp = some n) (tag : Byte)
include take stamp

theorem exec_loadFloor (floor c0 c1 c2 kind state banks : Byte) :
    ((128 ≤ floor.toNat ∨ (∃ x ∈ [c0, c1, c2], x.toNat < 32 ∨ 126 < x.toNat) ∨ 4 ≤ kind.toNat ∨ 2 ≤ state.toNat ∨
         16 ≤ banks.toNat) →
       exec (.loadFloor tag floor c0 c1 c2 kind state banks) s = .next (s.replied 4 tag .badValue .empty)) ∧
     ∀ (f : Floor) (k : FloorKind) (st : FloorState) (bs : BankSet), floor.toNat = f.val → kind = k.code →
       state = st.code → banks.toNat = bs.toNat → (∀ x ∈ [c0, c1, c2], 32 ≤ x.toNat ∧ x.toNat ≤ 126) →
       ((∃ b, (s.floor f).banks.has b ≠ bs.has b ∧ s.mode b ≠ some .out) →
         exec (.loadFloor tag floor c0 c1 c2 kind state banks) s = .next (s.replied 4 tag .bankActive .empty)) ∧
       ((∀ b, (s.floor f).banks.has b ≠ bs.has b → s.mode b = some .out) →
         exec (.loadFloor tag floor c0 c1 c2 kind state banks) s =
           .next (s.writingItem 4 tag n
             (.floor f { label := { c0 := c0, c1 := c1, c2 := c2 }, kind := k, state := st, banks := bs }))) := by
  constructor
  · intro bad
    refine exec_refuse take (.loadFloor floor c0 c1 c2 kind state banks) rfl ?_
    show s.hostHunt.judgeLoadFloor floor c0 c1 c2 kind state banks = _
    unfold State.judgeLoadFloor
    rcases bad with far | bad
    · rw [floorOf_eq_none_iff.2 far]
    · rw [checkFloor_eq_none_iff.2 bad]
      split
      · next h => cases h
      · rfl
  · rintro f k st bs hf rfl rfl hb chars
    have label : ∀ x ∈ [c0, c1, c2], labelChar x = true := fun x hx => decide_eq_true (chars x hx)
    have taken : checkFloor c0 c1 c2 k.code st.code banks =
        some { label := { c0 := c0, c1 := c1, c2 := c2 }, kind := k, state := st, banks := bs } := by
      rw [checkFloor, label c0 (by simp), label c1 (by simp), label c2 (by simp), FloorKind.ofCode_code,
        FloorState.ofCode_code, bankSetOf_of_toNat hb]
      rfl
    constructor
    · rintro ⟨b, ne, busy⟩
      refine exec_refuse take (.loadFloor floor c0 c1 c2 k.code st.code banks) rfl ?_
      show s.hostHunt.judgeLoadFloor floor c0 c1 c2 k.code st.code banks = _
      rw [State.judgeLoadFloor, hf, floorOf_val, taken]
      exact if_neg fun out => busy (State.banksOut_iff.1 out b ne)
    · intro out
      refine exec_item take stamp (.loadFloor floor c0 c1 c2 k.code st.code banks) rfl ?_
      show s.hostHunt.judgeLoadFloor floor c0 c1 c2 k.code st.code banks = _
      rw [State.judgeLoadFloor, hf, floorOf_val, taken]
      exact if_pos (State.banksOut_iff.2 out)

theorem exec_loadBank (bank cc cap ft : Byte) (st : BitVec 16) (lb cp : Byte) (mw : BitVec 16) (ct ful rf : Byte) :
    ((4 ≤ bank.toNat ∨ 128 ≤ rf.toNat) →
       exec (.loadBank tag bank cc cap ft st lb cp mw ct ful rf) s = .next (s.replied 5 tag .badValue .empty)) ∧
     ∀ (b : Bank) (f : Floor), bank.toNat = b.val → rf.toNat = f.val →
       (s.mode b ≠ some .out →
         exec (.loadBank tag bank cc cap ft st lb cp mw ct ful rf) s = .next (s.replied 5 tag .bankActive .empty)) ∧
       (s.mode b = some .out →
         exec (.loadBank tag bank cc cap ft st lb cp mw ct ful rf) s =
           .next (s.writingItem 5 tag n
             (.bank b
               { carCount := max 1 (min 8 cc.toNat), capacity := max 1 (min 32 cap.toNat),
                 floorTime := max 5 (min 100 ft.toNat), stopTime := max 20 (min 300 st.toNat),
                 loadBias := min 50 lb.toNat, tripCap := max 2 (min 8 cp.toNat),
                 maxWait := max 60 (min 900 mw.toNat), contactTime := max 1 (min 10 ct.toNat),
                 fullThreshold := max 50 (min 100 ful.toNat), recallFloor := f,
                 withdrawn := (s.bank b).withdrawn, storedMode := (s.bank b).storedMode }))) := by
  constructor
  · intro bad
    refine exec_refuse take (.loadBank bank cc cap ft st lb cp mw ct ful rf) rfl ?_
    show s.hostHunt.judgeLoadBank bank cc cap ft st lb cp mw ct ful rf = _
    unfold State.judgeLoadBank
    split
    · rfl
    next b hb =>
      have far : 128 ≤ rf.toNat := bad.resolve_left fun h => by
        rw [bankOf_eq_none_iff.2 h] at hb
        cases hb
      rw [checkBank, floorOf_eq_none_iff.2 far]
      rfl
  · intro b f hb hf
    constructor
    · intro busy
      refine exec_refuse take (.loadBank bank cc cap ft st lb cp mw ct ful rf) rfl ?_
      show s.hostHunt.judgeLoadBank bank cc cap ft st lb cp mw ct ful rf = _
      simp only [State.judgeLoadBank, hb, bankOf_val, hf, checkBank, floorOf_val, Option.map_some]
      exact if_neg fun out => busy (State.isOut_iff.1 out)
    · intro out
      have bias : clampTo 0 50 lb.toNat = min 50 lb.toNat := Nat.zero_max _
      refine exec_item take stamp (.loadBank bank cc cap ft st lb cp mw ct ful rf) rfl ?_
      show s.hostHunt.judgeLoadBank bank cc cap ft st lb cp mw ct ful rf = _
      simp only [State.judgeLoadBank, hb, bankOf_val, hf, checkBank, floorOf_val, Option.map_some, bias]
      exact if_pos (State.isOut_iff.2 out)

theorem exec_setFloorState (floor state : Byte) :
    ((128 ≤ floor.toNat ∨ 2 ≤ state.toNat) →
      exec (.setFloorState tag floor state) s = .next (s.replied 16 tag .badValue .empty)) ∧
    ∀ (f : Floor) (st : FloorState), floor.toNat = f.val → state = st.code →
      exec (.setFloorState tag floor state) s =
        .next (s.writingItem 16 tag n (.floor f { s.floor f with state := st })) := by
  constructor
  · intro bad
    refine exec_refuse take (.setFloorState floor state) rfl ?_
    show s.hostHunt.judgeSetFloorState floor state = _
    unfold State.judgeSetFloorState
    rcases bad with far | far
    · rw [floorOf_eq_none_iff.2 far]
    · rw [FloorState.ofCode_eq_none_iff.2 far]
      split
      · next h => cases h
      · rfl
  · rintro f st hf rfl
    refine exec_item take stamp (.setFloorState floor st.code) rfl ?_
    show s.hostHunt.judgeSetFloorState floor st.code = _
    rw [State.judgeSetFloorState, hf, floorOf_val, FloorState.ofCode_code]
    rfl

theorem exec_setCarService (bank car action : Byte) :
    ((4 ≤ bank.toNat ∨ 8 ≤ car.toNat ∨ (action ≠ 1 ∧ action ≠ 2)) →
      exec (.setCarService tag bank car action) s = .next (s.replied 15 tag .badValue .empty)) ∧
    ∀ (b : Bank) (c : CarNo), bank.toNat = b.val → car.toNat = c.val → (action = 1 ∨ action = 2) →
      exec (.setCarService tag bank car action) s =
        .next (s.writingItem 15 tag n (.carService b c (action == 1))) := by
  constructor
  · intro bad
    refine exec_refuse take (.setCarService bank car action) rfl ?_
    show s.hostHunt.judgeSetCarService bank car action = _
    rw [← bankOf_eq_none_iff, ← carOf_eq_none_iff, ← carActionOf_eq_none_iff] at bad
    unfold State.judgeSetCarService
    split
    next hb hc ha => simp [hb, hc, ha] at bad
    · rfl
  · intro b c hb hc ha
    refine exec_item take stamp (.setCarService bank car action) rfl ?_
    show s.hostHunt.judgeSetCarService bank car action = _
    rw [State.judgeSetCarService, hb, bankOf_val, hc, carOf_val]
    rcases ha with rfl | rfl <;> rfl

theorem exec_setBankMode (bank mode : Byte) :
    ((4 ≤ bank.toNat ∨ 5 ≤ mode.toNat) →
      exec (.setBankMode tag bank mode) s = .next (s.replied 14 tag .badValue .empty)) ∧
    ∀ (b : Bank) (m : BankMode), bank.toNat = b.val → mode = m.code →
      ((m ≠ .fireRecall ∧ s.pins.rcl.get b = true) →
        exec (.setBankMode tag bank mode) s = .next (s.replied 14 tag .inputAsserted .empty)) ∧
      ((m = .fireRecall ∨ s.pins.rcl.get b = false) →
        exec (.setBankMode tag bank mode) s = .next (s.writingItem 14 tag n (.bankMode b m))) := by
  constructor
  · intro bad
    refine exec_refuse take (.setBankMode bank mode) rfl ?_
    show s.hostHunt.judgeSetBankMode bank mode = _
    rw [← bankOf_eq_none_iff, ← BankMode.ofCode_eq_none_iff] at bad
    unfold State.judgeSetBankMode
    split
    next hb hm => simp [hb, hm] at bad
    · rfl
  · rintro b m hb rfl
    constructor
    · intro asserted
      refine exec_refuse take (.setBankMode bank m.code) rfl ?_
      show s.hostHunt.judgeSetBankMode bank m.code = _
      rw [State.judgeSetBankMode, hb, bankOf_val, BankMode.ofCode_code]
      exact if_pos asserted
    · intro free
      refine exec_item take stamp (.setBankMode bank m.code) rfl ?_
      show s.hostHunt.judgeSetBankMode bank m.code = _
      rw [State.judgeSetBankMode, hb, bankOf_val, BankMode.ofCode_code]
      refine if_neg ?_
      rintro ⟨other, asserted⟩
      rcases free with same | clear
      · exact other same
      · cases clear.symm.trans asserted

end

/-- Settles O12: each guarded request by its check and its guard. -/
theorem guardedRequestsBeginTheirPrograms : Obligations.GuardedRequestsBeginTheirPrograms :=
  ⟨fun _ tag floor c0 c1 c2 kind state banks _ take stamp => exec_loadFloor take stamp tag floor c0 c1 c2 kind state banks,
    fun _ tag bank cc cap ft st lb cp mw ct ful rf _ take stamp =>
      exec_loadBank take stamp tag bank cc cap ft st lb cp mw ct ful rf,
    fun _ tag floor state bank car action _ take stamp =>
      ⟨(exec_setFloorState take stamp tag floor state).1, (exec_setFloorState take stamp tag floor state).2,
        (exec_setCarService take stamp tag bank car action).1, (exec_setCarService take stamp tag bank car action).2⟩,
    fun _ tag bank mode _ take stamp => exec_setBankMode take stamp tag bank mode⟩

end Sys2Proof.Machine
end

section
/-! PROOF of O13 (R10, R11): a policy page's image changes one item. -/

namespace Sys2Proof.Machine

/-! ### The slot of each item (R10) -/

theorem vector_get_set {α : Type} {n : Nat} (v : Vector α n) (i j : Fin n) (x : α) :
    (v.set i x).get j = if j = i then x else v.get j := by
  rw [Vector.get_eq_getElem, Vector.getElem_set, Vector.get_eq_getElem]
  exact if_congr (by rw [Fin.ext_iff]; exact eq_comm) rfl rfl

section
variable (t : Policy) {k : Nat} (hk : k < 16)
include hk

/-- The item number of a slot. -/
theorem slot_number {base p m : Nat} (h : p = base + m / 16) : 16 * (p - base) + k = m ↔ k = m % 16 := by omega

theorem slot_group (p : Nat) (low : 2048 ≤ p) (high : p < 2064) :
    t.slot p k = encodeGroup (t.groups.get ⟨16 * (p - 2048) + k, by omega⟩) := by
  unfold Policy.slot
  rw [if_pos high]
  exact dif_pos _

theorem slot_profile (p : Nat) (low : 2064 ≤ p) (high : p < 2068) (used : ¬ (p = 2064 ∧ k = 0)) :
    t.slot p k = encodeProfile (t.profiles.get ⟨16 * (p - 2064) + k, by omega⟩) := by
  unfold Policy.slot
  have at_item : 16 * (p - 2048) + k - 256 = 16 * (p - 2064) + k := by omega
  simp only [at_item]
  rw [if_neg (by omega), if_pos high, if_neg (by omega), dif_pos (by omega)]

theorem slot_tenant (p : Nat) (low : 2068 ≤ p) (high : p < 2076) :
    t.slot p k = encodeTenant (t.tenants.get ⟨16 * (p - 2068) + k, by omega⟩) := by
  unfold Policy.slot
  have at_item : 16 * (p - 2048) + k - 320 = 16 * (p - 2068) + k := by omega
  simp only [at_item]
  rw [if_neg (by omega), if_neg (by omega), if_pos high, dif_pos (by omega)]

theorem slot_floor (p : Nat) (low : 2076 ≤ p) (high : p < 2084) :
    t.slot p k = encodeFloor (t.floors.get ⟨16 * (p - 2076) + k, by omega⟩) := by
  unfold Policy.slot
  have at_item : 16 * (p - 2048) + k - 448 = 16 * (p - 2076) + k := by omega
  simp only [at_item]
  rw [if_neg (by omega), if_neg (by omega), if_neg (by omega), if_pos high, dif_pos (by omega)]

theorem slot_reader : t.slot 2085 k = encodeReader (t.readers.get ⟨k, hk⟩) := by
  unfold Policy.slot
  rw [if_neg (by omega), if_neg (by omega), if_neg (by omega), if_neg (by omega), if_neg (by omega), if_pos rfl,
    dif_pos hk]

end

theorem slot_banks (t : Policy) (k : Nat) :
    t.slot 2084 k =
      if h : k < 4 then encodeBank (t.banks.get ⟨k, h⟩)
      else if k = 4 then encodeSite t.ticketLife else freeSlot := by
  unfold Policy.slot
  rw [if_neg (by omega), if_neg (by omega), if_neg (by omega), if_neg (by omega), if_pos rfl]

theorem slot_bank (t : Policy) (b : Bank) : t.slot 2084 b.val = encodeBank (t.banks.get b) := by
  rw [slot_banks, dif_pos b.isLt]

theorem slot_site (t : Policy) : t.slot 2084 4 = encodeSite t.ticketLife := by
  rw [slot_banks, dif_neg (by decide), if_pos rfl]

theorem slot_unused (t : Policy) {p k : Nat} (h : (p = 2064 ∧ k = 0) ∨ (p = 2084 ∧ 5 ≤ k) ∨ 2086 ≤ p) :
    t.slot p k = List.replicate 28 255 := by
  rcases h with ⟨rfl, rfl⟩ | ⟨rfl, far⟩ | far
  · rfl
  · rw [slot_banks, dif_neg (by omega), if_neg (by omega)]
    rfl
  · unfold Policy.slot
    rw [if_neg (by omega), if_neg (by omega), if_neg (by omega), if_neg (by omega), if_neg (by omega), if_neg (by omega)]
    rfl

/-! ### The slot changed (R11) -/

/-- A changed item in a page's slots: the numbered slot is the new item's, the others stay. -/
theorem slot_set {α : Type} {n m j k : Nat} {v : Vector α n} {encode : α → List Byte} (i : Fin n) (x : α) (h : m < n)
    (number : m = i.val ↔ k = j) :
    encode ((v.set i x).get ⟨m, h⟩) = if k = j then encode x else encode (v.get ⟨m, h⟩) := by
  rw [vector_get_set, apply_ite encode]
  exact if_congr (Fin.ext_iff.trans number) rfl rfl

/-- A changed bank among the slots of page 2084. -/
theorem slot_set_bank (t : Policy) (b : Bank) (r : BankRec) (k : Nat) :
    { t with banks := t.banks.set b r }.slot 2084 k = if k = b.val then encodeBank r else t.slot 2084 k := by
  rw [slot_banks, slot_banks]
  by_cases h : k < 4
  · rw [dif_pos h, dif_pos h, vector_get_set, apply_ite encodeBank]
    exact if_congr Fin.ext_iff rfl rfl
  · rw [dif_neg h, dif_neg h, if_neg fun (e : k = b.val) => h (e ▸ b.isLt)]

theorem slot_set_site (t : Policy) (life k : Nat) :
    { t with ticketLife := life }.slot 2084 k = if k = 4 then encodeSite life else t.slot 2084 k := by
  rw [slot_banks, slot_banks]
  by_cases h : k < 4
  · rw [dif_pos h, dif_pos h, if_neg (by omega)]
  · rw [dif_neg h, dif_neg h]
    split <;> rfl

theorem putCar_has (ws : CarSet) (c h : CarNo) (w : Bool) : (putCar ws c w).has h = if h = c then w else ws.has h := by
  have bit : (BitVec.ofNat 8 (2 ^ c.val)).getLsbD h.val = decide (h = c) := by
    rw [BitVec.getLsbD_ofNat, Nat.testBit_two_pow, decide_eq_true h.isLt, Bool.true_and]
    exact decide_eq_decide.2 (eq_comm.trans Fin.ext_iff.symm)
  generalize hm : BitVec.ofNat 8 (2 ^ c.val) = mask at bit
  unfold putCar
  rw [hm]
  cases w with
  | true =>
    show (ws ||| mask).getLsbD h.val = if h = c then true else ws.getLsbD h.val
    rw [BitVec.getLsbD_or, bit]
    by_cases same : h = c <;> simp only [same, decide_true, decide_false, Bool.or_true, Bool.or_false, if_true, if_false]
  | false =>
    show (ws &&& ~~~mask).getLsbD h.val = if h = c then false else ws.getLsbD h.val
    rw [BitVec.getLsbD_and, BitVec.getLsbD_not, bit, decide_eq_true h.isLt]
    by_cases same : h = c <;>
      simp only [same, decide_true, decide_false, Bool.not_true, Bool.not_false, Bool.and_true, Bool.and_false, if_true,
        if_false]

/-- Settles O13. -/
theorem policyImageChangesOneItem : Obligations.PolicyImageChangesOneItem := by
  refine ⟨fun t k hk => ⟨fun n g => ?_, fun n p ne => ?_, fun n x => ?_, fun f r => ?_, fun b r => slot_set_bank t b r k,
      fun b m => slot_set_bank t b _ k, fun b c w => ⟨_, fun h => putCar_has _ c h w, slot_set_bank t b _ k⟩,
      fun life => slot_set_site t life k, fun p r => ?_, fun p h => slot_unused t h⟩,
    fun t => ⟨fun n => ?_, fun n ne => ?_, fun n => ?_, fun f => ?_, slot_bank t, slot_site t, fun p => ?_, fun p => ?_,
      fun _ _ => rfl, fun _ _ => rfl, fun _ _ => rfl, fun _ _ => rfl, fun _ _ => rfl, fun _ _ => rfl, fun _ _ _ => rfl,
      fun _ => rfl, fun _ _ => rfl⟩⟩
  · rw [slot_group _ hk _ (by omega) (by omega), slot_group _ hk _ (by omega) (by omega)]
    exact slot_set n g _ (by omega)
  · by_cases free : 2064 + n.val / 16 = 2064 ∧ k = 0
    · have other : k ≠ n.val % 16 := fun e => ne (Fin.ext (show n.val = 0 by omega))
      rw [if_neg other, slot_unused _ (.inl free), slot_unused _ (.inl free)]
    · rw [slot_profile _ hk _ (by omega) (by omega) free, slot_profile _ hk _ (by omega) (by omega) free]
      exact slot_set n p _ (by omega)
  · rw [slot_tenant _ hk _ (by omega) (by omega), slot_tenant _ hk _ (by omega) (by omega)]
    exact slot_set n x _ (by omega)
  · rw [slot_floor _ hk _ (by omega) (by omega), slot_floor _ hk _ (by omega) (by omega)]
    exact slot_set f r _ (by omega)
  · rw [slot_reader _ hk, slot_reader _ hk]
    exact slot_set p r _ (by omega)
  · rw [slot_group _ (Nat.mod_lt _ (by decide)) _ (by omega) (by omega)]
    congr 2
    exact Fin.ext (by dsimp only; omega)
  · have used : ¬ (2064 + n.val / 16 = 2064 ∧ n.val % 16 = 0) := fun e => ne (Fin.ext (show n.val = 0 by omega))
    rw [slot_profile _ (Nat.mod_lt _ (by decide)) _ (by omega) (by omega) used]
    congr 2
    exact Fin.ext (by dsimp only; omega)
  · rw [slot_tenant _ (Nat.mod_lt _ (by decide)) _ (by omega) (by omega)]
    congr 2
    exact Fin.ext (by dsimp only; omega)
  · rw [slot_floor _ (Nat.mod_lt _ (by decide)) _ (by omega) (by omega)]
    congr 2
    exact Fin.ext (by dsimp only; omega)
  · rw [slot_reader _ p.isLt]
  · exact ⟨by simp [Policy.pageSlots], fun k hk => List.getElem?_map.trans
      (congrArg (Option.map _) (List.getElem?_range hk))⟩

end Sys2Proof.Machine
end

section
/-! PROOF of O16, O17 and O18 (R6 to R9, R16): the requests that program a credential page or erase a page. -/

namespace Sys2Proof.Machine

/-! ### Placement (R7) -/

/-- R7: a slot that may take a record. -/
def StoreBlock.freeAt (st : StoreBlock) (x : Nat × Nat) : Prop := st.bad x.1 = false ∧ st.record x.1 x.2 = none

theorem StoreBlock.freeAt_iff {st : StoreBlock} {x : Nat × Nat} :
    (!st.bad x.1 && (st.record x.1 x.2).isNone) = true ↔ st.freeAt x := by
  simp [StoreBlock.freeAt]

theorem StoreBlock.not_freeAt_iff {st : StoreBlock} {x : Nat × Nat} :
    ¬ st.freeAt x ↔ st.bad x.1 = true ∨ st.record x.1 x.2 ≠ none := by
  rw [StoreBlock.freeAt, not_and_or, Bool.not_eq_false]

theorem StoreBlock.firstFree_eq_none_iff {st : StoreBlock} {badge : Badge} :
    st.firstFree badge = none ↔ ∀ x ∈ probeSlots badge, st.bad x.1 = true ∨ st.record x.1 x.2 ≠ none := by
  unfold StoreBlock.firstFree
  simp only [List.find?_eq_none, StoreBlock.freeAt_iff, StoreBlock.not_freeAt_iff]

theorem StoreBlock.firstFree_eq_some {st : StoreBlock} {badge : Badge} {i : Nat} {x : Nat × Nat}
    (place : (probeSlots badge)[i]? = some x) (free : st.freeAt x)
    (before : ∀ j y, j < i → (probeSlots badge)[j]? = some y → ¬ st.freeAt y) : st.firstFree badge = some x := by
  unfold StoreBlock.firstFree
  obtain ⟨range, rfl⟩ := List.getElem?_eq_some_iff.1 place
  refine List.find?_eq_some_iff_getElem.2 ⟨StoreBlock.freeAt_iff.2 free, i, range, rfl, fun j lt => ?_⟩
  have full := before j _ lt (List.getElem?_eq_getElem (Nat.lt_trans lt range))
  rw [← StoreBlock.freeAt_iff, Bool.not_eq_true] at full
  rw [full]
  rfl

theorem State.placeRecord_found {s : State} {r old : Credential} {p k : Nat}
    (found : s.store.search r.badge = some (old, p, k)) : s.placeRecord r = s.credentialProgram p k (encodeCredential r) := by
  rw [State.placeRecord, StoreBlock.answer_eq_found_iff.2 found]

theorem State.placeRecord_missing {s : State} {r : Credential} (missing : s.store.search r.badge = none) :
    s.placeRecord r =
      match s.store.firstFree r.badge with
      | some (p, k) => s.credentialProgram p k (encodeCredential r)
      | none => .refuse .noRoom := by
  unfold State.placeRecord
  split
  next _ p k found => cases missing.symm.trans (StoreBlock.answer_eq_found_iff.1 found)
  next => rfl

/-- Settles O16: by the check, the search and the first free slot. -/
theorem enrollPlacesTheRecord : Obligations.EnrollPlacesTheRecord := by
  intro s tag badge state tenant units groups defaultFloor personal validFrom hasUntil validUntil n take stamp c checked
  have image := fun p k new => s.store.imageSlots_credentialSlots p k new
  let request : Request := .enroll badge state tenant units groups defaultFloor personal validFrom hasUntil validUntil
  refine ⟨fun refused => ?_, fun r taken => ⟨fun old p k found => ⟨_, image p k _, ?_⟩, fun missing =>
    ⟨fun i x place good free before => ⟨_, image x.1 x.2 _, ?_⟩, fun full => ?_⟩⟩⟩
  case refine_1 =>
    refine exec_refuse take request rfl ?_
    show s.hostHunt.judgeEnroll checked = _
    rw [refused, State.judgeEnroll]
  all_goals
    have judged : s.hostHunt.judge request = s.placeRecord r := by
      show s.hostHunt.judgeEnroll checked = _
      rw [taken]
      rfl
    obtain rfl : r.badge = badge := by
      obtain ⟨-, _, _, _, _, rfl⟩ := checkCredential_eq_some_iff.1 taken
      rfl
  · exact exec_write take stamp request rfl (judged.trans (State.placeRecord_found found))
  · refine exec_write take stamp request rfl (judged.trans ((State.placeRecord_missing missing).trans ?_))
    rw [StoreBlock.firstFree_eq_some place ⟨good, free⟩ fun j y lt at_j => StoreBlock.not_freeAt_iff.2 (before j y lt at_j)]
    rfl
  · refine exec_refuse take request rfl (judged.trans ((State.placeRecord_missing missing).trans ?_))
    rw [StoreBlock.firstFree_eq_none_iff.2 full]

/-! ### Requests that name a badge (R6, R8, R9) -/

theorem badBadge_iff {badge : Badge} : badBadge badge = true ↔ badge = 0 ∨ badge = 4294967295 := by
  rw [badBadge, Bool.or_eq_true, decide_eq_true_eq, decide_eq_true_eq, ← BitVec.toNat_inj, ← BitVec.toNat_inj]
  exact Iff.rfl

section
variable {s : State} {badge : Badge} {go : Credential → Nat → Nat → Verdict}

theorem State.withBadge_bad (h : badge = 0 ∨ badge = 4294967295) : s.withBadge badge go = .refuse .badValue :=
  if_pos (badBadge_iff.2 h)

variable (h0 : badge ≠ 0) (h1 : badge ≠ 4294967295)
include h0 h1

theorem State.withBadge_named :
    s.withBadge badge go =
      match s.store.answer badge with
      | .found r p k => go r p k
      | .missing => .refuse .noSuch
      | .missingBad | .inProgram => .refuse .storeFault :=
  if_neg fun h => (badBadge_iff.1 h).elim h0 h1

theorem State.withBadge_found {r : Credential} {p k : Nat} (found : s.store.answer badge = .found r p k) :
    s.withBadge badge go = go r p k := by
  rw [State.withBadge_named h0 h1, found]

theorem State.withBadge_missing (missing : s.store.answer badge = .missing) :
    s.withBadge badge go = .refuse .noSuch := by
  rw [State.withBadge_named h0 h1, missing]

theorem State.withBadge_missingBad (missing : s.store.answer badge = .missingBad) :
    s.withBadge badge go = .refuse .storeFault := by
  rw [State.withBadge_named h0 h1, missing]

end

theorem State.judgeSetBadgeState_code (s : State) (badge : Badge) (st : BadgeState) :
    s.judgeSetBadgeState badge st.code =
      s.withBadge badge fun r p k => s.credentialProgram p k (encodeCredential { r with state := st }) := by
  rw [State.judgeSetBadgeState, BadgeState.ofCode_code]

/-- Settles O17: by the lookup's answer. -/
theorem revokeAndSetStateRewriteTheFoundSlot : Obligations.RevokeAndSetStateRewriteTheFoundSlot := by
  refine ⟨fun s tag badge state take n1 n2 n3 => ?_, ?_⟩
  · refine exec_refuse take (.setBadgeState badge state) rfl ?_
    show s.hostHunt.judgeSetBadgeState badge state = _
    rw [State.judgeSetBadgeState, BadgeState.ofCode_eq_none_iff.2 ⟨n1, n2, n3⟩]
  rintro s tag badge _ st n take stamp rfl
  have image := fun p k new => s.store.imageSlots_credentialSlots p k new
  have judged : s.hostHunt.judge (.setBadgeState badge st.code) = _ := s.hostHunt.judgeSetBadgeState_code badge st
  refine ⟨fun bad => ⟨?_, ?_⟩, fun h0 h1 => ⟨fun r p k found => ⟨⟨_, image p k _, ?_⟩, ⟨_, image p k _, ?_⟩⟩,
    fun missing => ⟨fun someBad => ⟨?_, ?_⟩, fun allGood => ⟨?_, ?_⟩⟩⟩⟩
  · exact exec_refuse take (.revoke badge) rfl (State.withBadge_bad bad)
  · exact exec_refuse take (.setBadgeState badge st.code) rfl (judged.trans (State.withBadge_bad bad))
  · exact exec_write take stamp (.revoke badge) rfl
      (State.withBadge_found h0 h1 (StoreBlock.answer_eq_found_iff.2 found))
  · exact exec_write take stamp (.setBadgeState badge st.code) rfl
      (judged.trans (State.withBadge_found h0 h1 (StoreBlock.answer_eq_found_iff.2 found)))
  · exact exec_refuse take (.revoke badge) rfl
      (State.withBadge_missingBad h0 h1 (StoreBlock.answer_eq_missingBad_iff.2 ⟨missing, someBad⟩))
  · exact exec_refuse take (.setBadgeState badge st.code) rfl
      (judged.trans (State.withBadge_missingBad h0 h1 (StoreBlock.answer_eq_missingBad_iff.2 ⟨missing, someBad⟩)))
  · exact exec_refuse take (.revoke badge) rfl
      (State.withBadge_missing h0 h1 (StoreBlock.answer_eq_missing_iff.2 ⟨missing, allGood⟩))
  · exact exec_refuse take (.setBadgeState badge st.code) rfl
      (judged.trans (State.withBadge_missing h0 h1 (StoreBlock.answer_eq_missing_iff.2 ⟨missing, allGood⟩)))

/-! ### ERASE-PAGE (R16) -/

theorem State.hostFrame_erase {s : State} (take : s.canTake) {tag : Byte} {r : Request} {p : Nat}
    (judged : s.hostHunt.judge r = .erase p) :
    s.hostFrame tag r =
      ((s.setStore { s.store with programmer := some { page := p, image := eraseImage, erase := true, job := .erase } }).setHost
        { s.host with rx := [], request := .executing r.type tag }).choose := by
  rw [State.hostFrame_of_canTake take, State.takeRequest, judged]
  rfl

/-- R16: a page whose erasing is guarded. -/
def State.guards (s : State) (p : Nat) : Prop :=
  (p = 2084 ∧ ∃ b, s.mode b ≠ some .out) ∨
    ∃ (f : Floor) (b : Bank), p = 2076 + f.val / 16 ∧ s.serves b f = true ∧ s.mode b ≠ some .out

theorem State.eraseGuarded_iff {s : State} {p : Nat} : s.eraseGuarded p = true ↔ s.guards p := by
  have out : ∀ b, (!s.isOut b) = true ↔ s.mode b ≠ some .out := fun b => by
    rw [Bool.not_eq_true', ← Bool.not_eq_true, State.isOut_iff]
  unfold State.eraseGuarded State.guards
  simp only [Bool.or_eq_true, Bool.and_eq_true, decide_eq_true_eq, List.any_eq_true, out, allBanks, allFloors,
    List.mem_finRange, true_and]
  refine or_congr Iff.rfl ⟨?_, ?_⟩
  · rintro ⟨-, f, place, b, serves, busy⟩
    exact ⟨f, b, place.symm, serves, busy⟩
  · rintro ⟨f, b, rfl, serves, busy⟩
    exact ⟨by omega, f, rfl, b, serves, busy⟩

theorem State.guards_lt {s : State} {p : Nat} (h : s.guards p) : p < 2112 := by
  rcases h with ⟨rfl, -⟩ | ⟨f, -, rfl, -⟩ <;> omega

/-- Settles O18: by the range, then the guard. -/
theorem erasePageIsGuarded : Obligations.ErasePageIsGuarded := by
  intro s tag page take guarded
  have judged : s.hostHunt.judge (.erasePage page) =
      if 2112 ≤ page.toNat then .refuse .badValue else if s.eraseGuarded page.toNat then .refuse .bankActive
      else .erase page.toNat := rfl
  refine ⟨fun far => exec_refuse take (.erasePage page) rfl ?_, fun held => exec_refuse take (.erasePage page) rfl ?_,
    fun near free => (exec_of_requestOf rfl s).trans (congrArg _ ((State.hostFrame_erase take (r := .erasePage page) ?_).trans rfl))⟩
  · rw [judged, if_pos far]
  · rw [judged, if_neg (Nat.not_le.2 (State.guards_lt held)), if_pos (State.eraseGuarded_iff.2 held)]
  · rw [judged, if_neg (Nat.not_le.2 near), if_neg fun h => free (State.eraseGuarded_iff.1 h)]

end Sys2Proof.Machine
end

section
/-! PROOF of O9 and O10 (R167 to R172): the queries read the state, and a RESTART resets after its reply. -/

namespace Sys2Proof.Machine

/-! ### Serial order (R79) -/

theorem insertSerial_perm (k : Booking) (ks : List Booking) : (insertSerial k ks).Perm (k :: ks) := by
  induction ks with
  | nil => exact List.Perm.refl _
  | cons b bs ih =>
    unfold insertSerial
    split
    · exact (ih.cons b).trans (List.Perm.swap k b bs)
    · exact List.Perm.refl _

theorem serialOrder_perm (ks : List Booking) : (serialOrder ks).Perm ks := by
  induction ks with
  | nil => exact List.Perm.refl _
  | cons k ks ih => exact (insertSerial_perm k _).trans (ih.cons k)

/-- A serial as a distance from a base. -/
def Booking.serialFrom (base : BitVec 32) (k : Booking) : Nat := (k.serial - base).toNat

theorem Booking.older_iff {base : BitVec 32} {a b : Booking} (ha : a.serialFrom base < 2147483648)
    (hb : b.serialFrom base < 2147483648) : a.older b = true ↔ a.serialFrom base < b.serialFrom base := by
  unfold Booking.serialFrom at *
  unfold Booking.older
  rw [decide_eq_true_eq]
  have := a.serial.isLt
  have := b.serial.isLt
  have := base.isLt
  simp only [BitVec.toNat_sub] at *
  omega

theorem insertSerial_sorted {base : BitVec 32} {k : Booking} {ks : List Booking}
    (hk : k.serialFrom base < 2147483648) (near : ∀ x ∈ ks, x.serialFrom base < 2147483648)
    (sorted : ks.Pairwise fun x y => x.serialFrom base ≤ y.serialFrom base) :
    (insertSerial k ks).Pairwise fun x y => x.serialFrom base ≤ y.serialFrom base := by
  induction ks with
  | nil => exact List.pairwise_singleton _ _
  | cons b bs ih =>
    have order := Booking.older_iff (near b List.mem_cons_self) hk
    obtain ⟨first, rest⟩ := List.pairwise_cons.1 sorted
    unfold insertSerial
    split
    next older =>
      refine List.pairwise_cons.2 ⟨fun x hx => ?_, ih (fun x hx => near x (List.mem_cons_of_mem _ hx)) rest⟩
      rcases (mem_insertSerial k x bs).1 hx with rfl | hx
      · exact Nat.le_of_lt (order.1 older)
      · exact first x hx
    next newer =>
      have le : k.serialFrom base ≤ b.serialFrom base := Nat.le_of_not_lt fun lt => newer (order.2 lt)
      refine List.pairwise_cons.2 ⟨fun x hx => ?_, sorted⟩
      rcases List.mem_cons.1 hx with rfl | hx
      · exact le
      · exact Nat.le_trans le (first x hx)

theorem serialOrder_sorted {base : BitVec 32} {ks : List Booking}
    (near : ∀ x ∈ ks, x.serialFrom base < 2147483648) :
    (serialOrder ks).Pairwise fun x y => x.serialFrom base ≤ y.serialFrom base := by
  induction ks with
  | nil => exact List.Pairwise.nil
  | cons k ks ih =>
    exact insertSerial_sorted (near k List.mem_cons_self)
      (fun x hx => near x (List.mem_cons_of_mem _ ((serialOrder_perm ks).mem_iff.1 hx)))
      (ih fun x hx => near x (List.mem_cons_of_mem _ hx))

/-! ### First occurrences (R170, log 44) -/

/-- Keeping each entry at its first place. -/
def firstOnly (l : List Key) : List Key := l.reverse.dedup.reverse

theorem firstOnly_append (l : List Key) (a : Key) :
    firstOnly (l ++ [a]) = if a ∈ l then firstOnly l else firstOnly l ++ [a] := by
  unfold firstOnly
  rw [List.reverse_append, List.reverse_singleton, List.singleton_append]
  by_cases h : a ∈ l
  · rw [if_pos h, List.dedup_cons_of_mem (List.mem_reverse.2 h)]
  · rw [if_neg h, List.dedup_cons_of_notMem (fun m => h (List.mem_reverse.1 m)), List.reverse_cons]

theorem mem_firstOnly {l : List Key} {x : Key} : x ∈ firstOnly l ↔ x ∈ l := by simp [firstOnly]

theorem firstOnly_nodup (l : List Key) : (firstOnly l).Nodup := List.nodup_reverse.2 (List.nodup_dedup _)

theorem firstOnly_ordered (l : List Key) : (firstOnly l).Pairwise fun x y => l.idxOf x < l.idxOf y := by
  induction l using List.reverseRecOn with
  | nil => exact List.Pairwise.nil
  | append_singleton l a ih =>
    have keep : (firstOnly l).Pairwise fun x y => (l ++ [a]).idxOf x < (l ++ [a]).idxOf y :=
      ih.imp_of_mem fun {x y} hx hy lt => by
        rwa [List.idxOf_append_of_mem (mem_firstOnly.1 hx), List.idxOf_append_of_mem (mem_firstOnly.1 hy)]
    rw [firstOnly_append]
    split
    · exact keep
    next fresh =>
      refine List.pairwise_append.2 ⟨keep, List.pairwise_singleton _ _, fun x hx y hy => ?_⟩
      rw [List.mem_singleton.1 hy, List.idxOf_append_of_mem (mem_firstOnly.1 hx), List.idxOf_append_of_notMem fresh]
      exact Nat.lt_add_right _ (List.idxOf_lt_length_of_mem (mem_firstOnly.1 hx))

theorem State.pendingDrops_eq (s : State) (b : Bank) (c : CarNo) :
    s.pendingDrops b c = firstOnly ((s.waitingOn b c).map Booking.dropKey) := rfl

/-! ### Places in the queue, and the banks of a part (R170, R172) -/

theorem Line.place_eq_none_iff {l : Line} {c : CarNo} : l.place c = none ↔ c ∉ l.queue := by
  unfold Line.place
  split <;> simp [*]

theorem Line.place_eq_some {l : Line} {c : CarNo} {n : Nat} (h : l.place c = some n) :
    1 ≤ n ∧ l.queue[n - 1]? = some c := by
  unfold Line.place at h
  split at h <;> cases h
  next listed => exact ⟨by omega, by simpa using List.getElem?_idxOf listed⟩

theorem getElem?_allBanks {α : Type} (f : Bank → α) (b : Bank) : (allBanks.map f)[b.val]? = some (f b) := by
  simp [allBanks]

/-! ### Queries -/

theorem State.groupFloors_hostHunt (s : State) (ns : List Byte) : s.hostHunt.groupFloors ns = s.groupFloors ns := by
  induction ns with
  | nil => rfl
  | cons n ns ih =>
    rw [State.groupFloors, ih]
    rfl

theorem State.permitted_hostHunt (s : State) (r : Credential) : s.hostHunt.permitted r = s.permitted r := by
  unfold State.permitted
  rw [State.groupFloors_hostHunt]
  rfl

section
variable {s : State} (take : s.canTake) (tag : Byte)
include take

theorem exec_queryBadge (badge : Badge) :
    ((badge = 0 ∨ badge = 4294967295) → exec (.queryBadge tag badge) s = .next (s.replied 18 tag .badValue .empty)) ∧
     (badge ≠ 0 → badge ≠ 4294967295 →
       (s.store.answer badge = .missing → exec (.queryBadge tag badge) s = .next (s.replied 18 tag .noSuch .empty)) ∧
       (s.store.answer badge = .missingBad →
         exec (.queryBadge tag badge) s = .next (s.replied 18 tag .storeFault .empty)) ∧
       ∀ r p k, s.store.answer badge = .found r p k →
         exec (.queryBadge tag badge) s =
           .next (s.replied 18 tag .done
             (.badge { record := r, page := p, slot := k, permitted := s.permitted r, override := s.overrideFlag r,
                       ticket := s.disp.tickets.find? fun t => t.badge = badge }))) := by
  refine ⟨fun bad => exec_refuse take (.queryBadge badge) rfl (State.withBadge_bad bad), fun h0 h1 =>
    ⟨fun h => exec_refuse take (.queryBadge badge) rfl (State.withBadge_missing h0 h1 h),
      fun h => exec_refuse take (.queryBadge badge) rfl (State.withBadge_missingBad h0 h1 h),
      fun r p k h => ?_⟩⟩
  refine exec_done take (.queryBadge badge) rfl ?_
  show s.hostHunt.judgeQueryBadge badge = _
  rw [State.judgeQueryBadge, State.withBadge_found (s := s.hostHunt) h0 h1 h, State.permitted_hostHunt]
  rfl

theorem exec_queryCar_bad {bank car : Byte} (bad : 4 ≤ bank.toNat ∨ 8 ≤ car.toNat) :
    exec (.queryCar tag bank car) s = .next (s.replied 19 tag .badValue .empty) := by
  refine exec_refuse take (.queryCar bank car) rfl ?_
  show s.hostHunt.judgeQueryCar bank car = _
  rw [← bankOf_eq_none_iff, ← carOf_eq_none_iff] at bad
  unfold State.judgeQueryCar
  split
  next hb hc => simp [hb, hc] at bad
  · rfl

theorem exec_queryBookings_bad {bank car : Byte} (start : Byte) (bad : 4 ≤ bank.toNat ∨ 8 ≤ car.toNat) :
    exec (.queryBookings tag bank car start) s = .next (s.replied 20 tag .badValue .empty) := by
  refine exec_refuse take (.queryBookings bank car start) rfl ?_
  show s.hostHunt.judgeQueryBookings bank car start = _
  rw [← bankOf_eq_none_iff, ← carOf_eq_none_iff] at bad
  unfold State.judgeQueryBookings
  split
  next hb hc => simp [hb, hc] at bad
  · rfl

theorem exec_queryCar {bank car : Byte} {b : Bank} {c : CarNo} (hb : bank.toNat = b.val) (hc : car.toNat = c.val) :
    exec (.queryCar tag bank car) s = .next (s.replied 19 tag .done (.car (s.carView b c))) := by
  refine exec_done take (.queryCar bank car) rfl ?_
  show s.hostHunt.judgeQueryCar bank car = _
  rw [State.judgeQueryCar, hb, hc, bankOf_val, carOf_val]
  rfl

theorem exec_queryBookings {bank car : Byte} (start : Byte) {b : Bank} {c : CarNo} (hb : bank.toNat = b.val)
    (hc : car.toNat = c.val) :
    exec (.queryBookings tag bank car start) s =
        .next (s.replied 20 tag .done
          (.bookings (serialOrder (s.carBookings b c)).length
            (((serialOrder (s.carBookings b c)).drop start.toNat).take 10))) := by
  refine exec_done take (.queryBookings bank car start) rfl ?_
  show s.hostHunt.judgeQueryBookings bank car start = _
  rw [State.judgeQueryBookings, hb, hc, bankOf_val, carOf_val]
  rfl

theorem exec_queryPart :
    exec (.queryPart tag) s = .next (s.replied 21 tag .done (.part s.hostHunt.partView)) :=
  exec_done take .queryPart rfl rfl

end

/-- Settles O9. -/
theorem queriesReadTheState : Obligations.QueriesReadTheState := by
  refine ⟨fun s tag badge take => exec_queryBadge take tag badge, fun s tag bank car start take =>
    ⟨fun bad => ⟨exec_queryCar_bad take tag bad, exec_queryBookings_bad take tag start bad⟩, fun b c hb hc =>
      ⟨⟨s.carView b c, exec_queryCar take tag hb hc, rfl, rfl, rfl, ?_, Line.place_eq_none_iff,
        fun n h => Line.place_eq_some h⟩, exec_queryBookings take tag start hb hc⟩⟩,
    fun ks => ⟨serialOrder_perm ks, fun base near => serialOrder_sorted near⟩, fun s tag take =>
      ⟨s.hostHunt.partView, exec_queryPart take tag, take.1, rfl, rfl, rfl, rfl, rfl, rfl, rfl, rfl, rfl,
        fun b => getElem?_allBanks (fun b => (s.mode b, s.bank b, s.pins.rcl.get b)) b,
        fun l => getElem?_allBanks (fun l => ((s.line l).state, (s.line l).faultMark, (s.line l).queue.length,
          s.pins.lrq.get l)) l⟩⟩
  exact ⟨firstOnly_nodup _, fun x => mem_firstOnly, firstOnly_ordered _⟩

/-! ### RESTART (R167, R168) -/

theorem exec_resetPin (s : State) : exec .resetPin s = .next (s.resetAll (Part.afterReset .pin true false)) := rfl

theorem exec_replySent_restart {s : State} {r : Reply} (sending : s.host.tx = .sendingReply)
    (reply : s.host.request = .replying r) (type : r.type = 22) : exec .replySent s = .next s.restartReset := by
  change execReplySent s = _
  rw [execReplySent, if_pos sending, reply]
  exact congrArg _ (if_pos type)

theorem get_replicate {α : Type} {n : Nat} (x : α) (i : Fin n) : (Vector.replicate n x).get i = x := by
  rw [Vector.get_eq_getElem, Vector.getElem_replicate]

theorem State.cellsAfterReset_of_none {s : State} (free : s.store.programmer = none) :
    s.cellsAfterReset = s.store.cells := by
  rw [State.cellsAfterReset, free]

/-- Settles O10. -/
theorem restartResetsAfterItsReply : Obligations.RestartResetsAfterItsReply := by
  refine ⟨fun s tag take => exec_done take .restart rfl rfl, fun s r sending reply type => ?_⟩
  refine ⟨_, _, _, exec_replySent_restart sending reply type, exec_resetPin s, exec_resetPinRelease rfl, rfl, rfl, rfl,
    rfl, rfl, rfl, fun p => get_replicate _ p, fun l => get_replicate _ l, rfl, rfl, ?_, rfl, rfl, ?_,
    fun free => ?_⟩
  · rw [State.restartReset, State.scan_store, scanStore]
  · rw [State.restartReset, State.scan_store, scanStore]
    rfl
  · rw [State.restartReset, State.scan_store, scanStore]
    exact State.cellsAfterReset_of_none free

end Sys2Proof.Machine
end

section
/-! PROOF of O1, O3 and O60 (R168, log 1, log 12): the step, the reset values, and the invariants at reset. -/

namespace Sys2Proof.Machine

/-- Settles O1. -/
theorem stepRunsTheFrontCommandOrTicks : Obligations.StepRunsTheFrontCommandOrTicks := by
  refine ⟨fun s c rest pending => ?_, fun s pending => ⟨fun held => ?_, fun free => ⟨s.tick, ?_, ?_, ?_, s.tick_only⟩⟩⟩
  · rw [step, pending]
  all_goals have run : step s = .next s.tick := by rw [step, pending]
  · rw [run, State.tick, if_pos held]
  · exact run
  · rw [State.tick, if_neg (by simp [free])]
    rfl
  · intro l
    rw [State.tick, if_neg (by simp [free])]
    exact (Vector.get_eq_getElem ..).trans (Vector.getElem_map ..)

/-- Settles O3. -/
theorem resetPinGivesTheResetValues : Obligations.ResetPinGivesTheResetValues := by
  intro s
  refine ⟨_, exec_resetPin s, rfl, rfl, rfl, rfl, rfl, rfl, rfl, rfl, State.cellsAfterReset_of_none, ?_,
    fun n => get_replicate _ _, fun n => get_replicate _ n, fun n => get_replicate _ n, fun f => get_replicate _ f,
    fun b => get_replicate _ b, fun p => get_replicate _ p, rfl, rfl, fun p => get_replicate _ p, rfl, rfl, rfl, rfl,
    fun b => get_replicate _ b, fun b c => get_replicate _ (carIndex b c), fun l => get_replicate _ l, rfl, rfl, rfl, rfl,
    rfl, rfl, ?_, ?_⟩
  · intro g flying a outside
    have cells : s.cellsAfterReset = Store.writePage s.store.cells g.page (openPage s.freeCount g.page) := by
      rw [State.cellsAfterReset, flying]
    show Store.read s.cellsAfterReset a = _
    rw [cells]
    refine Store.read_writeBytes_out _ _ _ _ ?_
    have few : ((openPage s.freeCount g.page).take Config.pageBytes).length ≤ 512 := List.length_take_le _ _
    simp only [pageAddress, Config.pageBytes] at *
    omega
  · show ∀ k < 10, HostPort.resetEnables.getLsbD k = true ↔ k ≠ 2
    decide
  · show s.freeAfterReset = _
    unfold State.freeAfterReset
    cases s.store.programmer <;> rfl

/-- Settles O60. -/
theorem resetMeetsTheInvariants : Obligations.ResetMeetsTheInvariants := by
  have noBookings : State.reset.disp.bookings = [] := rfl
  have noTickets : State.reset.disp.tickets = [] := rfl
  have noProgram : State.reset.store.programmer = none := rfl
  have noRecord : ∀ p k, State.reset.store.record p k = none := fun p k => rfl
  have cars : ∀ b c, State.reset.car b c = Car.reset := fun b c => get_replicate _ (carIndex b c)
  have modes : ∀ b, State.reset.mode b = none := fun b => get_replicate _ b
  refine ⟨rfl, by simp [State.queueOk, State.reset, HostPort.reset], ⟨fun r h => (by cases h), rfl, rfl⟩,
    State.dirtyOk_of_reset rfl rfl, ?_, State.portsOk_of_reset rfl rfl, ?_, ?_, ?_, ?_, ?_, ?_⟩
  · exact (State.startingOk_iff _).2 ⟨fun _ => ⟨rfl, rfl⟩, fun _ => State.reset.resetAll_atRest State.reset.part⟩
  · rw [State.bookingsOk, noBookings]
    simp
  · rw [State.ticketsOk, noTickets]
    simp
  · intro b _
    rw [noBookings, noTickets]
    simp
  · refine ⟨fun p k q j r x _ _ h => ?_, fun g h => ?_⟩
    · cases (noRecord p k).symm.trans h
    · cases noProgram.symm.trans h
  · intro g h
    cases noProgram.symm.trans h
  · intro b c
    have none : State.reset.carBookings b c = [] := rfl
    rw [State.carOk, cars, none]
    have enabled : ∀ f : Floor, Car.reset.enabled.has f = false := by decide
    refine ⟨⟨fun e he => (by cases he), fun k hk => (by cases hk), List.nodup_nil, List.Pairwise.nil, ⟨fun _ => rfl, fun _ => rfl⟩⟩,
      fun f => ?_, fun e he => (by cases he), Nat.zero_le _, Nat.zero_le _, fun _ k hk => (by cases hk), fun _ => ⟨rfl, rfl⟩⟩
    rw [enabled]
    exact ⟨fun h => (by cases h), fun h => absurd rfl h.1⟩

end Sys2Proof.Machine
end

section
/-! PROOF of O48 (R164, R166, R174, R175): the ends and the choice of the transmitter. -/

namespace Sys2Proof.Machine

/-! ### The oldest report of a class (R174) -/

section
variable {cls : ReportClass} {q1 q2 : List Report} {r : Report} (own : r.cls = cls) (before : ∀ x ∈ q1, x.cls ≠ cls)
include own before

theorem removeOldest_append : removeOldest cls (q1 ++ r :: q2) = q1 ++ q2 := by
  induction q1 with
  | nil => exact if_pos own
  | cons x q1 ih =>
    rw [List.cons_append, removeOldest, if_neg (before x List.mem_cons_self),
      ih fun y hy => before y (List.mem_cons_of_mem _ hy)]
    rfl

theorem markOldest_append (gap : Bool) : markOldest cls gap (q1 ++ r :: q2) = q1 ++ { r with gap := gap } :: q2 := by
  induction q1 with
  | nil => exact if_pos own
  | cons x q1 ih =>
    rw [List.cons_append, markOldest, if_neg (before x List.mem_cons_self),
      ih fun y hy => before y (List.mem_cons_of_mem _ hy)]
    rfl

end

theorem oldestOf_isSome_iff {cls : ReportClass} {q : List Report} :
    (oldestOf cls q).isSome = true ↔ ∃ r ∈ q, r.cls = cls := by
  simp [oldestOf]

theorem headClass_of_urgent {q : List Report} (h : ∃ r ∈ q, r.cls = .urgent) : headClass q = some .urgent :=
  if_pos (oldestOf_isSome_iff.2 h)

theorem headClass_of_routine {q : List Report} (h : ∃ r ∈ q, r.cls = .routine) (all : ∀ r ∈ q, r.cls = .routine) :
    headClass q = some .routine := by
  rw [headClass, if_neg, if_pos (oldestOf_isSome_iff.2 h)]
  rw [oldestOf_isSome_iff]
  rintro ⟨r, hr, urgent⟩
  cases (all r hr).symm.trans urgent

/-! ### The choice of a free transmitter (R166, R174) -/

theorem HostPort.choose_of_ne {h : HostPort} (busy : h.tx ≠ .free) : h.choose = h := if_neg busy

section
variable {h : HostPort} (free : h.tx = .free)
include free

theorem HostPort.choose_reply {r : Reply} (reply : h.request = .replying r) : h.choose = { h with tx := .sendingReply } := by
  rw [HostPort.choose, if_pos free, reply]

variable (none : ∀ r, h.request ≠ .replying r)
include none

theorem HostPort.choose_of_no_reply :
    h.choose =
      if h.owedBusy.isSome then { h with tx := .sendingBusy }
      else
        match headClass h.queue with
        | .none => h
        | some cls => { h with tx := .sendingReport cls, queue := markOldest cls h.gap h.queue, gap := false } := by
  rw [HostPort.choose, if_pos free]
  split
  next r reply => exact absurd reply (none r)
  next => rfl

theorem HostPort.choose_owed (owed : h.owedBusy ≠ .none) : h.choose = { h with tx := .sendingBusy } := by
  rw [HostPort.choose_of_no_reply free none, if_pos (Option.isSome_iff_ne_none.2 owed)]

variable (notOwed : h.owedBusy = .none)
include notOwed

theorem HostPort.choose_report :
    h.choose =
      match headClass h.queue with
      | .none => h
      | some cls => { h with tx := .sendingReport cls, queue := markOldest cls h.gap h.queue, gap := false } := by
  rw [HostPort.choose_of_no_reply free none, if_neg (by simp [notOwed])]

theorem HostPort.choose_urgent {q1 q2 : List Report} {r : Report} (queue : h.queue = q1 ++ r :: q2)
    (urgent : r.cls = .urgent) (before : ∀ x ∈ q1, x.cls = .routine) :
    h.choose = { h with tx := .sendingReport .urgent, queue := q1 ++ { r with gap := h.gap } :: q2, gap := false } := by
  have head : headClass h.queue = some .urgent := headClass_of_urgent ⟨r, by simp [queue], urgent⟩
  rw [HostPort.choose_report free none notOwed, head, queue]
  simp only
  rw [markOldest_append urgent fun x hx e => by cases (before x hx).symm.trans e]

theorem HostPort.choose_routine {q2 : List Report} {r : Report} (queue : h.queue = r :: q2)
    (all : ∀ x ∈ h.queue, x.cls = .routine) :
    h.choose = { h with tx := .sendingReport .routine, queue := { r with gap := h.gap } :: q2, gap := false } := by
  have routine : r.cls = .routine := all r (by simp [queue])
  have head : headClass h.queue = some .routine := headClass_of_routine ⟨r, by simp [queue], routine⟩ all
  rw [HostPort.choose_report free none notOwed, head, queue]
  simp only [markOldest, if_pos routine]

theorem HostPort.choose_nothing (queue : h.queue = []) : h.choose = h := by
  have head : headClass h.queue = .none := by rw [queue]; rfl
  rw [HostPort.choose_report free none notOwed, head]

end

/-- Settles O48. -/
theorem transmitterEndsAndChoices : Obligations.TransmitterEndsAndChoices := by
  refine ⟨fun s => ⟨fun r sending reply type => ?_, fun sending => if_pos sending,
      fun cls q1 r q2 sending queue own before => ?_, fun idle => if_pos idle⟩,
    fun h free => ⟨fun r reply => HostPort.choose_reply free reply, fun none =>
      ⟨fun owed => HostPort.choose_owed free none owed, fun notOwed =>
        ⟨fun q1 r q2 queue urgent before => HostPort.choose_urgent free none notOwed queue urgent before,
          fun r q2 queue all => HostPort.choose_routine free none notOwed queue all,
          fun queue => HostPort.choose_nothing free none notOwed queue⟩⟩⟩⟩
  · change execReplySent s = _
    rw [execReplySent, if_pos sending, reply]
    exact congrArg _ (if_neg type)
  · change execReportSent s = _
    rw [execReportSent, sending]
    simp only
    rw [queue, removeOldest_append own before]
    rfl

end Sys2Proof.Machine
end

section
/-! PROOF of O28, O40, O41 and O42 (R129 to R147): line release, the choice of a line, its waits, and readback faults. -/

namespace Sys2Proof.Machine

/-! ### Line release (R146, R147) -/

/-- Settles O28. -/
theorem lineReleaseAndReturn : Obligations.LineReleaseAndReturn := by
  have asserted : ∀ (s : State) (l : Bank), exec (.lrqAsserted l) s = execLrqAsserted l s := fun _ _ => rfl
  have deasserted : ∀ (s : State) (l : Bank), exec (.lrqDeasserted l) s = execLrqDeasserted l s := fun _ _ => rfl
  refine ⟨fun s l => ⟨fun starting => ?_, fun running held => ?_⟩, fun s l running => ?_⟩
  · have stopped : s.running = false := State.running_eq_false starting
    rw [asserted, deasserted, execLrqAsserted, execLrqDeasserted, stopped]
    exact ⟨if_neg (by simp), if_neg (by simp)⟩
  · rw [deasserted, execLrqDeasserted]
    exact if_neg fun h => held h.2
  · have on : s.running = true := decide_eq_true running
    refine ⟨fun held => ⟨_, if_pos ⟨on, held⟩, ?_, ?_⟩, fun released => ⟨if_neg fun h => h.2 released, if_pos ⟨on, released⟩⟩⟩
    all_goals
      have line : ((((s.setLrq l true).setLine l (s.line l).release).post .routine
          (.lineState l (s.line l).state .released)).choose).line l = (s.line l).release := by
        rw [State.line_choose, State.line_post, State.line_setLine_self]
      rw [line]
    · rfl
    · exact ⟨rfl, rfl, rfl, rfl, rfl, rfl, rfl, rfl⟩

/-! ### The choice of a line (R141 to R143) -/

/-- A poll may begin (R142). -/
def Line.pollDue (r : Line) : Prop :=
  r.sweep ≠ none ∨ r.lastSweep = none ∨ ∃ t, r.lastSweep = some t ∧ t + 100 ≤ r.time

theorem Line.pollDue_iff {r : Line} : (r.sweep.isSome || r.sweepDue) = true ↔ r.pollDue := by
  unfold Line.pollDue Line.sweepDue
  cases r.sweep <;> cases r.lastSweep <;> simp

theorem Line.twoDeliveries_iff {r : Line} :
    r.twoDeliveries = true ↔ ∃ a b, r.history = [a, b] ∧ a ≠ .poll ∧ b ≠ .poll := by
  unfold Line.twoDeliveries
  rw [Bool.and_eq_true, decide_eq_true_eq, List.length_eq_two]
  constructor
  · rintro ⟨⟨a, b, history⟩, all⟩
    exact ⟨a, b, history, by simpa [history] using all⟩
  · rintro ⟨a, b, history, ha, hb⟩
    exact ⟨⟨a, b, history⟩, by simp [history, ha, hb]⟩

section
variable {s : State} {l : Bank}

theorem State.choice_delivery {c : CarNo} {rest : List CarNo} (queue : (s.line l).queue = c :: rest)
    (h : ¬ (s.line l).twoDeliveries = true ∨ ¬ (s.line l).pollDue) : s.choice l = s.beginDelivery l c := by
  rw [← Line.pollDue_iff] at h
  unfold State.choice
  simp only [queue]
  split
  · rfl
  next two => exact if_neg (h.resolve_left fun no => no (by simpa using two))

theorem State.choice_poll (h : (s.line l).queue = [] ∨ (s.line l).twoDeliveries = true) (due : (s.line l).pollDue) :
    s.choice l = (s.line l).beginPoll := by
  rw [← Line.pollDue_iff] at due
  unfold State.choice
  cases queue : (s.line l).queue with
  | nil =>
    simp only [queue]
    exact if_pos due
  | cons c rest =>
    have two := h.resolve_left (by simp [queue])
    simp only [queue]
    rw [two, if_neg (by simp), if_pos due]

theorem State.choice_nothing (queue : (s.line l).queue = []) (idle : ¬ (s.line l).pollDue) : s.choice l = s.line l := by
  rw [← Line.pollDue_iff] at idle
  unfold State.choice
  simp only [queue]
  exact if_neg idle

theorem exec_transactionChoice (running : s.part.state = .running) (idle : (s.line l).state = .idle) :
    exec (.transactionChoice l) s = .next (s.setLine l (s.choice l)) := if_pos ⟨decide_eq_true running, idle⟩

end

theorem Line.beginPoll_some {r : Line} {c : CarNo} (sweep : r.sweep = some c.val) :
    r.beginPoll = r.begin .poll c .poll .sweep := by
  have number : Fin.ofNat 8 c.val = c := Fin.ext (Nat.mod_eq_of_lt c.isLt)
  rw [Line.beginPoll, sweep]
  simp only [number]

theorem Line.beginPoll_none {r : Line} (sweep : r.sweep = none) :
    r.beginPoll = { r with sweep := some 0, lastSweep := some r.time }.begin .poll 0 .poll .sweep := by
  rw [Line.beginPoll, sweep]

/-- Settles O40. -/
theorem lineChoosesItsTransaction : Obligations.LineChoosesItsTransaction := by
  intro s l running idle r due two go deliver
  have choose := exec_transactionChoice running idle
  refine ⟨fun c rest queue h => ?_, fun h isDue => ⟨fun c sweep => ?_, fun sweep => ?_⟩, fun queue isDue => ?_⟩
  · rw [choose, State.choice_delivery queue (h.imp_left fun no two => no (Line.twoDeliveries_iff.1 two))]
    refine congrArg (fun x => Host.Outcome.next (s.setLine l x)) ?_
    unfold State.beginDelivery State.deliveryFrame
    by_cases pend : (s.car l c).recallDue = true
    · rw [if_pos pend]
      exact (if_pos pend).symm
    · rw [if_neg pend]
      exact (if_neg pend).symm
  · rw [choose, State.choice_poll (h.imp_right Line.twoDeliveries_iff.2) isDue, Line.beginPoll_some sweep]
    rfl
  · rw [choose, State.choice_poll (h.imp_right Line.twoDeliveries_iff.2) isDue, Line.beginPoll_none sweep]
    rfl
  · rw [choose, State.choice_nothing queue isDue, State.setLine_line]

/-! ### Waits (R130 to R134, R137, R138, R142) -/

theorem Line.listening_iff {r : Line} : r.listening = true ↔ r.state = .awaiting ∧ r.pausing = false := by
  simp [Line.listening]

theorem Line.listenFor_eq {r : Line} (awaiting : r.state = .awaiting) (heard : r.pausing = false) (n : Nat) :
    r.listenFor n = { r with rx := [], ends := some (r.time + n) } := by
  rw [Line.listenFor, ← awaiting, ← heard]

section
variable {s : State} {l : Bank} {t : Transaction}

theorem State.hear_eq (awaiting : (s.line l).state = .awaiting) (open' : (s.line l).pausing = false)
    (inHand : (s.line l).inHand = some t) (f : Transaction → State) : s.hear l f = f t := by
  rw [State.hear, if_pos (Line.listening_iff.2 ⟨awaiting, open'⟩), inHand]

theorem State.hearAnswer_own (awaiting : (s.line l).state = .awaiting) (open' : (s.line l).pausing = false)
    (inHand : (s.line l).inHand = some t) {a : Byte} (address : a.toNat = t.car.val) (x : Option CarAnswer) :
    s.hearAnswer l a x = s.takeAnswer l t x := by
  rw [State.hearAnswer, State.hear_eq awaiting open' inHand, if_pos address]

end

theorem State.choose_setLine {s : State} (sound : s.transmitterOk) (l : Bank) (x : Line) :
    (s.setLine l x).choose = s.setLine l x := State.choose_of_transmitterOk (s := s.setLine l x) sound

/-- Settles O41. -/
theorem linesSendWaitAndListen : Obligations.LinesSendWaitAndListen := by
  refine ⟨fun s l => ?_, fun s l t a => ?_⟩
  · intro r ended
    refine ⟨fun h => if_pos h, fun h => if_pos h, fun h p => if_pos ⟨h, p⟩, fun h => if_pos h, fun t h => ?_⟩
    change execSweepDue l s = _
    unfold execSweepDue
    split
    next u hu =>
      cases h.symm.trans hu
      rfl
    next no => cases h.symm.trans no
  · intro r awaiting open' inHand address sound
    have same := fun x => State.choose_setLine sound l x
    refine ⟨fun few => ?_, fun few => ?_⟩
    · change Host.Outcome.next (s.hearAnswer l a (some .hold)).choose = _
      rw [State.hearAnswer_own awaiting open' inHand address, State.takeAnswer, State.answerHold]
      simp only
      rw [if_pos (by omega), same, Line.listenFor_eq (by exact awaiting) (by exact open')]
    · change Host.Outcome.next (s.hearAnswer l a (some .resend)).choose = _
      rw [State.hearAnswer_own awaiting open' inHand address, State.takeAnswer, State.answerResend]
      rw [if_pos (by omega), same]

end Sys2Proof.Machine
end

section
/-! PROOF of O42 and O43 (R131 to R138): readback faults and failed attempts. -/

namespace Sys2Proof.Machine

/-! ### The end of a transaction (R132, R138, R140, R142) -/

section
variable (r : Line) (t : Transaction) (n : Nat)

theorem Line.rotate_eq (c : CarNo) : r.rotate c = { r with queue := deliveredOrder r.queue c } := by
  unfold Line.rotate deliveredOrder
  split <;> rfl

theorem Line.finish_of_delivery (delivery : t.source = .delivery) :
    r.finish t n =
      { r with
        history := (t.kind :: r.history).take 2, queue := deliveredOrder r.queue t.car, inHand := none, pausing := false,
        rx := [], ends := none } := by
  rw [Line.finish, Line.close, delivery]
  simp only [Line.rotate_eq, Line.record]

theorem Line.finish_of_sweep (sweep : t.source = .sweep) :
    r.finish t n =
      { r with
        history := (t.kind :: r.history).take 2, sweep := r.sweep.bind fun p => if p + 1 < n then some (p + 1) else none,
        inHand := none, pausing := false, rx := [], ends := none } := by
  rw [Line.finish, Line.close, sweep]
  rfl

/-- What every end leaves. -/
theorem Line.finish_fields :
    (r.finish t n).state = r.state ∧ (r.finish t n).inHand = none ∧ (r.finish t n).history = (t.kind :: r.history).take 2 ∧
      (r.finish t n).lastSweep = r.lastSweep ∧ (r.finish t n).mismatches = r.mismatches ∧
      (r.finish t n).faultMark = r.faultMark ∧ (r.finish t n).time = r.time := by
  cases h : t.source with
  | delivery => rw [Line.finish_of_delivery r t n h]; exact ⟨rfl, rfl, rfl, rfl, rfl, rfl, rfl⟩
  | sweep => rw [Line.finish_of_sweep r t n h]; exact ⟨rfl, rfl, rfl, rfl, rfl, rfl, rfl⟩

end

theorem State.line_of_lines_only {s t : State} {bs : List Block} (h : s.changesOnly bs t) (lines : .lines ∉ bs) (l : Bank) :
    t.line l = s.line l := by
  have same : t.lines = s.lines := h .lines lines
  rw [State.line, same, State.line]

section
variable (s : State) (l : Bank) (t : Transaction)

/-- R138: the end clears a fault mark while the mismatch count is 0. -/
def Line.cleared (r : Line) : Line := { r with faultMark := r.faultMark && !decide (r.mismatches = 0) }

theorem State.endTransaction_line_self :
    (s.endTransaction l t).line l = { (s.line l).finish t (s.bank l).carCount with state := .idle }.cleared := by
  unfold State.endTransaction State.clearFault
  generalize hx : { (s.line l).finish t (s.bank l).carCount with state := .idle } = x
  rw [State.line_setLine_self]
  unfold Line.cleared
  split
  next clears => rw [State.line_post, State.line_setLine_self, clears.1, decide_eq_true clears.2]; rfl
  next stays =>
    rw [State.line_setLine_self]
    cases mark : x.faultMark with
    | false => rw [Bool.false_and, ← mark]
    | true =>
      have nonzero : x.mismatches ≠ 0 := fun e => stays ⟨mark, e⟩
      simp only [nonzero, decide_false, Bool.not_false, Bool.and_true]
      rw [← mark]

theorem State.endTransaction_line_ne {h : Bank} (ne : h ≠ l) : (s.endTransaction l t).line h = s.line h := by
  unfold State.endTransaction State.clearFault
  split
  · rw [State.line_post, State.line_setLine_ne _ _ _ _ (Ne.symm ne), State.line_setLine_ne _ _ _ _ (Ne.symm ne)]
  · rw [State.line_setLine_ne _ _ _ _ (Ne.symm ne)]

/-- R138: a LINE_STATE report for a cleared mark, none else. -/
theorem State.endTransaction_host :
    (s.endTransaction l t).host =
      if (s.line l).faultMark = true ∧ (s.line l).mismatches = 0 then
        s.host.post { cls := .routine, clock := s.part.clock, body := .lineState l .fault .idle, gap := false }
      else s.host := by
  obtain ⟨-, -, -, -, mismatches, mark, -⟩ := Line.finish_fields (s.line l) t (s.bank l).carCount
  unfold State.endTransaction State.clearFault
  rw [State.line_setLine_self]
  simp only [mismatches, mark]
  split <;> rfl

end

/-- R138: the line of a third mismatch. -/
def Line.faulted (r : Line) (t : Transaction) (carCount : Nat) : Line :=
  { r.finish t carCount with state := .fault, mismatches := 3, faultMark := true, ends := some (r.time + 1000) }

theorem State.enterFault_eq (s : State) (l : Bank) (t : Transaction) :
    s.enterFault l t =
      (if (s.line l).faultMark = true then s.setLine l ((s.line l).faulted t (s.bank l).carCount)
      else (s.setLine l ((s.line l).faulted t (s.bank l).carCount)).post .urgent
        (.lineState l (s.line l).state .fault)) := rfl

theorem State.enterFault_line_self (s : State) (l : Bank) (t : Transaction) :
    (s.enterFault l t).line l = (s.line l).faulted t (s.bank l).carCount := by
  rw [State.enterFault_eq]
  split
  · rw [State.line_setLine_self]
  · rw [State.line_post, State.line_setLine_self]

theorem State.enterFault_line_ne (s : State) {l h : Bank} (t : Transaction) (ne : h ≠ l) :
    (s.enterFault l t).line h = s.line h := by
  rw [State.enterFault_eq]
  split
  · rw [State.line_setLine_ne _ _ _ _ (Ne.symm ne)]
  · rw [State.line_post, State.line_setLine_ne _ _ _ _ (Ne.symm ne)]

/-- R140, R142: what the end of a transaction does to sweep and queue. -/
theorem Line.finish_source (r : Line) (t : Transaction) (n : Nat) :
    (t.source = .sweep → (r.finish t n).queue = r.queue ∧
        ∀ p, r.sweep = some p → (r.finish t n).sweep = if p + 1 < n then some (p + 1) else none) ∧
      (t.source = .delivery → (r.finish t n).sweep = r.sweep ∧ (r.finish t n).queue = deliveredOrder r.queue t.car) := by
  refine ⟨fun sweep => ?_, fun delivery => ?_⟩
  · rw [Line.finish_of_sweep r t n sweep]
    refine ⟨rfl, fun p hp => ?_⟩
    simp only [hp, Option.bind_some]
  · rw [Line.finish_of_delivery r t n delivery]
    exact ⟨rfl, rfl⟩

/-- Settles O42. -/
theorem readbackMismatchBacksOffThenFaults : Obligations.ReadbackMismatchBacksOffThenFaults := by
  intro s l t r sending inHand
  have run : exec (.readbackMismatch l) s = .next (s.mismatch l t).choose := by
    change execReadbackMismatch l s = _
    rw [execReadbackMismatch, if_pos sending, inHand]
  refine ⟨fun few sound => ?_, fun many => ?_⟩
  · rw [run, State.mismatch]
    rw [if_pos few, State.choose_setLine sound]
  · have fault : s.mismatch l t = s.enterFault l t := if_neg (Nat.not_lt.2 many)
    rw [fault] at run
    obtain ⟨-, hand, history, lastSweep, -, -, -⟩ := Line.finish_fields r t (s.bank l).carCount
    obtain ⟨bySweep, byDelivery⟩ := Line.finish_source r t (s.bank l).carCount
    refine ⟨_, run, exec_changesOnly run, fun h ne => s.enterFault_line_ne t ne, ?_⟩
    rw [State.line_choose, State.enterFault_line_self]
    refine ⟨rfl, hand, rfl, rfl, rfl, history, lastSweep, bySweep, fun delivery => ?_, fun marked sound => ?_,
      fun clear => ?_⟩
    · obtain ⟨sweep, queue⟩ := byDelivery delivery
      exact ⟨sweep, fun out => queue.trans (if_neg out), fun listed => queue.trans (if_pos listed)⟩
    · rw [State.enterFault_eq, if_pos marked, State.choose_setLine sound]
      rfl
    · rw [State.enterFault_eq, if_neg (show ¬ (s.line l).faultMark = true by simpa using clear), show (s.line l).state = .sending from sending]
      rfl

end Sys2Proof.Machine
end

section
/-! PROOF of O43 (R131, R133, R134, R136, R182): each way in which an attempt fails. -/

namespace Sys2Proof.Machine

/-! ### A failed attempt (R136, R138) -/

/-- R136: what a failed attempt of `t` leaves. -/
def State.attemptFails (s : State) (l : Bank) (t : Transaction) (u : State) : Prop :=
  let r := s.line l
  let clears : Prop := t.attempt ≠ 1 ∧ r.faultMark = true ∧ r.mismatches = 0
  s.changesOnly [.lines, .host] u ∧ (∀ h, h ≠ l → u.line h = s.line h) ∧
    (clears →
      (u.line l).faultMark = false ∧
        u.host = (s.host.post { cls := .routine, clock := s.part.clock, body := .lineState l .fault .idle,
                                gap := false }).choose) ∧
    (¬ clears → (u.line l).faultMark = r.faultMark ∧ u.host = s.host) ∧
    (t.attempt = 1 →
      (u.line l).state = .sending ∧ (u.line l).inHand = some { t with attempt := 2, holds := 0, resends := 0 } ∧
      (u.line l).queue = r.queue ∧ (u.line l).history = r.history ∧ (u.line l).sweep = r.sweep) ∧
    (t.attempt ≠ 1 →
      (u.line l).state = .idle ∧ (u.line l).inHand = none ∧
      (u.line l).history = (t.kind :: r.history).take 2 ∧
      (t.source = .delivery → t.car ∈ r.queue →
        (u.line l).queue = (r.queue.filter fun c => c ≠ t.car) ++ [t.car]) ∧
      (t.source = .sweep → (u.line l).queue = r.queue ∧
        ∀ p, r.sweep = some p →
          (u.line l).sweep = if p + 1 < (s.bank l).carCount then some (p + 1) else none))

@[simp] theorem State.setLine_setLine (s : State) (l : Bank) (x y : Line) : (s.setLine l x).setLine l y = s.setLine l y := by
  simp [State.setLine, State.setLines]

/-- A line that differs in its counts, its receiver and its wait only. -/
structure Line.alike (r x : Line) : Prop where
  queue : x.queue = r.queue
  history : x.history = r.history
  sweep : x.sweep = r.sweep
  faultMark : x.faultMark = r.faultMark
  mismatches : x.mismatches = r.mismatches

theorem Line.alike.refl (r : Line) : r.alike r := ⟨rfl, rfl, rfl, rfl, rfl⟩

section
variable {s : State} {l : Bank} {t : Transaction} {x : Line} {n m : Nat}

theorem State.failAttempt_attemptFails (same : (s.line l).alike x)
    (inHand : x.inHand = some { t with holds := n, resends := m }) (sound : s.transmitterOk) :
    s.attemptFails l t ((s.setLine l x).failAttempt l).choose := by
  obtain ⟨queue, history, sweep, faultMark, mismatches⟩ := same
  have only : s.changesOnly [.lines, .host] ((s.setLine l x).failAttempt l).choose :=
    .step (State.choose_only _) (.step (State.failAttempt_only _ _) (.step (State.setLine_only _ _ _) (.refl _ _)))
  have hand : ((s.setLine l x).line l).inHand = some { t with holds := n, resends := m } := by
    rw [State.line_setLine_self, inHand]
  by_cases first : t.attempt = 1
  · have run : (s.setLine l x).failAttempt l =
        s.setLine l { x with inHand := some { t with attempt := 2, holds := 0, resends := 0 } }.startSending := by
      rw [State.failAttempt, hand]
      simp only
      rw [if_pos first, State.line_setLine_self, State.setLine_setLine]
    rw [run, State.choose_setLine sound] at only ⊢
    have line := State.line_setLine_self s l { x with inHand := some { t with attempt := 2, holds := 0, resends := 0 } }.startSending
    unfold State.attemptFails
    rw [line]
    exact ⟨only, fun h ne => State.line_setLine_ne _ _ _ _ (Ne.symm ne), fun clears => absurd first clears.1,
      fun _ => ⟨faultMark, rfl⟩, fun _ => ⟨rfl, rfl, queue, history, sweep⟩, fun second => absurd first second⟩
  · have run : (s.setLine l x).failAttempt l =
        (s.setLine l x).endTransaction l { t with holds := n, resends := m } := by
      rw [State.failAttempt, hand]
      exact if_neg first
    rw [run] at only ⊢
    have bank : (s.setLine l x).bank l = s.bank l := rfl
    obtain ⟨-, gone, ended, -, count, mark, -⟩ := Line.finish_fields x { t with holds := n, resends := m } (s.bank l).carCount
    obtain ⟨bySweep, byDelivery⟩ := Line.finish_source x { t with holds := n, resends := m } (s.bank l).carCount
    rw [queue, sweep] at bySweep
    unfold State.attemptFails
    refine ⟨only, fun h ne => ?_, fun clears => ?_, fun stays => ?_, fun one => absurd one first, fun _ => ?_⟩
    · rw [State.line_choose, State.endTransaction_line_ne _ _ _ ne, State.line_setLine_ne _ _ _ _ (Ne.symm ne)]
    · obtain ⟨-, marked, zero⟩ := clears
      rw [State.line_choose, State.endTransaction_line_self, State.line_setLine_self, bank]
      refine ⟨?_, ?_⟩
      · rw [Line.cleared]
        simp [count, mismatches, zero]
      · change ((s.setLine l x).endTransaction l _).host.choose = _
        rw [State.endTransaction_host, State.line_setLine_self, if_pos ⟨faultMark.trans marked, mismatches.trans zero⟩]
        rfl
    · have kept : ¬ (x.faultMark = true ∧ x.mismatches = 0) := fun h => stays ⟨first, faultMark ▸ h.1, mismatches ▸ h.2⟩
      have host : ((s.setLine l x).endTransaction l { t with holds := n, resends := m }).host = s.host := by
        rw [State.endTransaction_host, State.line_setLine_self, if_neg kept]
        rfl
      refine ⟨?_, ?_⟩
      · rw [State.line_choose, State.endTransaction_line_self, State.line_setLine_self, bank, Line.cleared]
        simp only [count, mark]
        rw [← faultMark]
        cases marked : x.faultMark with
        | false => rfl
        | true => simp [show x.mismatches ≠ 0 from fun e => kept ⟨marked, e⟩]
      · rw [State.choose_of_transmitterOk (by rw [State.transmitterOk, host]; exact sound), host]
    · rw [State.line_choose, State.endTransaction_line_self, State.line_setLine_self, bank]
      refine ⟨rfl, gone, ended.trans (by rw [history]), fun delivery listed => ?_, bySweep⟩
      exact (byDelivery delivery).2.trans (by rw [queue]; exact if_pos listed)

theorem State.failAttempt_self (inHand : (s.line l).inHand = some t) (sound : s.transmitterOk) :
    s.attemptFails l t (s.failAttempt l).choose := by
  have := State.failAttempt_attemptFails (n := t.holds) (m := t.resends) (Line.alike.refl (s.line l)) inHand sound
  rwa [State.setLine_line] at this

end

/-! ### The receiver of answers (R131, R182) -/

theorem answerRxByte_skip {b : Byte} (h : b ≠ 0x69) : answerRxByte [] b = .partly [] := if_neg h

theorem answerRxByte_partly {rest : List Byte} {b : Byte}
    (few : ∀ len, (rest ++ [b])[2]? = some len → (rest ++ [b]).length < len.toNat + 4) :
    answerRxByte (0x69 :: rest) b = .partly (0x69 :: (rest ++ [b])) := by
  match rest with
  | [] => rfl
  | [_] => rfl
  | [_, _] => rfl
  | a1 :: a2 :: len :: rest =>
    have short := few len rfl
    refine if_neg fun e => ?_
    simp only [List.length_cons, List.length_append] at e short
    omega

theorem answerRxByte_frame {a1 a2 len b : Byte} {body : List Byte} (whole : body.length = len.toNat) :
    answerRxByte (0x69 :: a1 :: a2 :: len :: body) b = .frame (0x69 :: a1 :: a2 :: len :: body ++ [b]) := by
  refine if_pos (show (0x69 :: a1 :: a2 :: len :: body ++ [b]).length = len.toNat + 5 from ?_)
  simp only [List.length_cons, List.length_append, List.length_nil]
  omega

section
variable {s : State} {l : Bank} {t : Transaction} (awaiting : (s.line l).state = .awaiting)
  (open' : (s.line l).pausing = false) (inHand : (s.line l).inHand = some t)
include awaiting open' inHand

theorem State.answerByte_partly {rx : List Byte} {b : Byte} (h : answerRxByte (s.line l).rx b = .partly rx) :
    s.answerByte l b = s.setLine l { s.line l with rx := rx } := by
  rw [State.answerByte, State.hear_eq awaiting open' inHand, h]

theorem State.answerByte_frame {bytes : List Byte} {b : Byte} (h : answerRxByte (s.line l).rx b = .frame bytes) :
    s.answerByte l b = s.takeAnswer l t (parseAnswer t.car bytes) := by
  rw [State.answerByte, State.hear_eq awaiting open' inHand, h]

/-- Bytes before a lead byte are skipped (R131). -/
theorem State.answerBytes_skipped (hunting : (s.line l).rx = []) {bs : List Byte} (h : ∀ x ∈ bs, x ≠ 0x69) :
    bs.foldl (State.answerByte l) s = s := by
  induction bs with
  | nil => rfl
  | cons b bs ih =>
    have stays : s.answerByte l b = s := by
      rw [State.answerByte_partly awaiting open' inHand (rx := []) (by rw [hunting]; exact answerRxByte_skip (h b List.mem_cons_self)),
        ← hunting, State.setLine_line]
    rw [List.foldl_cons, stays, ih fun x hx => h x (List.mem_cons_of_mem _ hx)]

/-- The bytes of an answer that is not complete stand in the receiver. -/
theorem State.answerBytes_partly (hunting : (s.line l).rx = []) {rest : List Byte}
    (few : ∀ len, rest[2]? = some len → rest.length < len.toNat + 4) :
    (0x69 :: rest).foldl (State.answerByte l) s = s.setLine l { s.line l with rx := 0x69 :: rest } := by
  induction rest using List.reverseRecOn with
  | nil =>
    rw [List.foldl_cons, List.foldl_nil, State.answerByte_partly awaiting open' inHand (rx := [0x69]) (by rw [hunting]; rfl)]
  | append_singleton rest b ih =>
    have before : ∀ len, rest[2]? = some len → rest.length < len.toNat + 4 := fun len h => by
      have := few len (by rw [List.getElem?_append_left (List.getElem?_eq_some_iff.1 h).1, h])
      rw [List.length_append] at this
      omega
    have line := State.line_setLine_self s l { s.line l with rx := 0x69 :: rest }
    rw [← List.cons_append, List.foldl_append, ih before, List.foldl_cons, List.foldl_nil,
      State.answerByte_partly (t := t) (rx := 0x69 :: (rest ++ [b])) (by rw [line]; exact awaiting) (by rw [line]; exact open')
        (by rw [line]; exact inHand) (by rw [line]; exact answerRxByte_partly few), line, State.setLine_setLine]
    rfl

end

/-! ### Bad answers (R131, R178, R182) -/

theorem directionOf_eq_none_iff {b : Byte} : directionOf b = none ↔ 3 ≤ b.toNat := by
  unfold directionOf
  split <;> simp_all
  omega

theorem Motion.ofCode_eq_none_iff {b : Byte} : Motion.ofCode b = none ↔ 2 ≤ b.toNat := by
  unfold Motion.ofCode
  split <;> simp_all
  omega

theorem Doors.ofCode_eq_none_iff {b : Byte} : Doors.ofCode b = none ↔ 4 ≤ b.toNat := by
  unfold Doors.ofCode
  split <;> simp_all
  omega

theorem CarMode.ofCode_eq_none_iff {b : Byte} : CarMode.ofCode b = none ↔ 4 ≤ b.toNat := by
  unfold CarMode.ofCode
  split <;> simp_all
  omega

theorem freshOf_eq_none_iff {b : Byte} : freshOf b = none ↔ b ≠ 1 ∧ b ≠ 2 := by
  rw [byte_ne_iff, byte_ne_iff]
  unfold freshOf
  split <;> simp_all

theorem callFloors_eq_none_iff {bs : List Byte} : callFloors bs = none ↔ ∃ f ∈ bs, 128 ≤ f.toNat := by
  induction bs with
  | nil => simp [callFloors]
  | cons b bs ih =>
    rw [callFloors, List.exists_mem_cons_iff, ← ih, ← floorOf_eq_none_iff]
    cases floorOf b.toNat <;> cases callFloors bs <;> simp

theorem checkStatus_eq_none_iff {position direction motion doors carMode load freshness held accepted : Byte}
    {calls : List Byte} :
    checkStatus position direction motion doors carMode load freshness held accepted calls = none ↔
      statusBad position direction motion doors carMode freshness calls := by
  rw [statusBad, ← floorOf_eq_none_iff, ← directionOf_eq_none_iff, ← Motion.ofCode_eq_none_iff, ← Doors.ofCode_eq_none_iff,
    ← CarMode.ofCode_eq_none_iff, ← freshOf_eq_none_iff, ← callFloors_eq_none_iff, checkStatus]
  split
  next many => exact ⟨fun _ => by simp [many], fun _ => rfl⟩
  next few =>
    split
    · simp [*]
    next no =>
      refine ⟨fun _ => ?_, fun _ => rfl⟩
      by_contra good
      simp only [not_or, Option.ne_none_iff_exists'] at good
      obtain ⟨⟨p, hp⟩, ⟨d, hd⟩, ⟨m, hm⟩, ⟨dr, hdr⟩, ⟨cm, hcm⟩, ⟨fr, hfr⟩, -, cs, hcs⟩ := good
      exact no p d m dr cm fr cs hp hd hm hdr hcm hfr hcs

/-- The ten bytes before the calls of a STATUS body (R182). -/
theorem body_eq_of_length {body : List Byte} (h : 10 ≤ body.length) :
    body = [byteAt body 0, byteAt body 1, byteAt body 2, byteAt body 3, byteAt body 4, byteAt body 5, byteAt body 6,
      byteAt body 7, byteAt body 8, byteAt body 9] ++ body.drop 10 := by
  match body, h with
  | _ :: _ :: _ :: _ :: _ :: _ :: _ :: _ :: _ :: _ :: _, _ => rfl

theorem parseAnswerBody_status_bad {body : List Byte}
    (bad : (∀ position direction motion doors carMode load freshness held accepted count : Byte, ∀ calls : List Byte,
          body = [position, direction, motion, doors, carMode, load, freshness, held, accepted, count] ++ calls →
          calls.length ≠ count.toNat) ∨
        ∃ position direction motion doors carMode load freshness held accepted count : Byte, ∃ calls : List Byte,
          body = [position, direction, motion, doors, carMode, load, freshness, held, accepted, count] ++ calls ∧
            statusBad position direction motion doors carMode freshness calls) :
    parseAnswerBody 1 body = none := by
  change (if 10 ≤ body.length ∧ body.length = 10 + (byteAt body 9).toNat then _ else none) = none
  split
  next whole =>
    obtain ⟨long, count⟩ := whole
    rcases bad with none | ⟨position, direction, motion, doors, carMode, load, freshness, held, accepted, count', calls, rfl, bad⟩
    · refine absurd ?_ (none _ _ _ _ _ _ _ _ _ _ _ (body_eq_of_length long))
      rw [List.length_drop]
      omega
    · exact congrArg (Option.map CarAnswer.status) (checkStatus_eq_none_iff.2 bad)
  next => rfl

theorem parseAnswer_of_bad {car : CarNo} {address kind len : Byte} {body : List Byte} {check : Byte}
    (bad : answerBad car address kind len body check) :
    parseAnswer car (0x69 :: address :: kind :: len :: body ++ [check]) = none := by
  have middle : ((0x69 :: address :: kind :: len :: body ++ [check]).drop 4).dropLast = body := by
    show (body ++ [check]).dropLast = body
    rw [List.dropLast_concat]
  unfold parseAnswer
  rw [middle, show byteAt (0x69 :: address :: kind :: len :: body ++ [check]) 1 = address from rfl,
    show byteAt (0x69 :: address :: kind :: len :: body ++ [check]) 2 = kind from rfl]
  rcases bad with sum | other | kinds | ⟨kinds, long⟩ | ⟨rfl, bad⟩
  · exact if_neg fun h => sum (of_decide_eq_true h.1)
  · exact if_neg fun h => other h.2
  · have none : parseAnswerBody kind body = none := by
      rw [byte_ne_iff, byte_ne_iff, byte_ne_iff] at kinds
      obtain ⟨n1, n2, n3⟩ := kinds
      unfold parseAnswerBody
      split
      next h => exact absurd h n1
      next h => exact absurd h n2
      next h => exact absurd h n3
      next => rfl
    rw [none, ite_self]
  · have none : parseAnswerBody kind body = none := by
      have long' : body.length ≠ 0 := fun e => long (List.eq_nil_of_length_eq_zero e)
      rcases kinds with rfl | rfl <;> exact if_neg long'
    rw [none, ite_self]
  · rw [parseAnswerBody_status_bad bad, ite_self]

/-! ### The ways in which an attempt fails -/

section
variable {s : State} {l : Bank} {t : Transaction} (awaiting : (s.line l).state = .awaiting)
  (open' : (s.line l).pausing = false) (hunting : (s.line l).rx = []) (inHand : (s.line l).inHand = some t)
  (sound : s.transmitterOk)
include awaiting open' inHand sound

theorem exec_answerWindowExpiry_fails (hunting : (s.line l).rx = []) :
    ∃ u, exec (.answerWindowExpiry l) s = .next u ∧ s.attemptFails l t u :=
  ⟨_, if_pos ⟨Line.listening_iff.2 ⟨awaiting, open'⟩, hunting⟩,
    State.failAttempt_attemptFails (n := t.holds) (m := t.resends) ⟨rfl, rfl, rfl, rfl, rfl⟩ inHand sound⟩

omit awaiting open' in
/-- An attempt that fails while an unfinished answer stands in the receiver. -/
theorem State.failAttempt_of_rx (rx : List Byte) :
    s.attemptFails l t ((s.setLine l { s.line l with rx := rx }).failAttempt l).choose :=
  State.failAttempt_attemptFails (n := t.holds) (m := t.resends) ⟨rfl, rfl, rfl, rfl, rfl⟩ inHand sound

theorem exec_answerByteTimeout_fails (hunting : (s.line l).rx = []) {skipped rest : List Byte}
    (skips : ∀ x ∈ skipped, x ≠ 0x69) (few : ∀ len, rest[2]? = some len → rest.length < len.toNat + 4) :
    ∃ u, exec (.answerByteTimeout l (skipped ++ 0x69 :: rest)) s = .next u ∧ s.attemptFails l t u := by
  refine ⟨_, rfl, ?_⟩
  rw [List.foldl_append, State.answerBytes_skipped awaiting open' inHand hunting skips,
    State.answerBytes_partly awaiting open' inHand hunting few]
  have line := State.line_setLine_self s l { s.line l with rx := 0x69 :: rest }
  rw [State.cutAnswer, State.hear_eq (t := t) (by rw [line]; exact awaiting) (by rw [line]; exact open')
    (by rw [line]; exact inHand), if_neg (by rw [line]; exact List.cons_ne_nil _ _)]
  exact State.failAttempt_of_rx inHand sound _

theorem exec_badAnswer_fails (hunting : (s.line l).rx = []) {skipped body : List Byte} {address kind len check : Byte}
    (skips : ∀ x ∈ skipped, x ≠ 0x69) (whole : body.length = len.toNat) (bad : answerBad t.car address kind len body check) :
    ∃ u, exec (.badAnswer l (skipped ++ [0x69, address, kind, len] ++ body ++ [check])) s = .next u ∧
      s.attemptFails l t u := by
  refine ⟨_, rfl, ?_⟩
  have bytes : skipped ++ [0x69, address, kind, len] ++ body ++ [check] =
      skipped ++ ((0x69 :: address :: kind :: len :: body) ++ [check]) := by simp
  have few : ∀ n, (address :: kind :: len :: body)[2]? = some n → (address :: kind :: len :: body).length < n.toNat + 4 := by
    intro n h
    cases h
    simp only [List.length_cons]
    omega
  have line := State.line_setLine_self s l { s.line l with rx := 0x69 :: address :: kind :: len :: body }
  rw [bytes, List.foldl_append, State.answerBytes_skipped awaiting open' inHand hunting skips, List.foldl_append,
    State.answerBytes_partly awaiting open' inHand hunting few, List.foldl_cons, List.foldl_nil,
    State.answerByte_frame (t := t) (by rw [line]; exact awaiting) (by rw [line]; exact open') (by rw [line]; exact inHand)
      (by rw [line]; exact answerRxByte_frame whole), parseAnswer_of_bad bad]
  exact State.failAttempt_of_rx inHand sound _

/-- A complete answer that is bad, or names another car. -/
theorem State.hearAnswer_fails {a : Byte} {x : Option CarAnswer} (bad : a.toNat ≠ t.car.val ∨ x = none) :
    s.attemptFails l t (s.hearAnswer l a x).choose := by
  have none : (if a.toNat = t.car.val then x else none) = none := by
    rcases bad with other | rfl
    · exact if_neg other
    · exact ite_self _
  rw [State.hearAnswer, State.hear_eq awaiting open' inHand, none]
  exact State.failAttempt_self inHand sound

omit awaiting open' inHand in
theorem State.answerHold_fails (many : 4 ≤ t.holds) : s.attemptFails l t (s.answerHold l t).choose := by
  unfold State.answerHold
  simp only
  rw [if_neg (by omega)]
  exact State.failAttempt_attemptFails (n := t.holds + 1) (m := t.resends) ⟨rfl, rfl, rfl, rfl, rfl⟩ rfl sound

omit awaiting open' inHand in
theorem State.answerResend_fails (many : 3 ≤ t.resends) : s.attemptFails l t (s.answerResend l t).choose := by
  unfold State.answerResend
  rw [if_neg (by omega)]
  exact State.failAttempt_attemptFails (n := t.holds) (m := t.resends + 1) ⟨rfl, rfl, rfl, rfl, rfl⟩ rfl sound

end

/-- Settles O43: each cause comes to one failed attempt. -/
theorem failedAttemptsAreTriedTwice : Obligations.FailedAttemptsAreTriedTwice := by
  intro s l t c r clears awaiting open' hunting inHand sound cause
  have fails : ∃ u, exec c s = .next u ∧ s.attemptFails l t u := by
    rcases cause with rfl | ⟨skipped, rest, skips, few, rfl⟩ |
      ⟨skipped, address, kind, len, body, check, skips, whole, bad, rfl⟩ |
      ⟨a, position, direction, motion, doors, carMode, load, freshness, held, accepted, calls, bad, rfl⟩ |
      ⟨a, other, rfl | rfl⟩ | ⟨a, own, ⟨rfl, many⟩ | ⟨rfl, many⟩⟩
    · exact exec_answerWindowExpiry_fails awaiting open' inHand sound hunting
    · exact exec_answerByteTimeout_fails awaiting open' inHand sound hunting skips few
    · exact exec_badAnswer_fails awaiting open' inHand sound hunting skips whole bad
    · refine ⟨_, rfl, State.hearAnswer_fails awaiting open' inHand sound (bad.imp_right fun bad => ?_)⟩
      rw [checkStatus_eq_none_iff.2 bad]
      rfl
    · exact ⟨_, rfl, State.hearAnswer_fails awaiting open' inHand sound (.inl other)⟩
    · exact ⟨_, rfl, State.hearAnswer_fails awaiting open' inHand sound (.inl other)⟩
    · refine ⟨_, rfl, ?_⟩
      rw [State.hearAnswer_own awaiting open' inHand own]
      exact State.answerHold_fails sound many
    · refine ⟨_, rfl, ?_⟩
      rw [State.hearAnswer_own awaiting open' inHand own]
      exact State.answerResend_fails sound many
  obtain ⟨u, run, fails⟩ := fails
  exact ⟨u, run, fails⟩

end Sys2Proof.Machine
end

section
/-! PROOF of O29 and O7 (R43, R47, R49, R50, R162, R163): what a port and the Host Message Port settle at once, and
frames cut before their last byte. -/

namespace Sys2Proof.Machine

/-! ### Arrivals at a port (R47, R49, R50) -/

theorem State.answer_readerHunt {s : State} {p : PortNo} (noAnswer : (s.port p).shifter = none) (a : Answer) :
    (s.readerHunt p).answer p a = s.setPort p { s.port p with rx := [], shifter := some a } := by
  rw [State.answer, State.port_readerHunt_self, State.readerHunt, State.setPort_setPort]
  simp [Port.send, noAnswer]

theorem State.choose_setPort {s : State} (sound : s.transmitterOk) (p : PortNo) (x : Port) :
    (s.setPort p x).choose = s.setPort p x := State.choose_of_transmitterOk (s := s.setPort p x) sound

theorem exec_ping (s : State) (p : PortNo) : exec (.ping p) s = .next ((s.readerHunt p).pingArrival p).choose := rfl

/-- R44: a kind byte 1 or 2 names a kind. -/
theorem exists_code_of_kind {kind : Byte} (h : kind = 1 ∨ kind = 2) : ∃ k : ReaderKind, kind = k.code := by
  rcases h with rfl | rfl
  · exact ⟨.kiosk, rfl⟩
  · exact ⟨.gate, rfl⟩

section
variable {s : State} {p : PortNo}

theorem State.pingArrival_answer (noAnswer : (s.port p).shifter = none)
    (enabled : ¬ (s.running = true ∧ (s.port p).state = .disabled)) :
    (s.readerHunt p).pingArrival p = s.setPort p { s.port p with rx := [], shifter := some (.pong s.part.state) } := by
  rw [State.pingArrival, State.port_readerHunt_self, if_neg (by simp [noAnswer])]
  exact (if_neg (by exact enabled)).trans (State.answer_readerHunt noAnswer _)

theorem State.pingArrival_ignored
    (h : (s.port p).shifter ≠ none ∨ (s.running = true ∧ (s.port p).state = .disabled)) :
    (s.readerHunt p).pingArrival p = s.readerHunt p := by
  unfold State.pingArrival
  rw [State.port_readerHunt_self]
  split
  · rfl
  next noAnswer => exact if_pos (h.resolve_left fun sending => noAnswer (Option.isSome_iff_ne_none.2 sending))

theorem State.presentArrival_starting (noAnswer : (s.port p).shifter = none) (starting : s.running = false)
    (badge : Badge) (floor : Byte) (k : ReaderKind) :
    (s.readerHunt p).presentArrival p badge floor k = s.setPort p { s.port p with rx := [], shifter := some .retry } := by
  have stopped : (!(s.readerHunt p).running) = true := by
    show (!s.running) = true
    rw [starting]
    rfl
  rw [State.presentArrival, State.port_readerHunt_self, if_neg (by simp [noAnswer]), if_pos stopped]
  exact State.answer_readerHunt noAnswer _

section
variable (running : s.running = true) (badge : Badge) (floor : Byte) (k : ReaderKind)
include running

theorem State.presentArrival_running (noAnswer : (s.port p).shifter = none) :
    (s.readerHunt p).presentArrival p badge floor k =
      match (s.port p).state with
      | .disabled | .answering => s.readerHunt p
      | .pending | .deferred => (s.readerHunt p).answer p .retry
      | .idle => (s.readerHunt p).presentIdle p badge floor k := by
  have on : ¬ (!(s.readerHunt p).running) = true := by
    show ¬ (!s.running) = true
    rw [running]
    decide
  rw [State.presentArrival, State.port_readerHunt_self, if_neg (by simp [noAnswer]), if_neg on] <;> rfl

theorem State.presentArrival_ignored (h : (s.port p).shifter ≠ none ∨ (s.port p).state = .disabled) :
    (s.readerHunt p).presentArrival p badge floor k = s.readerHunt p := by
  by_cases noAnswer : (s.port p).shifter = none
  · rw [State.presentArrival_running running badge floor k noAnswer, h.resolve_left (not_not.2 noAnswer)]
  · rw [State.presentArrival, State.port_readerHunt_self]
    exact if_pos (Option.isSome_iff_ne_none.2 noAnswer)

theorem State.presentArrival_retry (noAnswer : (s.port p).shifter = none)
    (busy : (s.port p).state = .pending ∨ (s.port p).state = .deferred) :
    (s.readerHunt p).presentArrival p badge floor k = s.setPort p { s.port p with rx := [], shifter := some .retry } := by
  rw [State.presentArrival_running running badge floor k noAnswer]
  rcases busy with e | e <;> rw [e] <;> exact State.answer_readerHunt noAnswer _

end

/-- R50 steps 1 to 3: a tap that fails its checks. -/
theorem State.presentIdle_bad {badge : Badge} {floor : Byte} {k : ReaderKind}
    (bad : badge = 0 ∨ badge = 4294967295 ∨ k ≠ (s.reader p).kind ∨
       ((s.reader p).kind = .kiosk ∧ 128 ≤ floor.toNat ∧ floor ≠ 255)) :
    s.presentIdle p badge floor k = s.denyTap p badge := by
  unfold State.presentIdle
  split
  · rfl
  next checked =>
    rw [Bool.or_eq_true, badBadge_iff, decide_eq_true_eq] at checked
    obtain ⟨kiosk, far, present⟩ : (s.reader p).kind = .kiosk ∧ 128 ≤ floor.toNat ∧ floor ≠ 255 := by
      rcases bad with b | b | b | b
      · exact absurd (.inl (.inl b)) checked
      · exact absurd (.inl (.inr b)) checked
      · exact absurd (.inr b) checked
      · exact b
    have none : requestedFloor (s.reader p).kind floor = none := by
      rw [kiosk, requestedFloor, if_neg present, floorOf_eq_none_iff.2 far]
      rfl
    rw [none]

end

theorem State.setPort_port (s : State) (p : PortNo) : s.setPort p (s.port p) = s := by
  simp [State.setPort, State.setPorts, State.port, Vector.get_eq_getElem]

/-! ### A cut frame on a reader line (R43) -/

theorem readerRxByte_partly {len b : Byte} {rest : List Byte} (few : (rest ++ [b]).length ≤ len.toNat) :
    readerRxByte (0x5A :: len :: rest) b = .partly (0x5A :: len :: (rest ++ [b])) := by
  refine if_neg (show ¬ (0x5A :: len :: rest ++ [b]).length = len.toNat + 3 from fun e => ?_)
  simp only [List.length_cons, List.length_append, List.length_nil] at e few
  omega

theorem State.readerByte_partly {s : State} {p : PortNo} {b : Byte} {rx : List Byte}
    (h : readerRxByte (s.port p).rx b = .partly rx) : s.readerByte p b = s.setPort p { s.port p with rx := rx } := by
  rw [State.readerByte, h]

theorem State.readerBytes_partly {s : State} {p : PortNo} {len : Byte} {rest : List Byte} (hunting : (s.port p).rx = [])
    (few : rest.length ≤ len.toNat) :
    (0x5A :: len :: rest).foldl (State.readerByte p) s = s.setPort p { s.port p with rx := 0x5A :: len :: rest } := by
  induction rest using List.reverseRecOn with
  | nil =>
    have line := State.port_setPort_self s p { s.port p with rx := [0x5A] }
    have lead : s.readerByte p 0x5A = s.setPort p { s.port p with rx := [0x5A] } :=
      State.readerByte_partly (by rw [hunting]; rfl)
    rw [List.foldl_cons, lead, List.foldl_cons, List.foldl_nil,
      State.readerByte_partly (rx := [0x5A, len]) (by rw [line]; rfl), line, State.setPort_setPort]
  | append_singleton rest b ih =>
    have before : rest.length ≤ len.toNat := by
      rw [List.length_append] at few
      omega
    have line := State.port_setPort_self s p { s.port p with rx := 0x5A :: len :: rest }
    rw [← List.cons_append, ← List.cons_append, List.foldl_append, ih before, List.foldl_cons, List.foldl_nil,
      State.readerByte_partly (rx := 0x5A :: len :: (rest ++ [b])) (by rw [line]; exact readerRxByte_partly few), line,
      State.setPort_setPort]
    rfl

/-- Settles O29. -/
theorem portAnswersAtOnce : Obligations.PortAnswersAtOnce := by
  refine ⟨fun s p badge floor kind starting sound noAnswer coded => ?_,
    fun s p badge floor kind running sound coded => ⟨fun ignored => ?_, fun noAnswer => ⟨fun enabled => ?_, fun busy => ?_⟩⟩,
    fun s p badge floor kind k running noAnswer idle coded bad => ?_, fun s p len rest sound few hunting => ?_⟩
  · obtain ⟨k, rfl⟩ := exists_code_of_kind coded
    have stopped := State.running_eq_false starting
    rw [exec_ping, exec_present_code, State.pingArrival_answer noAnswer (by simp [stopped]),
      State.presentArrival_starting noAnswer stopped, State.choose_setPort sound, State.choose_setPort sound, starting]
    exact ⟨rfl, rfl⟩
  · obtain ⟨k, rfl⟩ := exists_code_of_kind coded
    have on : s.running = true := decide_eq_true running
    rw [exec_ping, exec_present_code, State.pingArrival_ignored (ignored.imp_right fun h => ⟨on, h⟩),
      State.presentArrival_ignored on _ _ _ ignored, State.readerHunt, State.choose_setPort sound]
    exact ⟨rfl, rfl⟩
  · rw [exec_ping, State.pingArrival_answer noAnswer fun h => enabled h.2, State.choose_setPort sound, running]
  · obtain ⟨k, rfl⟩ := exists_code_of_kind coded
    rw [exec_present_code, State.presentArrival_retry (decide_eq_true running) _ _ _ noAnswer busy,
      State.choose_setPort sound]
  · subst coded
    rw [exec_present_code, State.presentArrival_running (decide_eq_true running) _ _ _ noAnswer, idle]
    simp only
    rw [State.presentIdle_bad (s := s.readerHunt p) bad, State.denyTap, State.answerTap_readerHunt noAnswer]
    rfl
  · change Host.Outcome.next (((0x5A :: len :: rest).foldl (State.readerByte p) s).readerHunt p).choose = _
    have back : { s.port p with rx := [] } = s.port p := by rw [← hunting]
    rw [State.readerBytes_partly hunting few, State.readerHunt, State.port_setPort_self, State.setPort_setPort, back,
      State.setPort_port, State.choose_of_transmitterOk sound]

/-! ### A cut frame on the host line (R162) -/

theorem hostRxByte_partly {len b : Byte} {rest : List Byte} (few : (rest ++ [b]).length ≤ len.toNat) :
    hostRxByte (0xC3 :: len :: rest) b = .partly (0xC3 :: len :: (rest ++ [b])) := by
  refine if_neg (show ¬ (0xC3 :: len :: rest ++ [b]).length = len.toNat + 3 from fun e => ?_)
  simp only [List.length_cons, List.length_append, List.length_nil] at e few
  omega

theorem State.hostByte_partly {s : State} {b : Byte} {rx : List Byte} (h : hostRxByte s.host.rx b = .partly rx) :
    s.hostByte b = s.setHost { s.host with rx := rx } := by
  rw [State.hostByte, h]

theorem State.hostBytes_partly {s : State} {len : Byte} {rest : List Byte} (hunting : s.host.rx = [])
    (range : 1 ≤ len.toNat ∧ len.toNat ≤ 250) (few : rest.length ≤ len.toNat) :
    (0xC3 :: len :: rest).foldl State.hostByte s = s.setHost { s.host with rx := 0xC3 :: len :: rest } := by
  induction rest using List.reverseRecOn with
  | nil =>
    have lead : s.hostByte 0xC3 = s.setHost { s.host with rx := [0xC3] } := State.hostByte_partly (by rw [hunting]; rfl)
    have length : hostRxByte [0xC3] len = .partly [0xC3, len] := if_neg (by omega)
    rw [List.foldl_cons, lead, List.foldl_cons, List.foldl_nil, State.hostByte_partly (rx := [0xC3, len]) length]
    rfl
  | append_singleton rest b ih =>
    have before : rest.length ≤ len.toNat := by
      rw [List.length_append] at few
      omega
    rw [← List.cons_append, ← List.cons_append, List.foldl_append, ih before, List.foldl_cons, List.foldl_nil,
      State.hostByte_partly (rx := 0xC3 :: len :: (rest ++ [b])) (hostRxByte_partly few)]
    rfl

/-! ### A frame that is not taken (R163) -/

theorem exec_not_taken {s : State} {c : Instr} {tag : Byte} {r : Request} (carried : requestOf c = some (tag, r))
    (busy : ¬ s.canTake) :
    exec c s = .next
      (match s.host.owedBusy with
       | none => s.hostHunt.setHost { s.hostHunt.host with owedBusy := some (r.type, tag) }
       | some _ => s.hostHunt).choose := by
  rw [exec_of_requestOf carried, State.hostFrame, State.goodFrame, State.takes_hostHunt busy]
  rfl

/-- Settles O7. -/
theorem framesAreTakenOrAnsweredBusy : Obligations.FramesAreTakenOrAnsweredBusy := by
  refine ⟨fun s type tag take => exec_refuse take (.undefinedType type) rfl rfl,
    fun s c tag r carried busy => ⟨fun none => ?_, fun owed => ?_⟩, fun s len rest _ few hunting low high => ?_⟩
  · rw [exec_not_taken carried busy, none]
    rfl
  · obtain ⟨x, hx⟩ := Option.ne_none_iff_exists'.1 owed
    rw [exec_not_taken carried busy, hx]
    rfl
  · change Host.Outcome.next ((0xC3 :: len :: rest).foldl State.hostByte s).hostHunt = _
    have back : { s.host with rx := [] } = s.host := by rw [← hunting]
    rw [State.hostBytes_partly hunting ⟨low, high⟩ few]
    exact congrArg (fun h => Host.Outcome.next (s.setHost h)) back

end Sys2Proof.Machine
end

section
/-! SUPPORT. The records of the store when a program completes or fails (R2, R13, R14, R15), and what a request may
begin. -/

namespace Sys2Proof.Machine

/-! ### The record that a slot's bytes hold on a page -/

/-- R3, R19: the record of 28 bytes on a page of its probe range. -/
def slotRecord (p : Nat) (bs : List Byte) : Option Credential :=
  match decodeCredential bs with
  | some r => if p ∈ probeRange r.badge then some r else none
  | none => none

theorem rawRecord_eq (m : List Host.Cell) (p k : Nat) : rawRecord m p k = slotRecord p (slotRead m p k) := rfl

theorem slotRecord_encodeCredential {p : Nat} {r : Credential} (h : r.storable) (range : p ∈ probeRange r.badge) :
    slotRecord p (encodeCredential r) = some r := by
  unfold slotRecord
  rw [decodeCredential_encodeCredential h]
  exact if_pos range

theorem slotRecord_freeSlot (p : Nat) : slotRecord p freeSlot = none := by
  have free : decodeCredential freeSlot = none := by decide +kernel
  unfold slotRecord
  rw [free]

theorem StoreBlock.record_eq (st : StoreBlock) (p k : Nat) :
    st.record p k = if st.bad p || st.freed.contains (p, k) then none else slotRecord p (slotRead st.cells p k) := rfl

theorem StoreBlock.record_storable {st : StoreBlock} {p k : Nat} {r : Credential} (h : st.record p k = some r) :
    r.storable ∧ p ∈ probeRange r.badge := by
  obtain ⟨-, -, raw⟩ := StoreBlock.record_eq_some_iff.1 h
  obtain ⟨decoded, range⟩ := rawRecord_eq_some_iff.1 raw
  exact ⟨decodeCredential_storable decoded, range⟩

theorem StoreBlock.record_of_policyPage {st : StoreBlock} {p k : Nat} (h : 2048 ≤ p) : st.record p k = none := by
  cases held : st.record p k with
  | none => rfl
  | some r => exact absurd (probeRange_lt (StoreBlock.record_storable held).2) (by omega)

theorem StoreBlock.record_of_bad {st : StoreBlock} {p k : Nat} (h : st.bad p = true) : st.record p k = none := by
  rw [StoreBlock.record_eq, h]
  rfl

/-- Only bytes, BAD pages and freed slots make a record. -/
theorem StoreBlock.record_congr {st st' : StoreBlock} {p k : Nat} (bad : st'.bad p = st.bad p)
    (freed : st'.freed.contains (p, k) = st.freed.contains (p, k)) (bytes : slotRead st'.cells p k = slotRead st.cells p k) :
    st'.record p k = st.record p k := by
  rw [StoreBlock.record_eq, StoreBlock.record_eq, bad, freed, bytes]

/-! ### A completed page (R14) -/

theorem slotRead_writePage_ne (m : List Host.Cell) {p q k : Nat} (ne : q ≠ p) (image : List Byte) (hk : k < 16) :
    slotRead (Store.writePage m p image) q k = slotRead m q k :=
  slotRead_congr fun i hi => Store.read_writePage_out m p q image _ ne (by simp only [Config.pageBytes]; omega)

section
variable (st : StoreBlock) (g : Program)

theorem StoreBlock.complete_cells : (st.complete g).cells = Store.writePage st.cells g.page g.image := rfl

theorem StoreBlock.complete_badPages :
    (st.complete g).badPages = st.badPages.map fun l => l.filter fun x => x ≠ g.page := rfl

theorem StoreBlock.complete_freed : (st.complete g).freed = st.freed.filter fun x => x.1 ≠ g.page := rfl

theorem StoreBlock.complete_programmer : (st.complete g).programmer = none := rfl

theorem StoreBlock.complete_stamp : (st.complete g).stamp = st.stamp := rfl

theorem StoreBlock.complete_bad_ne {p : Nat} (ne : p ≠ g.page) : (st.complete g).bad p = st.bad p := by
  rw [StoreBlock.bad, StoreBlock.bad, StoreBlock.complete_badPages]
  cases st.badPages with
  | none => rfl
  | some ps => simp [ne]

theorem StoreBlock.complete_bad_page {ps : List Nat} (pages : st.badPages = some ps) :
    (st.complete g).bad g.page = false := by
  rw [StoreBlock.bad, StoreBlock.complete_badPages, pages]
  simp

theorem StoreBlock.complete_record_ne {p k : Nat} (ne : p ≠ g.page) (hk : k < 16) :
    (st.complete g).record p k = st.record p k := by
  refine StoreBlock.record_congr (st.complete_bad_ne g ne) ?_ (slotRead_writePage_ne _ ne _ hk)
  rw [StoreBlock.complete_freed, Bool.eq_iff_iff, List.contains_iff_mem, List.contains_iff_mem, List.mem_filter]
  simp [ne]

theorem StoreBlock.complete_record_page {ps : List Nat} (pages : st.badPages = some ps) (k : Nat) :
    (st.complete g).record g.page k = slotRecord g.page (slotRead (st.complete g).cells g.page k) := by
  rw [StoreBlock.record_eq, st.complete_bad_page g pages, StoreBlock.complete_freed, Bool.false_or, if_neg]
  rw [List.contains_iff_mem, List.mem_filter]
  simp

end

theorem StoreBlock.record_of_unscanned {st : StoreBlock} (none : st.badPages = none) (p k : Nat) :
    st.record p k = .none := StoreBlock.record_of_bad (by rw [StoreBlock.bad, none])

/-! ### A credential page's image (R7 to R9) -/

section
variable {st : StoreBlock} {p k : Nat} {slot : List Byte}

theorem StoreBlock.credentialSlots_length : (st.credentialSlots p k slot).length = 16 := by
  simp [StoreBlock.credentialSlots]

theorem StoreBlock.credentialSlots_each (length : slot.length = 28) :
    ∀ x ∈ st.credentialSlots p k slot, x.length = 28 := by
  intro x hx
  obtain ⟨j, -, rfl⟩ := List.mem_map.1 hx
  split
  · exact length
  · split
    · exact encodeCredential_length _
    · rfl

theorem StoreBlock.credentialSlots_getElem? {j : Nat} (hj : j < 16) :
    (st.credentialSlots p k slot)[j]? = some
      (if j = k then slot
       else
         match st.record p j with
         | some r => encodeCredential r
         | none => freeSlot) := (st.imageSlots_credentialSlots p k slot).2 j hj

/-- The program of a credential page with one slot changed. -/
def credentialProgram (p n : Nat) (slots : List (List Byte)) (job : Job) : Program :=
  { page := p, image := writeImage p n slots, erase := false, job := job }

/-- R14: a completed credential page holds every record as it was but the one changed. -/
theorem StoreBlock.complete_record_credential {ps : List Nat} (pages : st.badPages = some ps)
    (wf : Store.wf st.cells = true) (length : slot.length = 28) (n : Nat) (job : Job) {q j : Nat} (hj : j < 16) :
    (st.complete (credentialProgram p n (st.credentialSlots p k slot) job)).record q j =
      if (q, j) = (p, k) then slotRecord p slot else st.record q j := by
  by_cases ne : q = p
  · subst ne
    have read := slotRead_writePage (p := q) (n := n) wf (StoreBlock.credentialSlots_each (st := st) (p := q) (k := k) length)
      StoreBlock.credentialSlots_length hj
    rw [StoreBlock.credentialSlots_getElem? hj] at read
    have bytes := Option.some.inj read
    refine (StoreBlock.complete_record_page st (credentialProgram q n (st.credentialSlots q k slot) job) pages j).trans ?_
    rw [StoreBlock.complete_cells]
    show slotRecord q (slotRead (Store.writePage st.cells q (writeImage q n (st.credentialSlots q k slot))) q j) = _
    rw [bytes]
    by_cases same : j = k
    · rw [if_pos same, if_pos (by rw [same])]
    · rw [if_neg same, if_neg fun e => same (Prod.mk.inj e).2]
      cases held : st.record q j with
      | none => exact slotRecord_freeSlot q
      | some r =>
        obtain ⟨stored, range⟩ := StoreBlock.record_storable held
        exact slotRecord_encodeCredential stored range
  · rw [if_neg fun e => ne (Prod.mk.inj e).1]
    exact StoreBlock.complete_record_ne st _ ne hj

end

/-! ### A slot that may be written (R7 to R9) -/

/-- Only the slot itself may hold the badge that is written there. -/
def StoreBlock.placeable (st : StoreBlock) (p k : Nat) (slot : List Byte) : Prop :=
  k < 16 ∧ slot.length = 28 ∧
    ∀ r, slotRecord p slot = some r → ∀ q j x, j < 16 → st.record q j = some x → x.badge = r.badge → (q, j) = (p, k)

theorem StoreBlock.badgesOnce_of_placeable {st st' : StoreBlock} {p k : Nat} {slot : List Byte} (once : st.badgesOnce)
    (place : st.placeable p k slot)
    (records : ∀ q j, j < 16 → st'.record q j = if (q, j) = (p, k) then slotRecord p slot else st.record q j) :
    st'.badgesOnce := by
  obtain ⟨-, -, alone⟩ := place
  intro p1 k1 p2 k2 r1 r2 h1 h2 held1 held2 same
  rw [records _ _ h1] at held1
  rw [records _ _ h2] at held2
  split at held1 <;> split at held2
  next e1 e2 => exact Prod.mk.inj (e1.trans e2.symm)
  next e1 _ => exact Prod.mk.inj (e1.trans (alone r1 held1 p2 k2 r2 h2 held2 same.symm).symm)
  next _ e2 => exact Prod.mk.inj ((alone r2 held2 p1 k1 r1 h1 held1 same).trans e2.symm)
  next => exact once p1 k1 p2 k2 r1 r2 h1 h2 held1 held2 same

section
variable {st : StoreBlock} {badge : Badge}

theorem StoreBlock.search_some {r : Credential} {p k : Nat} (h : st.search badge = some (r, p, k)) :
    st.record p k = some r ∧ r.badge = badge ∧ p ∈ probeRange badge ∧ k < 16 := by
  obtain ⟨i, place, held, same, -⟩ := StoreBlock.search_eq_some_iff.1 h
  exact ⟨held, same, mem_probeSlots.1 (List.mem_of_getElem? place)⟩

theorem StoreBlock.search_none (h : st.search badge = none) {q j : Nat} {x : Credential} (hj : j < 16)
    (held : st.record q j = some x) : x.badge ≠ badge := by
  intro same
  have range := (StoreBlock.record_storable held).2
  obtain ⟨i, place⟩ := List.mem_iff_getElem?.1 (mem_probeSlots.2 ⟨same ▸ range, hj⟩)
  exact StoreBlock.search_eq_none_iff.1 h i q j x place held same

theorem StoreBlock.placeable_of_found (once : st.badgesOnce) {old : Credential} {p k : Nat}
    (found : st.search badge = some (old, p, k)) {slot : List Byte} (length : slot.length = 28)
    (same : ∀ r, slotRecord p slot = some r → r.badge = badge) : st.placeable p k slot := by
  obtain ⟨held, own, -, hk⟩ := StoreBlock.search_some found
  refine ⟨hk, length, fun r hr q j x hj hx e => ?_⟩
  obtain ⟨rfl, rfl⟩ := once q j p k x old hj hk hx held ((e.trans (same r hr)).trans own.symm)
  rfl

theorem StoreBlock.placeable_of_missing (missing : st.search badge = none) {p k : Nat} (hk : k < 16)
    {slot : List Byte} (length : slot.length = 28) (same : ∀ r, slotRecord p slot = some r → r.badge = badge) :
    st.placeable p k slot :=
  ⟨hk, length, fun r hr _ _ _ hj hx e => absurd (e.trans (same r hr)) (StoreBlock.search_none missing hj hx)⟩

theorem StoreBlock.firstFree_some {p k : Nat} (h : st.firstFree badge = some (p, k)) :
    p ∈ probeRange badge ∧ k < 16 ∧ st.freeAt (p, k) := by
  unfold StoreBlock.firstFree at h
  have member := mem_probeSlots.1 (List.mem_of_find?_eq_some h)
  have free := List.find?_some (p := fun x : Nat × Nat => !st.bad x.1 && (st.record x.1 x.2).isNone) h
  exact ⟨member.1, member.2, StoreBlock.freeAt_iff.1 free⟩

end

theorem slotRecord_badge {p : Nat} {r x : Credential} (h : r.storable) (e : slotRecord p (encodeCredential r) = some x) :
    x = r := by
  unfold slotRecord at e
  rw [decodeCredential_encodeCredential h] at e
  simp only at e
  split at e
  · exact (Option.some.inj e).symm
  · cases e

theorem Credential.storable_setState {r : Credential} (h : r.storable) (st : BadgeState) :
    ({ r with state := st } : Credential).storable := by
  obtain ⟨badge, groups, personal, units, until_⟩ := h
  exact ⟨badge, groups, personal, units, until_⟩

end Sys2Proof.Machine
end

section
/-! PROOF of O59 (R7 to R9, R19): no two slots in use hold one badge number, now or at the completion of the program in
flight. -/

namespace Sys2Proof.Machine

/-! ### An erased and a spoiled page (R15, R16) -/

theorem slotRead_erased {m : List Host.Cell} (wf : Store.wf m = true) (p : Nat) {k : Nat} (hk : k < 16) :
    slotRead (Store.writePage m p eraseImage) p k = freeSlot := by
  have length : eraseImage.length = 512 := List.length_replicate
  rw [slotRead, pageRead_writePage wf length (by omega), bytesAt, eraseImage, List.drop_replicate, List.take_replicate,
    Nat.min_eq_left (by simp only [Config.pageBytes]; omega)]
  rfl

theorem mem_insertPage {p x : Nat} {l : List Nat} : x ∈ insertPage p l ↔ x = p ∨ x ∈ l := by
  induction l with
  | nil => simp [insertPage]
  | cons y ys ih =>
    rw [insertPage]
    split
    · simp
    · split
      next same => simp [same]
      · rw [List.mem_cons, ih, List.mem_cons]
        tauto

section
variable (st : StoreBlock) (n : Nat) (g : Program)

theorem StoreBlock.spoil_badPages : (st.spoil n g).badPages = st.badPages.map fun l => insertPage g.page l := rfl

theorem StoreBlock.spoil_bad {p : Nat} : (st.spoil n g).bad p = true ↔ p = g.page ∧ st.badPages ≠ none ∨ st.bad p = true := by
  rw [StoreBlock.bad, StoreBlock.bad, StoreBlock.spoil_badPages]
  cases st.badPages with
  | none => simp
  | some ps => simp [mem_insertPage]

theorem StoreBlock.spoil_freed : (st.spoil n g).freed = st.freed := by
  simp only [StoreBlock.spoil, StoreBlock.markBad]

theorem StoreBlock.spoil_cells : (st.spoil n g).cells = Store.writePage st.cells g.page (openPage n g.page) := by
  simp only [StoreBlock.spoil]

theorem StoreBlock.spoil_programmer : (st.spoil n g).programmer = none := rfl

/-- R15: a spoiled page holds no record; every other keeps its own. -/
theorem StoreBlock.spoil_record {p k : Nat} (hk : k < 16) :
    (st.spoil n g).record p k = if p = g.page then none else st.record p k := by
  by_cases scanned : st.badPages = none
  · rw [StoreBlock.record_of_unscanned scanned, ite_self]
    exact StoreBlock.record_of_unscanned (by rw [StoreBlock.spoil_badPages, scanned]; rfl) p k
  · split
    next same => exact StoreBlock.record_of_bad ((st.spoil_bad n g).2 (.inl ⟨same, scanned⟩))
    next ne =>
      refine StoreBlock.record_congr ?_ (by rw [st.spoil_freed n g]) ?_
      · rw [Bool.eq_iff_iff, st.spoil_bad n g]
        simp [ne]
      · rw [st.spoil_cells n g]
        exact slotRead_writePage_ne _ ne _ hk

end

/-! ### Badge numbers once -/

theorem StoreBlock.badgesOnce_of_subset {st st' : StoreBlock} (once : st.badgesOnce)
    (records : ∀ p k r, k < 16 → st'.record p k = some r → st.record p k = some r) : st'.badgesOnce :=
  fun p k q j r x hk hj hr hx same => once p k q j r x hk hj (records p k r hk hr) (records q j x hj hx) same

theorem StoreBlock.spoil_badgesOnce {st : StoreBlock} (once : st.badgesOnce) (n : Nat) (g : Program) :
    (st.spoil n g).badgesOnce := by
  refine StoreBlock.badgesOnce_of_subset once fun p k r hk held => ?_
  rw [st.spoil_record n g hk] at held
  split at held
  · cases held
  · exact held

/-- R14: a completed page without records takes none. -/
theorem StoreBlock.complete_badgesOnce_of_empty {st : StoreBlock} (once : st.badgesOnce) {g : Program}
    (empty : ∀ k, k < 16 → (st.complete g).record g.page k = none) : (st.complete g).badgesOnce := by
  refine StoreBlock.badgesOnce_of_subset once fun p k r hk held => ?_
  by_cases same : p = g.page
  · subst same
    cases (empty k hk).symm.trans held
  · exact (st.complete_record_ne g same hk).symm.trans held

theorem StoreBlock.complete_badgesOnce_of_policyPage {st : StoreBlock} (once : st.badgesOnce) {g : Program}
    (page : 2048 ≤ g.page) : (st.complete g).badgesOnce :=
  st.complete_badgesOnce_of_empty once fun _ _ => StoreBlock.record_of_policyPage page

theorem StoreBlock.badgesOnce_of_unscanned {st : StoreBlock} (unscanned : st.badPages = none) : st.badgesOnce := by
  intro p k q j r x _ _ held
  cases (StoreBlock.record_of_unscanned unscanned p k).symm.trans held

/-- R16: an erased page holds no record. -/
theorem StoreBlock.complete_record_erased {st : StoreBlock} (wf : Store.wf st.cells = true) {g : Program}
    (image : g.image = eraseImage) {k : Nat} (hk : k < 16) : (st.complete g).record g.page k = none := by
  cases pages : st.badPages with
  | none => exact StoreBlock.record_of_unscanned (by rw [StoreBlock.complete_badPages, pages]; rfl) _ _
  | some ps =>
    rw [st.complete_record_page g pages, StoreBlock.complete_cells, image, slotRead_erased wf _ hk]
    exact slotRecord_freeSlot _

theorem StoreBlock.complete_badgesOnce_of_placeable {st : StoreBlock} (wf : Store.wf st.cells = true) (once : st.badgesOnce)
    {p k : Nat} {slot : List Byte} (place : st.placeable p k slot) (n : Nat) (job : Job) :
    (st.complete (credentialProgram p n (st.credentialSlots p k slot) job)).badgesOnce := by
  cases pages : st.badPages with
  | none => exact StoreBlock.badgesOnce_of_unscanned (by rw [StoreBlock.complete_badPages, pages]; rfl)
  | some ps =>
    exact StoreBlock.badgesOnce_of_placeable once place fun q j hj =>
      st.complete_record_credential pages wf place.2.1 n job hj

/-! ### What a request may begin (R164) -/

/-- R7 to R9: a program's slots are a policy page's, or those of a credential page with one slot that may be written. -/
def StoreBlock.takesSlots (st : StoreBlock) (p : Nat) (slots : List (List Byte)) : Prop :=
  2048 ≤ p ∨ ∃ k slot, slots = st.credentialSlots p k slot ∧ (st.badgesOnce → st.placeable p k slot)

/-- R164: what a judgement begins is placed well, and the guards of LOAD-BANK and ERASE-PAGE hold (R16, R30). -/
def Verdict.sound (s : State) : Verdict → Prop
  | .refuse _ | .done .. => True
  | .write p slots job =>
    s.store.takesSlots p slots ∧ job ≠ .erase ∧ ∀ b r, job = .bank b r → s.isOut b = true
  | .erase p => p = 2084 → ∀ b, s.isOut b = true

section
variable (s : State)

theorem State.policyProgram_sound {j : Job} (item : j ≠ .credential ∧ j ≠ .erase)
    (guard : ∀ b r, j = .bank b r → s.isOut b = true) : (s.policyProgram j).sound s := by
  obtain ⟨notCredential, notErase⟩ := item
  refine ⟨.inl ?_, notErase, guard⟩
  cases j <;> simp only [Job.page] <;> first | omega | contradiction

theorem State.policyProgram_sound_other {j : Job} (item : j ≠ .credential ∧ j ≠ .erase) (other : ∀ b r, j ≠ .bank b r) :
    (s.policyProgram j).sound s := s.policyProgram_sound item fun b r e => absurd e (other b r)

theorem State.credentialProgram_sound {p k : Nat} {slot : List Byte} (place : s.store.badgesOnce → s.store.placeable p k slot) :
    (s.credentialProgram p k slot).sound s :=
  ⟨.inr ⟨k, slot, rfl, place⟩, Job.noConfusion, fun _ _ e => Job.noConfusion e⟩

theorem State.policyOr_sound {j : Option Job}
    (item : ∀ x, j = some x → (x ≠ .credential ∧ x ≠ .erase) ∧ ∀ b r, x ≠ .bank b r) : (s.policyOr j).sound s := by
  cases j with
  | none => trivial
  | some x => exact s.policyProgram_sound_other (item x rfl).1 (item x rfl).2

theorem State.judgeEnroll_sound (r : Option Credential) (checked : ∀ x, r = some x → x.storable) :
    (s.judgeEnroll r).sound s := by
  cases r with
  | none => trivial
  | some r =>
    have sound := checked r rfl
    have same : ∀ p x, slotRecord p (encodeCredential r) = some x → x.badge = r.badge :=
      fun p x e => congrArg Credential.badge (slotRecord_badge sound e)
    show (s.placeRecord r).sound s
    cases found : s.store.search r.badge with
    | some x =>
      obtain ⟨old, p, k⟩ := x
      rw [State.placeRecord_found found]
      exact s.credentialProgram_sound fun once =>
        StoreBlock.placeable_of_found once found (encodeCredential_length r) (same p)
    | none =>
      rw [State.placeRecord_missing found]
      split
      next p k free =>
        exact s.credentialProgram_sound fun _ =>
          StoreBlock.placeable_of_missing found (StoreBlock.firstFree_some free).2.1 (encodeCredential_length r) (same p)
      · trivial

theorem State.withBadge_sound (badge : Badge) {go : Credential → Nat → Nat → Verdict}
    (h : ∀ r p k, s.store.search badge = some (r, p, k) → (go r p k).sound s) : (s.withBadge badge go).sound s := by
  unfold State.withBadge
  split
  · trivial
  · split
    next r p k found => exact h r p k (StoreBlock.answer_eq_found_iff.1 found)
    all_goals trivial

theorem State.judge_sound (r : Request) : (s.judge r).sound s := by
  cases r with
  | setClock =>
    simp only [State.judge, State.judgeSetClock]
    split <;> trivial
  | setNextDay =>
    simp only [State.judge, State.judgeSetNextDay]
    split <;> trivial
  | loadSite => exact s.policyProgram_sound_other ⟨nofun, nofun⟩ nofun
  | loadFloor =>
    simp only [State.judge, State.judgeLoadFloor]
    split
    · split
      · exact s.policyProgram_sound_other ⟨nofun, nofun⟩ nofun
      · trivial
    · trivial
  | loadBank =>
    simp only [State.judge, State.judgeLoadBank]
    split
    · trivial
    · split
      · trivial
      · split
        next out =>
          refine s.policyProgram_sound ⟨nofun, nofun⟩ fun b r e => ?_
          cases e
          exact out
        · trivial
  | loadReader =>
    refine s.policyOr_sound fun x e => ?_
    split at e
    · obtain ⟨_, -, rfl⟩ := Option.map_eq_some_iff.1 e
      exact ⟨⟨nofun, nofun⟩, nofun⟩
    · cases e
  | loadGroup =>
    refine s.policyOr_sound fun x e => ?_
    split at e
    · obtain ⟨_, -, rfl⟩ := Option.map_eq_some_iff.1 e
      exact ⟨⟨nofun, nofun⟩, nofun⟩
    · cases e
  | loadProfile =>
    refine s.policyOr_sound fun x e => ?_
    split at e
    · split at e
      · cases e
      · obtain ⟨_, -, rfl⟩ := Option.map_eq_some_iff.1 e
        exact ⟨⟨nofun, nofun⟩, nofun⟩
    · cases e
  | loadTenant =>
    refine s.policyOr_sound fun x e => ?_
    split at e
    · obtain ⟨_, -, rfl⟩ := Option.map_eq_some_iff.1 e
      exact ⟨⟨nofun, nofun⟩, nofun⟩
    · cases e
  | enroll => exact s.judgeEnroll_sound _ fun _ e => checkCredential_storable e
  | revoke badge =>
    refine s.withBadge_sound badge fun r p k found => s.credentialProgram_sound fun once => ?_
    refine StoreBlock.placeable_of_found once found rfl fun x e => ?_
    cases (slotRecord_freeSlot p).symm.trans e
  | setBadgeState badge state =>
    simp only [State.judge, State.judgeSetBadgeState]
    split
    · trivial
    next st _ =>
      refine s.withBadge_sound badge fun r p k found => s.credentialProgram_sound fun once => ?_
      obtain ⟨held, own, -⟩ := StoreBlock.search_some found
      have sound := Credential.storable_setState (StoreBlock.record_storable held).1 st
      refine StoreBlock.placeable_of_found once found (encodeCredential_length _) fun x e => ?_
      rw [slotRecord_badge sound e]
      exact own
  | erasePage page =>
    simp only [State.judge, State.judgeErasePage]
    split
    · trivial
    · split
      · trivial
      next free =>
        intro at_page b
        by_contra busy
        exact free (State.eraseGuarded_iff.2 (.inl ⟨at_page, b, fun e => busy (State.isOut_iff.2 e)⟩))
  | setBankMode =>
    simp only [State.judge, State.judgeSetBankMode]
    split
    · split
      · trivial
      · exact s.policyProgram_sound_other ⟨nofun, nofun⟩ nofun
    · trivial
  | setCarService =>
    simp only [State.judge, State.judgeSetCarService]
    split
    · exact s.policyProgram_sound_other ⟨nofun, nofun⟩ nofun
    · trivial
  | setFloorState =>
    simp only [State.judge, State.judgeSetFloorState]
    split
    · exact s.policyProgram_sound_other ⟨nofun, nofun⟩ nofun
    · trivial
  | setReports =>
    simp only [State.judge, State.judgeSetReports]
    split <;> trivial
  | queryBadge badge => exact s.withBadge_sound badge fun _ _ _ _ => trivial
  | queryCar =>
    simp only [State.judge, State.judgeQueryCar]
    split <;> trivial
  | queryBookings =>
    simp only [State.judge, State.judgeQueryBookings]
    split <;> trivial
  | queryPart => trivial
  | restart => trivial
  | undefinedType => trivial

/-- R164: a taken request leaves the store, or begins the program of its judgement. -/
theorem State.takeRequest_store (tag : Byte) (r : Request) :
    (s.takeRequest tag r).store = s.store ∨
      (∃ p slots job, s.judge r = .write p slots job ∧ (s.takeRequest tag r).store = s.store.beginWrite p slots job) ∨
      ∃ p, s.judge r = .erase p ∧ (s.takeRequest tag r).store = s.store.beginErase p := by
  have only := s.judge_within r
  unfold State.takeRequest
  split
  · exact .inl rfl
  next t _ e =>
    rw [e] at only
    rw [State.reply_store]
    exact .inl (only.2 .store only.1)
  next p slots job e => exact .inr (.inl ⟨p, slots, job, e, rfl⟩)
  next p e => exact .inr (.inr ⟨p, e, rfl⟩)

theorem State.hostFrame_store (tag : Byte) (r : Request) :
    (s.hostFrame tag r).store = s.store ∨
      (∃ p slots job, s.hostHunt.judge r = .write p slots job ∧
        (s.hostFrame tag r).store = s.store.beginWrite p slots job) ∨
      ∃ p, s.hostHunt.judge r = .erase p ∧ (s.hostFrame tag r).store = s.store.beginErase p := by
  show (s.hostHunt.goodFrame tag r).store = _ ∨ _
  unfold State.goodFrame
  split
  next takes =>
    have whole : s.hostFrame tag r = (s.hostHunt.takeRequest tag r).choose := by
      rw [State.hostFrame, State.goodFrame, if_pos takes]
    rw [whole]
    exact s.hostHunt.takeRequest_store tag r
  · split <;> exact .inl rfl

/-! ### Every command -/

theorem State.hostFrame_badgesOk {s : State} (wf : s.storeOk) (h : s.badgesOk) (tag : Byte) (r : Request) :
    (s.hostFrame tag r).badgesOk := by
  obtain ⟨once, flight⟩ := h
  have sound := s.hostHunt.judge_sound r
  rw [State.badgesOk]
  rcases s.hostFrame_store tag r with same | ⟨p, slots, job, judged, begun⟩ | ⟨p, judged, begun⟩
  · rw [same]
    exact ⟨once, flight⟩
  · rw [judged] at sound
    obtain ⟨slotsOk, -⟩ := sound
    rw [begun]
    refine ⟨once, fun g e => ?_⟩
    cases e
    rcases slotsOk with page | ⟨k, slot, rfl, place⟩
    · exact StoreBlock.complete_badgesOnce_of_policyPage (st := s.store) once page
    · exact StoreBlock.complete_badgesOnce_of_placeable (st := s.store) wf once (place once) _ job
  · rw [begun]
    refine ⟨once, fun g e => ?_⟩
    cases e
    exact s.store.complete_badgesOnce_of_empty once fun k hk =>
      StoreBlock.complete_record_erased (st := s.store) wf (g := ⟨p, eraseImage, true, .erase⟩) rfl hk

theorem State.hostByte_badgesOk {s : State} (wf : s.storeOk) (h : s.badgesOk) (b : Byte) : (s.hostByte b).badgesOk := by
  unfold State.hostByte
  split
  · exact h
  · split
    · exact h
    · exact s.hostFrame_badgesOk wf h _ _

theorem State.hostBytes_badgesOk {s : State} (wf : s.storeOk) (h : s.badgesOk) (bs : List Byte) :
    (bs.foldl State.hostByte s).badgesOk := by
  induction bs generalizing s with
  | nil => exact h
  | cons b bs ih =>
    refine ih ?_ (s.hostByte_badgesOk wf h b)
    rw [State.storeOk, s.hostByte_cells b]
    exact wf

end

theorem State.badgesOk_of_idle {s : State} (once : s.store.badgesOnce) (idle : s.store.programmer = none) : s.badgesOk :=
  ⟨once, fun g e => by cases idle.symm.trans e⟩

theorem State.resetAll_badgesOk (s : State) (part : Part) : (s.resetAll part).badgesOk :=
  State.badgesOk_of_idle (StoreBlock.badgesOnce_of_unscanned rfl) rfl

theorem State.scan_badgesOk {s : State} (idle : s.scan.store.programmer = none) : s.scan.badgesOk := by
  refine State.badgesOk_of_idle ?_ idle
  rw [State.scan_store]
  exact scanStore_badgesOnce _

/-- Every command keeps each badge number in one slot. -/
theorem exec_badgesOk {i : Instr} {s t : State} (wf : s.storeOk) (h : s.badgesOk) (run : exec i s = .next t) :
    t.badgesOk := by
  have same : t.store = s.store → t.badgesOk := fun e => by
    rw [State.badgesOk, e]
    exact h
  by_cases hb : .store ∈ blocksOf i
  swap
  · exact same (exec_changesOnly run .store hb)
  cases hr : requestOf i with
  | some x =>
    cases (exec_of_requestOf hr s).symm.trans run
    exact s.hostFrame_badgesOk wf h _ _
  | none =>
    cases i <;> simp only [requestOf, reduceCtorEq] at hr <;>
      first | (exact absurd hb (by simp only [blocksOf]; decide)) | skip
    case resetPin =>
      cases run
      exact s.resetAll_badgesOk _
    case resetPinRelease =>
      rcases next_ite_cases run with ⟨_, rfl⟩ | ⟨_, rfl⟩
      · exact State.scan_badgesOk rfl
      · exact h
    case hostPartialFrameTimeout bs =>
      cases run
      exact s.hostBytes_badgesOk wf h bs
    case verifyMatch =>
      cases hp : s.store.programmer with
      | none => exact execVerifyMatch_none hp run ▸ h
      | some g =>
        have store := exec_verifyMatch_store hp run
        refine State.badgesOk_of_idle ?_ ?_ <;> rw [store]
        · exact h.2 g hp
        · rfl
    case verifyMismatch =>
      cases hp : s.store.programmer with
      | none => exact execVerifyMismatch_none hp run ▸ h
      | some g =>
        have store := exec_verifyMismatch_store hp run
        refine State.badgesOk_of_idle ?_ ?_ <;> rw [store]
        · exact StoreBlock.spoil_badgesOnce h.1 _ g
        · rfl
    case replySent =>
      change execReplySent s = _ at run
      unfold execReplySent at run
      split at run
      · split at run <;> cases run
        · unfold State.replyDone
          split
          · exact State.scan_badgesOk rfl
          · exact h
        all_goals exact h
      · cases run
        exact h

/-- Settles O59: by the program that each request may begin, and by what completion, failure and the scan leave. -/
theorem stepKeepsBadgesOnce : Obligations.StepKeepsBadgesOnce := by
  intro s t wf h run
  have both : t.storeOk ∧ t.badgesOk := by
    refine step_keeps (P := fun s => s.storeOk ∧ s.badgesOk) (fun s q h => h) (fun s h => ?_)
      (fun i s t h run => ⟨exec_storeOk h.1 run, exec_badgesOk h.1 h.2 run⟩) ⟨wf, h⟩ run
    have store : s.tick.store = s.store := s.tick_only .store (by decide)
    rw [State.storeOk, State.badgesOk, store]
    exact h
  exact both.2

end Sys2Proof.Machine
end

section
/-! PROOF of O25 (R6 to R9, R13, R14): what a credential program leaves for the lookups once it matches. -/

namespace Sys2Proof.Machine

section
variable {st st' : StoreBlock} {badge : Badge} {p k : Nat}

/-- R6: the search finds a record placed where no earlier slot of the probe order holds its badge. -/
theorem StoreBlock.search_placed {r : Credential} {i : Nat} (place : (probeSlots badge)[i]? = some (p, k))
    (before : ∀ j < i, st.mismatchAt badge j) (record : st'.record p k = some r) (own : r.badge = badge)
    (rest : ∀ q j, j < 16 → (q, j) ≠ (p, k) → st'.record q j = st.record q j) : st'.search badge = some (r, p, k) := by
  refine StoreBlock.search_eq_some_iff.2 ⟨i, place, record, own, fun j lt q l x at_j held => ?_⟩
  have ne : (q, l) ≠ (p, k) := fun e => by
    have := probeSlots_place_unique (e ▸ at_j) place
    omega
  rw [rest q l (mem_probeSlots.1 (List.mem_of_getElem? at_j)).2 ne] at held
  exact before j lt q l x at_j held

theorem StoreBlock.found_mismatches {r : Credential} (found : st.search badge = some (r, p, k)) :
    ∃ i, (probeSlots badge)[i]? = some (p, k) ∧ ∀ j < i, st.mismatchAt badge j := by
  obtain ⟨i, place, -, -, before⟩ := StoreBlock.search_eq_some_iff.1 found
  exact ⟨i, place, before⟩

theorem StoreBlock.free_mismatches (missing : st.search badge = none) (free : st.firstFree badge = some (p, k)) :
    ∃ i, (probeSlots badge)[i]? = some (p, k) ∧ ∀ j < i, st.mismatchAt badge j := by
  obtain ⟨range, hk, -⟩ := StoreBlock.firstFree_some free
  obtain ⟨i, place⟩ := List.mem_iff_getElem?.1 (mem_probeSlots.2 ⟨range, hk⟩)
  exact ⟨i, place, fun j _ => StoreBlock.search_eq_none_iff.1 missing j⟩

theorem StoreBlock.lookup_idle (idle : st.programmer = none) : st.lookup badge = st.answer badge := by
  refine StoreBlock.lookup_eq_answer fun e => ?_
  obtain ⟨_, _, g, flight, _⟩ := StoreBlock.lookup_eq_inProgram_iff.1 e
  cases idle.symm.trans flight

end

/-- R13, R14: a credential program from its taking to its match. -/
structure State.programmed (s : State) (c : Instr) (badge : Badge) (p k : Nat) (slot : List Byte) (t u : State) : Prop where
  begun : exec c s = .next t
  matched : exec .verifyMatch t = .next u
  flight : t.store.lookup badge = .inProgram
  idle : u.store.programmer = none
  records : ∀ q j, j < 16 → u.store.record q j = if (q, j) = (p, k) then slotRecord p slot else s.store.record q j
  bad : ∀ q, q ≠ p → u.store.bad q = s.store.bad q
  good : u.store.bad p = false

theorem State.exists_programmed {s : State} (take : s.canTake) (wf : s.storeOk) {n : Nat} (stamp : s.store.stamp = some n)
    {pages : List Nat} (scanned : s.store.badPages = some pages) {c : Instr} {tag : Byte} (r : Request)
    (carried : requestOf c = some (tag, r)) {p k : Nat} {slot : List Byte}
    (judged : s.hostHunt.judge r = s.credentialProgram p k slot) {badge : Badge} (range : p ∈ probeRange badge)
    (length : slot.length = 28) : ∃ t u, s.programmed c badge p k slot t u := by
  let slots := s.store.credentialSlots p k slot
  let t := s.writing r.type tag p n slots .credential
  have flight : t.store.programmer = some (Machine.credentialProgram p n slots .credential) := rfl
  have records := fun q j hj =>
    StoreBlock.complete_record_credential (st := t.store) (p := p) (k := k) scanned wf length n .credential (q := q) (j := j) hj
  have match_ := exec_verifyMatch flight
  refine ⟨t, _, exec_write take stamp r carried judged, match_, ?_, ?_, ?_, ?_, ?_⟩
  · exact StoreBlock.lookup_eq_inProgram_iff.2 ⟨p, range, _, flight, rfl⟩
  all_goals rw [exec_verifyMatch_store flight match_]
  · rfl
  · exact records
  · exact fun q ne => t.store.complete_bad_ne _ ne
  · exact t.store.complete_bad_page _ scanned

section
variable {s t u : State} {c : Instr} {badge : Badge} {p k : Nat} {slot : List Byte} (h : s.programmed c badge p k slot t u)
include h

theorem State.programmed.rest {q j : Nat} (hj : j < 16) (ne : (q, j) ≠ (p, k)) :
    u.store.record q j = s.store.record q j := by
  rw [h.records q j hj, if_neg ne]

/-- R6: the record placed is found. -/
theorem State.programmed.found {r : Credential} (hk : k < 16) (slotHolds : slotRecord p slot = some r)
    (own : r.badge = badge)
    (place : ∃ i, (probeSlots badge)[i]? = some (p, k) ∧ ∀ j < i, s.store.mismatchAt badge j) :
    u.store.lookup badge = .found r p k := by
  obtain ⟨i, at_i, before⟩ := place
  have record := h.records p k hk
  rw [if_pos rfl, slotHolds] at record
  rw [StoreBlock.lookup_idle h.idle, StoreBlock.answer_eq_found_iff]
  exact StoreBlock.search_placed at_i before record own fun q j hj ne => h.rest hj ne

/-- R6, R8: a badge whose one slot is freed is missing. -/
theorem State.programmed.missing {old : Credential} (once : s.store.badgesOnce)
    (found : s.store.search badge = some (old, p, k)) (freed : slotRecord p slot = none) : u.store.search badge = none := by
  refine StoreBlock.search_eq_none_iff.2 fun i q j x place held same => ?_
  obtain ⟨oldHeld, oldOwn, -, hk⟩ := StoreBlock.search_some found
  have hj := (mem_probeSlots.1 (List.mem_of_getElem? place)).2
  rw [h.records q j hj] at held
  split at held
  · cases freed.symm.trans held
  next ne =>
    obtain ⟨rfl, rfl⟩ := once q j p k x old hj hk held oldHeld (same.trans oldOwn.symm)
    exact ne rfl

theorem State.programmed.bad_eq (good : s.store.bad p = false) (q : Nat) : u.store.bad q = s.store.bad q := by
  by_cases same : q = p
  · rw [same, h.good, good]
  · exact h.bad q same

end

/-- Settles O25: each request's program, then its match, then the search. -/
theorem credentialProgramsReachTheLookups : Obligations.CredentialProgramsReachTheLookups := by
  intro s tag badge n pages take wf stamp scanned _ leads
  refine ⟨fun state tenant units groups defaultFloor personal validFrom hasUntil validUntil r p k checked placed => ?_,
    fun old p k found => ⟨fun st => ?_, fun ok => ?_⟩⟩
  · obtain rfl : r.badge = badge := by
      obtain ⟨-, _, _, _, _, rfl⟩ := checkCredential_eq_some_iff.1 checked
      rfl
    let request : Request :=
      .enroll r.badge state tenant units groups defaultFloor personal validFrom hasUntil validUntil
    have asked : s.hostHunt.judge request = s.placeRecord r := by
      show s.hostHunt.judgeEnroll (checkCredential r.badge state tenant units groups defaultFloor personal validFrom
        hasUntil validUntil) = _
      rw [checked]
      rfl
    have place : ∃ i, (probeSlots r.badge)[i]? = some (p, k) ∧ ∀ j < i, s.store.mismatchAt r.badge j := by
      rcases placed with ⟨old, found⟩ | ⟨missing, free⟩
      · exact StoreBlock.found_mismatches found
      · exact StoreBlock.free_mismatches missing free
    have judged : s.hostHunt.judge request = s.credentialProgram p k (encodeCredential r) := by
      rcases placed with ⟨old, found⟩ | ⟨missing, free⟩
      · exact asked.trans (State.placeRecord_found found)
      · refine asked.trans ((State.placeRecord_missing missing).trans ?_)
        rw [free]
    obtain ⟨i, at_i, before⟩ := place
    obtain ⟨range, hk⟩ := mem_probeSlots.1 (List.mem_of_getElem? at_i)
    obtain ⟨t, u, h⟩ := State.exists_programmed take wf stamp scanned (c := .enroll tag r.badge state tenant units groups
      defaultFloor personal validFrom hasUntil validUntil) request rfl judged range (encodeCredential_length r)
    exact ⟨t, u, h.begun, h.matched, h.flight,
      h.found hk (slotRecord_encodeCredential (checkCredential_storable checked) range) rfl ⟨i, at_i, before⟩,
      fun q j hj ne => h.rest hj ne⟩
  all_goals
    obtain ⟨held, own, range, hk⟩ := StoreBlock.search_some found
    have sound := (StoreBlock.record_storable held).1
    obtain ⟨low, high⟩ := sound.badge
    have h0 : badge ≠ 0 := fun e => low (congrArg BitVec.toNat (own.trans e))
    have h1 : badge ≠ 4294967295 := fun e => high (congrArg BitVec.toNat (own.trans e))
    have answer := StoreBlock.answer_eq_found_iff.2 found
  · let new : Credential := { old with state := st }
    have judged : s.hostHunt.judge (.setBadgeState badge st.code) = s.credentialProgram p k (encodeCredential new) :=
      (s.hostHunt.judgeSetBadgeState_code badge st).trans (State.withBadge_found h0 h1 answer)
    obtain ⟨t, u, h⟩ := State.exists_programmed take wf stamp scanned (c := .setBadgeState tag badge st.code)
      (.setBadgeState badge st.code) rfl judged range (encodeCredential_length new)
    have holds : slotRecord p (encodeCredential new) = some new :=
      slotRecord_encodeCredential (Credential.storable_setState sound st) (by rw [← own] at range; exact range)
    exact ⟨t, u, h.begun, h.matched, h.flight, h.found hk holds own (StoreBlock.found_mismatches found),
      fun q j hj ne => h.rest hj ne⟩
  · obtain ⟨t, u, h⟩ := State.exists_programmed take wf stamp scanned (c := .revoke tag badge) (.revoke badge) rfl
      (State.withBadge_found h0 h1 answer) range (slot := freeSlot) rfl
    have missing := h.missing ok.1 found (slotRecord_freeSlot p)
    have good : s.store.bad p = false := by
      by_contra bad
      cases (StoreBlock.record_of_bad (Bool.eq_true_of_not_eq_false bad)).symm.trans held
    refine ⟨t, u, h.begun, h.matched, h.flight, ⟨?_, ?_⟩, fun q j hj ne => h.rest hj ne⟩
    · rintro ⟨q, hq, bad⟩
      rw [StoreBlock.lookup_idle h.idle, StoreBlock.answer_eq_missingBad_iff]
      exact ⟨missing, q, hq, (h.bad_eq good q).trans bad⟩
    · intro allGood
      rw [StoreBlock.lookup_idle h.idle, StoreBlock.answer_eq_missing_iff]
      exact ⟨missing, fun q hq => (h.bad_eq good q).trans (allGood q hq)⟩

end Sys2Proof.Machine
end

section
/-! SUPPORT, and PROOF of O19 and O24 (R2, R12, R14, R15, R56, R164): what the completion of a program leaves in the
store, the ports and the host port. -/

namespace Sys2Proof.Machine

/-! ### The close of an event beside the cars and queues -/

theorem State.closeCars_disp (s0 u : State) :
    (s0.closeCars u).disp = { u.disp with cars := (s0.closeCars u).disp.cars } := by
  have folded : ∀ (ids : List (Bank × CarNo)) (v : State),
      (ids.foldl s0.closeCar v).disp = { v.disp with cars := (ids.foldl s0.closeCar v).disp.cars } := by
    intro ids
    induction ids with
    | nil => exact fun v => rfl
    | cons i ids ih => exact fun v => ih (s0.closeCar v i)
  exact folded allCarIds u

theorem State.closeCars_bookings (s0 u : State) : (s0.closeCars u).disp.bookings = u.disp.bookings := by
  rw [State.closeCars_disp]

theorem State.closeCars_tickets (s0 u : State) : (s0.closeCars u).disp.tickets = u.disp.tickets := by
  rw [State.closeCars_disp]

theorem State.closeCars_modes (s0 u : State) : (s0.closeCars u).disp.modes = u.disp.modes := by
  rw [State.closeCars_disp]

theorem State.closeCars_serial (s0 u : State) : (s0.closeCars u).disp.serial = u.disp.serial := by
  rw [State.closeCars_disp]

/-! ### The woken ports and the reply -/

theorem State.wakePorts_port (s : State) (p : PortNo) : s.wakePorts.port p = (s.port p).wake := by
  show Vector.get (Vector.map _ _) _ = _
  rw [Vector.get_eq_getElem, Vector.getElem_map]
  rfl

theorem State.completeRequest_choose_host (s : State) (status : ReplyStatus) :
    (s.completeRequest status).choose.host = s.host.replies status := by
  unfold State.completeRequest HostPort.replies
  cases s.host.request <;> rfl

theorem HostPort.choose_request (h : HostPort) : h.choose.request = h.request := by
  unfold HostPort.choose
  split
  · split
    · rfl
    · split
      · rfl
      · split <;> rfl
  · rfl

theorem HostPort.join_request (h : HostPort) (r : Report) : (h.join r).request = h.request := by
  unfold HostPort.join HostPort.stopRoutine
  simp only
  split
  · split <;> rfl
  · rfl

theorem HostPort.post_request (h : HostPort) (r : Report) : (h.post r).request = h.request := by
  unfold HostPort.post
  split
  · split
    · exact h.join_request r
    · split
      · rfl
      · split
        · rfl
        · exact HostPort.join_request _ r
  · rfl

theorem State.postsOnly.request {s t : State} (h : s.postsOnly t) : t.host.request = s.host.request :=
  h (fun x => x.request = s.host.request) (fun x r e => (x.post_request r).trans e) rfl

section
variable {h : HostPort} {type tag : Byte} (executing : h.request = .executing type tag)
include executing

theorem HostPort.replies_of_executing (status : ReplyStatus) :
    h.replies status =
      { h with
        request := .replying { type := type, tag := tag, status := status, body := .empty },
        tx := if h.tx = .free then .sendingReply else h.tx } := by
  unfold HostPort.replies
  rw [executing]
  by_cases free : h.tx = .free
  · rw [if_pos free]
    exact HostPort.choose_reply (h := h.reply type tag status .empty) free (r := ⟨type, tag, status, .empty⟩) rfl
  · rw [if_neg free]
    exact HostPort.choose_of_ne free

end

/-! ### The completed page (R2, R14) -/

section
variable (st : StoreBlock) (g : Program)

theorem StoreBlock.complete_read_out {a : Nat} (out : a < 512 * g.page ∨ 512 * g.page + 512 ≤ a) :
    Store.read (st.complete g).cells a = Store.read st.cells a := by
  have short : (g.image.take Config.pageBytes).length ≤ 512 := List.length_take_le _ _
  refine Store.read_writeBytes_out _ _ _ _ ?_
  simp only [pageAddress, Config.pageBytes] at short ⊢
  omega

theorem StoreBlock.complete_read_in (wf : Store.wf st.cells = true) (length : g.image.length = 512) {i : Nat} (hi : i < 512) :
    Store.read (st.complete g).cells (512 * g.page + i) = g.image.getD i 255 := by
  have at_i : 512 * g.page + i = pageAddress g.page i := by
    simp only [pageAddress, Config.pageBytes]
  rw [at_i, StoreBlock.complete_cells, Store.read_writePage_in wf g.page g.image length i (by omega)]
  exact (List.getElem_eq_getD 255)

theorem StoreBlock.held_of_policyPage {p : Nat} (page : 2048 ≤ p) : st.held p = 0 :=
  if_neg (by simp only [Config.credentialPages]; omega)

theorem StoreBlock.held_of_credentialPage {p : Nat} (page : p < 2048) : st.held p = st.pageInUse p := if_pos page

theorem StoreBlock.complete_slotsInUse :
    (st.complete g).slotsInUse = st.slotsInUse + (st.complete g).held g.page - st.held g.page := rfl

theorem StoreBlock.complete_slotsInUse_of_policyPage (page : 2048 ≤ g.page) :
    (st.complete g).slotsInUse = st.slotsInUse := by
  rw [StoreBlock.complete_slotsInUse, StoreBlock.held_of_policyPage _ page, StoreBlock.held_of_policyPage _ page]
  rfl

theorem StoreBlock.complete_good (scanned : st.badPages ≠ none) : (st.complete g).bad g.page = false := by
  obtain ⟨pages, e⟩ := Option.ne_none_iff_exists'.1 scanned
  exact st.complete_bad_page g e

end

/-! ### A verify match (R14) -/

/-- R12, R14: the state after the effects of a completed program, before the close, the wake and the reply. -/
def State.jobDone (s : State) (g : Program) : State := (s.setStore (s.store.complete g)).jobCompleted g

/-- R14, R164: what a matched program leaves. -/
def State.matched (s : State) (g : Program) : State :=
  ((s.closeCars (s.jobDone g)).wakePorts.completeRequest .done).choose

section
variable {s : State} {g : Program}

theorem exec_matched (flight : s.store.programmer = some g) : exec .verifyMatch s = .next (s.matched g) :=
  exec_verifyMatch flight

variable (s g)

theorem State.jobDone_only : s.changesOnly (.store :: policyBlocks) (s.jobDone g) :=
  .step (State.jobCompleted_only _ _) (.step (State.setStore_only _ _) (.refl _ _))

theorem State.matched_store : (s.matched g).store = s.store.complete g := by
  have job := State.jobCompleted_only (s.setStore (s.store.complete g)) g .store (by decide)
  rw [State.matched, State.choose_store, (State.completeRequest_only _ _) .store (by decide), State.wakePorts_store]
  exact (s.closeCars_only _ .store (by decide)).trans job

theorem State.matched_of_closed (b : Block) (hb : b ∉ [.disp, .lines, .ports, .host]) :
    (s.jobDone g).agrees (s.matched g) b := by
  have only : (s.jobDone g).changesOnly [.disp, .lines, .ports, .host] (s.matched g) :=
    .step (State.choose_only _) (.step (State.completeRequest_only _ _) (.step (State.setPorts_only _ _)
      (.step (State.closeCars_only _ _) (.refl _ _))))
  exact only b hb

theorem State.matched_policy : (s.matched g).policy = (s.jobDone g).policy := State.matched_of_closed s g .policy (by decide)

theorem State.matched_disp : (s.matched g).disp = (s.closeCars (s.jobDone g)).disp := by
  rw [State.matched, State.choose_disp, (State.completeRequest_only _ _) .disp (by decide), State.wakePorts_disp]

theorem State.matched_lines : (s.matched g).lines = (s.closeCars (s.jobDone g)).lines := by
  rw [State.matched, State.choose_lines, (State.completeRequest_only _ _) .lines (by decide), State.wakePorts_lines]

theorem State.matched_bookings : (s.matched g).disp.bookings = (s.jobDone g).disp.bookings := by
  rw [State.matched_disp, State.closeCars_bookings]

theorem State.matched_tickets : (s.matched g).disp.tickets = (s.jobDone g).disp.tickets := by
  rw [State.matched_disp, State.closeCars_tickets]

theorem State.matched_modes : (s.matched g).disp.modes = (s.jobDone g).disp.modes := by
  rw [State.matched_disp, State.closeCars_modes]

theorem State.matched_serial : (s.matched g).disp.serial = (s.jobDone g).disp.serial := by
  rw [State.matched_disp, State.closeCars_serial]

theorem State.matched_car (b : Bank) (c : CarNo) :
    (s.matched g).car b c = Car.closeGeneration (s.car b c) ((s.jobDone g).car b c) := by
  rw [← s.closeCars_car]
  exact congrArg (fun d : DispatchBlock => d.cars.get (carIndex b c)) (s.matched_disp g)

theorem State.matched_port (p : PortNo) : (s.matched g).port p = ((s.jobDone g).port p).wake := by
  have ports : (s.matched g).ports = (s.closeCars (s.jobDone g)).wakePorts.ports :=
    (State.completeRequest_only _ _) .ports (by decide)
  have closed : (s.closeCars (s.jobDone g)).ports = (s.jobDone g).ports := s.closeCars_only _ .ports (by decide)
  calc (s.matched g).port p = (s.closeCars (s.jobDone g)).wakePorts.port p := congrArg (·.get p) ports
    _ = ((s.closeCars (s.jobDone g)).port p).wake := State.wakePorts_port _ p
    _ = ((s.jobDone g).port p).wake := congrArg (fun v : Vector Port 16 => (v.get p).wake) closed

theorem State.matched_host : (s.matched g).host = (s.jobDone g).host.repliesDone := by
  have closed : (s.closeCars (s.jobDone g)).host = (s.jobDone g).host := s.closeCars_only _ .host (by decide)
  rw [State.matched, State.completeRequest_choose_host, State.wakePorts_host, closed]
  rfl

theorem State.jobDone_request : (s.jobDone g).host.request = s.host.request :=
  (State.jobCompleted_postsOnly (s.setStore (s.store.complete g)) g).request

/-- R14, R164: the page, and the reply. -/
theorem State.matched_stores : s.stores g (s.matched g) := by
  refine ⟨?_, ?_, ?_, ?_, ?_, ?_, ?_, fun type tag executing => ?_⟩
  all_goals try rw [s.matched_store g]
  · rfl
  · rfl
  · exact fun wf length i hi => s.store.complete_read_in g wf length hi
  · exact fun a out => s.store.complete_read_out g out
  · exact s.store.complete_good g
  · exact fun p ne => s.store.complete_bad_ne g ne
  · exact s.store.complete_slotsInUse_of_policyPage g
  · rw [s.matched_host g, HostPort.repliesDone,
      HostPort.replies_of_executing ((s.jobDone_request g).trans executing)]

end

/-! ### A credential program (O19) -/

/-- Settles O19: the completed page, the woken ports and the reply. -/
theorem credentialVerifyMatchStoresThePage : Obligations.CredentialVerifyMatchStoresThePage := by
  intro s g type tag wf flight job length executing
  have done : s.jobDone g = s.setStore (s.store.complete g) := by
    unfold State.jobDone State.jobCompleted
    rw [job]
  have closed : s.closeCars (s.jobDone g) = s.jobDone g := by
    rw [done]
    exact State.closeCars_of_cars_eq fun _ _ => rfl
  have only : s.changesOnly [.store, .ports, .host] (s.matched g) := by
    rw [State.matched, closed, done]
    exact .step (State.choose_only _) (.step (State.completeRequest_only _ _) (.step (State.setPorts_only _ _)
      (.step (State.setStore_only _ _) (.refl _ _))))
  have ports : ∀ p, (s.matched g).port p = (s.port p).wake := fun p => by
    rw [s.matched_port g, done]
    rfl
  have host : (s.matched g).host = s.host.repliesDone := by
    rw [s.matched_host g, done]
    rfl
  refine ⟨_, exec_matched flight, only, ?_⟩
  rw [s.matched_store g, host]
  exact ⟨rfl, rfl, fun i hi => s.store.complete_read_in g wf length hi, fun a out => s.store.complete_read_out g out,
    s.store.complete_good g, fun p ne => s.store.complete_bad_ne g ne, fun page enough => by
      rw [s.store.complete_slotsInUse g, StoreBlock.held_of_credentialPage _ page,
        StoreBlock.held_of_credentialPage _ page]
      omega, ports, HostPort.replies_of_executing executing .done⟩

/-! ### A verify mismatch (O24) -/

theorem insertPage_pairwise {l : List Nat} (sorted : l.Pairwise (· < ·)) (p : Nat) : (insertPage p l).Pairwise (· < ·) := by
  induction l with
  | nil => exact List.pairwise_singleton _ _
  | cons x xs ih =>
    obtain ⟨above, rest⟩ := List.pairwise_cons.1 sorted
    rw [insertPage]
    split
    next lt =>
      refine List.pairwise_cons.2 ⟨fun y hy => ?_, sorted⟩
      rcases List.mem_cons.1 hy with rfl | hy
      · exact lt
      · exact lt.trans (above y hy)
    next ge =>
      split
      · exact sorted
      next ne =>
        refine List.pairwise_cons.2 ⟨fun y hy => ?_, ih rest⟩
        rcases mem_insertPage.1 hy with rfl | hy
        · omega
        · exact above y hy

section
variable (st : StoreBlock) (n : Nat) (g : Program)

theorem StoreBlock.spoil_read_out {a : Nat} (out : a < 512 * g.page ∨ 512 * g.page + 512 ≤ a) :
    Store.read (st.spoil n g).cells a = Store.read st.cells a := by
  rw [StoreBlock.spoil_cells]
  have short : ((openPage n g.page).take Config.pageBytes).length ≤ 512 := List.length_take_le _ _
  refine Store.read_writeBytes_out _ _ _ _ ?_
  simp only [pageAddress, Config.pageBytes] at *
  omega

theorem StoreBlock.spoil_slotsInUse : (st.spoil n g).slotsInUse = st.slotsInUse - st.held g.page := by
  simp only [StoreBlock.spoil]

theorem StoreBlock.spoil_fields :
    st.spoil n g =
      { st with
        cells := (st.spoil n g).cells, badPages := (st.spoil n g).badPages, slotsInUse := (st.spoil n g).slotsInUse,
        programmer := none } := by
  simp only [StoreBlock.spoil, StoreBlock.markBad]

theorem StoreBlock.spoil_bad_page : (st.spoil n g).bad g.page = true := by
  by_cases scanned : st.badPages = none
  · refine (st.spoil_bad n g).2 (.inr ?_)
    rw [StoreBlock.bad, scanned]
  · exact (st.spoil_bad n g).2 (.inl ⟨rfl, scanned⟩)

theorem StoreBlock.spoil_bad_ne {p : Nat} (ne : p ≠ g.page) : (st.spoil n g).bad p = st.bad p := by
  rw [Bool.eq_iff_iff, st.spoil_bad n g]
  simp [ne]

end

/-- R173: with the kind enabled and room, a posted report is queued. -/
theorem HostPort.mem_post {h : HostPort} {r : Report} (enabled : h.enables.getLsbD r.body.kind = true)
    (room : h.queue.length < 32) : r ∈ (h.post r).queue := by
  rw [HostPort.post, if_pos enabled, if_pos (show h.queue.length < Config.maxReports from room), HostPort.join]
  simp

/-- R15: what a failed program leaves when the store becomes `st`. -/
def State.failed (s : State) (st : StoreBlock) (g : Program) : State :=
  (((((s.setStore st).setFree (s.freeCount + 1)).post .urgent (.storeFault g.page true)).wakePorts.completeRequest
    .storeFault)).choose

section
variable (s : State) (st : StoreBlock) (g : Program)

theorem State.failed_only : s.changesOnly [.store, .ports, .host, .freeCount] (s.failed st g) :=
  .step (State.choose_only _) (.step (State.completeRequest_only _ _) (.step (State.setPorts_only _ _)
    (.step (State.post_only _ _ _) (.step (State.setFree_only _ _) (.step (State.setStore_only _ _) (.refl _ _))))))

theorem State.failed_store : (s.failed st g).store = st := (State.completeRequest_only _ _) .store (by decide)

theorem State.failed_freeCount : (s.failed st g).freeCount = s.freeCount + 1 :=
  (State.completeRequest_only _ _) .freeCount (by decide)

theorem State.failed_host :
    (s.failed st g).host =
      (s.host.post { cls := .urgent, clock := s.part.clock, body := .storeFault g.page true, gap := false }).replies
        .storeFault := State.completeRequest_choose_host _ _

theorem State.failed_port (p : PortNo) : (s.failed st g).port p = (s.port p).wake := by
  have woken : (s.failed st g).ports = s.wakePorts.ports := (State.completeRequest_only _ _) .ports (by decide)
  exact (congrArg (·.get p) woken).trans (s.wakePorts_port p)

end

/-- Settles O24: the spoiled page, the woken ports, the report and the reply. -/
theorem verifyMismatchMakesThePageBad : Obligations.VerifyMismatchMakesThePageBad := by
  intro s g type tag flight executing
  let fault : Report := { cls := .urgent, clock := s.part.clock, body := .storeFault g.page true, gap := false }
  have reply := HostPort.replies_of_executing ((s.host.post_request fault).trans executing) .storeFault
  have run : exec .verifyMismatch s = .next (s.failed (s.store.spoil s.freeCount g) g) := exec_verifyMismatch flight
  refine ⟨_, run, s.failed_only _ g, s.failed_freeCount _ g, ?_⟩
  rw [s.failed_store, s.failed_host]
  refine ⟨s.store.spoil_fields _ g, s.store.spoil_bad_page _ g, fun p ne => s.store.spoil_bad_ne _ g ne,
    fun pages listed sorted => ⟨insertPage g.page pages, ?_, insertPage_pairwise sorted _, fun p => ?_⟩,
    fun a out => s.store.spoil_read_out _ g out, fun page => ?_, fun page => ?_, s.failed_port _ g, ?_, rfl, fun enabled room => ?_⟩
  · rw [s.store.spoil_badPages, listed]
    rfl
  · rw [mem_insertPage, or_comm]
  · rw [s.store.spoil_slotsInUse, StoreBlock.held_of_credentialPage _ page]
  · rw [s.store.spoil_slotsInUse, StoreBlock.held_of_policyPage _ page]
    rfl
  · rw [reply]
  · rw [reply]
    exact ⟨fault, HostPort.mem_post enabled room, rfl, rfl, rfl⟩

/-! ### Policy items without further effect (O20) -/

section
variable {s : State} {g : Program}

/-- R12: a group, profile, tenant or site program sets its working copy and nothing else of the tables. -/
theorem State.matched_plain {new : Policy}
    (done : s.jobDone g = (s.setStore (s.store.complete g)).setPolicy new) :
    s.changesOnly [.store, .policy, .ports, .host] (s.matched g) ∧ s.stores g (s.matched g) ∧
      (s.matched g).policy = new ∧
      ∀ q, (s.matched g).port q =
        if (s.port q).state = .deferred then { s.port q with state := .pending } else s.port q := by
  have closed : s.closeCars (s.jobDone g) = s.jobDone g := by
    rw [done]
    exact State.closeCars_of_cars_eq fun _ _ => rfl
  refine ⟨?_, s.matched_stores g, ?_, fun q => ?_⟩
  · rw [State.matched, closed, done]
    exact .step (State.choose_only _) (.step (State.completeRequest_only _ _) (.step (State.setPorts_only _ _)
      (.step (State.setPolicy_only _ _) (.step (State.setStore_only _ _) (.refl _ _)))))
  · rw [s.matched_policy g, done]
    rfl
  · rw [s.matched_port g, done]
    rfl

end

theorem Port.wake_of_ne {p : Port} (ne : p.state ≠ .deferred) : p.wake = p := if_neg ne

theorem heldState_ne_deferred (enabled : Bool) : heldState enabled ≠ .deferred := by
  cases enabled <;> exact PortState.noConfusion

/-- R58: an idle port reloaded. -/
theorem Port.reloaded_idle {p : Port}
    (idle : p.state = .disabled ∨ p.state = .idle ∨ p.state = .deferred ∨ (p.state = .pending ∧ p.isTaken = false))
    (enabled : Bool) : p.reloaded enabled = { p with memory := none, slot := none, state := heldState enabled } := by
  unfold Port.reloaded
  rcases idle with e | e | e | ⟨e, untaken⟩
  · rw [e]
  · rw [e]
  · rw [e]
  · rw [e]
    exact if_neg (by rw [untaken]; exact Bool.false_ne_true)

/-- R58: a port with a presentation under decision or an answer under way keeps it, with the reload mark. -/
theorem Port.reloaded_busy {p : Port} (busy : (p.state = .pending ∧ p.isTaken = true) ∨ p.state = .answering)
    (enabled : Bool) : p.reloaded enabled = { p with memory := none, reload := some enabled } := by
  unfold Port.reloaded
  rcases busy with ⟨e, taken⟩ | e
  · rw [e]
    exact if_pos taken
  · rw [e]

/-- R58: what a reload leaves, whatever the state. -/
theorem Port.reloaded_fields (p : Port) (enabled : Bool) :
    (p.reloaded enabled).memory = none ∧ (p.reloaded enabled).shifter = p.shifter ∧
      (p.reloaded enabled).buffer = p.buffer ∧ (p.reloaded enabled).state ≠ .deferred := by
  unfold Port.reloaded
  split
  case h_4 => 
    split
    next e _ => exact ⟨rfl, rfl, rfl, by rw [e]; exact PortState.noConfusion⟩
    · exact ⟨rfl, rfl, rfl, heldState_ne_deferred _⟩
  case h_5 e => exact ⟨rfl, rfl, rfl, by rw [e]; exact PortState.noConfusion⟩
  all_goals exact ⟨rfl, rfl, rfl, heldState_ne_deferred _⟩

/-- Settles O20: each job's effects, and the reload by the port's state. -/
theorem policyVerifyMatchTakesEffect : Obligations.PolicyVerifyMatchTakesEffect := by
  constructor
  · intro s g flight leaves
    refine ⟨fun n x job => ?_, fun n x job => ?_, fun n x job => ?_, fun life job => ?_⟩
    all_goals
      refine ⟨_, exec_matched flight, State.matched_plain ?_⟩
      unfold State.jobDone State.jobCompleted
      rw [job]
      rfl
  · intro s g p r flight job
    let new : Policy := { s.policy with readers := s.policy.readers.set p r }
    have done : s.jobDone g = ((s.setStore (s.store.complete g)).setPolicy new).reloadPort p := by
      unfold State.jobDone State.jobCompleted
      rw [job]
      rfl
    have closed : s.closeCars (s.jobDone g) = s.jobDone g := by
      rw [done]
      exact State.closeCars_of_cars_eq fun _ _ => rfl
    have reader : (((s.setStore (s.store.complete g)).setPolicy new).reader p) = r := Vector.get_set_self _ _ _
    have self : (s.matched g).port p = (s.port p).reloaded r.enabled := by
      rw [s.matched_port g, done, State.reloadPort, State.port_setPort_self, reader]
      exact Port.wake_of_ne (Port.reloaded_fields _ _).2.2.2
    have other : ∀ q, q ≠ p → (s.matched g).port q = (s.port q).wake := fun q ne => by
      rw [s.matched_port g, done, State.reloadPort, State.port_setPort_ne _ _ _ _ ne.symm]
      rfl
    obtain ⟨memory, shifter, buffer, -⟩ := Port.reloaded_fields (s.port p) r.enabled
    refine ⟨_, exec_matched flight, ?_, s.matched_stores g, ?_, ?_⟩
    · rw [State.matched, closed, done]
      exact .step (State.choose_only _) (.step (State.completeRequest_only _ _) (.step (State.setPorts_only _ _)
        (.step (State.reloadPort_only _ _) (.step (State.setPolicy_only _ _) (.step (State.setStore_only _ _)
          (.refl _ _))))))
    · rw [s.matched_policy g, done]
      rfl
    rw [self]
    refine ⟨memory, shifter, buffer, fun idle => ?_, fun busy => ?_, other⟩
    · rw [Port.reloaded_idle idle]
      exact ⟨rfl, rfl⟩
    · rw [Port.reloaded_busy busy]
      exact ⟨rfl, rfl, rfl⟩

end Sys2Proof.Machine
end

section
/-! SUPPORT. The cars of a bank one by one (R31, R82, R84, R153 to R155): what each operation on a car or on a bank's cars
leaves of every car, and that it reaches nothing else. -/

namespace Sys2Proof.Machine

/-! ### Operations on the cars of one bank in car order -/

/-- From `s` to `t` only cars change. -/
def State.carsOnly (s t : State) : Prop := t = s.setDisp { s.disp with cars := t.disp.cars }

theorem State.carsOnly.refl (s : State) : s.carsOnly s := rfl

theorem State.carsOnly.trans {s t u : State} (h : s.carsOnly t) (g : t.carsOnly u) : s.carsOnly u := by
  unfold State.carsOnly at *
  rw [g, h]
  rfl

theorem State.carsOnly.setCar (s : State) (b : Bank) (c : CarNo) (x : Car) : s.carsOnly (s.setCar b c x) := rfl

section
variable {s t : State} (h : s.carsOnly t)
include h

theorem State.carsOnly.bookings : t.disp.bookings = s.disp.bookings := by rw [h]; rfl

theorem State.carsOnly.tickets : t.disp.tickets = s.disp.tickets := by rw [h]; rfl

theorem State.carsOnly.modes : t.disp.modes = s.disp.modes := by rw [h]; rfl

theorem State.carsOnly.serial : t.disp.serial = s.disp.serial := by rw [h]; rfl

theorem State.carsOnly.policy : t.policy = s.policy := by rw [h]; rfl

theorem State.carsOnly.ports : t.ports = s.ports := by rw [h]; rfl

theorem State.carsOnly.host : t.host = s.host := by rw [h]; rfl

theorem State.carsOnly.part : t.part = s.part := by rw [h]; rfl

theorem State.carsOnly.mode (b : Bank) : t.mode b = s.mode b := congrArg (·.get b) h.modes

theorem State.carsOnly.bank (b : Bank) : t.bank b = s.bank b := congrArg (fun p : Policy => p.banks.get b) h.policy

theorem State.carsOnly.port (p : PortNo) : t.port p = s.port p := congrArg (·.get p) h.ports

theorem State.carsOnly.carBookings (b : Bank) (c : CarNo) : t.carBookings b c = s.carBookings b c :=
  congrArg (List.filter _) h.bookings

end

section
variable {b : Bank} {f : State → CarNo → State} {φ : State → CarNo → Car}
  (each : ∀ u c, f u c = u.setCar b c (φ u c)) (s : State) (cs : List CarNo)
include each

theorem State.foldCars_carsOnly : s.carsOnly (cs.foldl f s) := by
  induction cs generalizing s with
  | nil => exact .refl s
  | cons c cs ih =>
    rw [List.foldl_cons]
    refine .trans ?_ (ih (f s c))
    rw [each]
    exact .setCar s b c _

theorem State.foldCars_other {h : Bank} (ne : h ≠ b) (d : CarNo) : (cs.foldl f s).car h d = s.car h d := by
  induction cs generalizing s with
  | nil => rfl
  | cons c cs ih =>
    rw [List.foldl_cons, ih, each]
    exact State.car_setCar_ne _ _ _ _ _ _ fun e => ne (Prod.mk.inj e).1.symm

variable (own : ∀ u c d x, d ≠ c → φ (u.setCar b d x) c = φ u c)
include own

theorem State.foldCars_own (once : cs.Nodup) (d : CarNo) :
    (cs.foldl f s).car b d = if d ∈ cs then φ s d else s.car b d := by
  induction cs generalizing s with
  | nil => rfl
  | cons c cs ih =>
    obtain ⟨hc, once⟩ := List.nodup_cons.1 once
    rw [List.foldl_cons, ih _ once, each]
    by_cases same : d = c
    · subst same
      rw [if_neg hc, if_pos List.mem_cons_self, State.car_setCar_self]
    · rw [own _ _ _ _ (Ne.symm same), State.car_setCar_ne _ _ _ _ _ _ fun e => same (Prod.mk.inj e).2.symm]
      simp [same]

theorem State.foldCars_all (d : CarNo) : (allCars.foldl f s).car b d = φ s d := by
  rw [State.foldCars_own each s allCars own nodup_allCars, if_pos (mem_allCars d)]

end

/-! ### A change of every configured car -/

theorem State.ite_setCar (s : State) (b : Bank) (c : CarNo) (p : Prop) [Decidable p] (x : Car) :
    (if p then s.setCar b c x else s) = s.setCar b c (if p then x else s.car b c) := by
  split
  · rfl
  · exact (s.setCar_car b c).symm

section
variable (s : State) (b : Bank) (f : Car → Car)

theorem State.eachConfigured_step (u : State) (c : CarNo) :
    (if (u.car b c).configured then u.setCar b c (f (u.car b c)) else u) =
      u.setCar b c (if (u.car b c).configured then f (u.car b c) else u.car b c) := u.ite_setCar b c _ _

theorem State.eachConfigured_carsOnly : s.carsOnly (s.eachConfigured b f) :=
  State.foldCars_carsOnly (State.eachConfigured_step b f) s allCars

theorem State.eachConfigured_other {h : Bank} (ne : h ≠ b) (c : CarNo) : (s.eachConfigured b f).car h c = s.car h c :=
  State.foldCars_other (State.eachConfigured_step b f) s allCars ne c

theorem State.eachConfigured_car (c : CarNo) :
    (s.eachConfigured b f).car b c = if (s.car b c).configured then f (s.car b c) else s.car b c :=
  State.foldCars_all (State.eachConfigured_step b f) s
    (fun u c d x ne => by rw [State.car_setCar_ne _ _ _ _ _ _ fun e => ne (Prod.mk.inj e).2]) c

end

/-! ### A stop list brought in step (R81, R82) -/

/-- The new car differs from the old in its list and its planned direction alone. -/
def Car.listOnly (old new : Car) : Prop := new = { old with stops := new.stops, planned := new.planned }

theorem Car.resync_listOnly (c : Car) (bs : List Booking) (calls : List Key) : c.listOnly (c.resync bs calls) := by
  unfold Car.listOnly Car.resync
  split <;> rfl

theorem Car.listOnly.trans {a b c : Car} (h : a.listOnly b) (g : b.listOnly c) : a.listOnly c := by
  unfold Car.listOnly at *
  rw [g, h]

section
variable {old new : Car} (h : old.listOnly new)
include h

theorem Car.listOnly.service : new.service = old.service := by rw [h]

theorem Car.listOnly.enabled : new.enabled = old.enabled := by rw [h]

theorem Car.listOnly.status : new.status = old.status := by rw [h]

theorem Car.listOnly.full : new.full = old.full := by rw [h]

theorem Car.listOnly.gen : new.gen = old.gen := by rw [h]

theorem Car.listOnly.confirmed : new.confirmed = old.confirmed := by rw [h]

theorem Car.listOnly.configured : new.configured = old.configured := by rw [h]; rfl

theorem Car.listOnly.refPos : new.refPos = old.refPos := by rw [h]; rfl

end

theorem State.resync_carsOnly (s : State) (b : Bank) (c : CarNo) (calls : List Key) : s.carsOnly (s.resync b c calls) :=
  .setCar s b c _

theorem State.resync_self (s : State) (b : Bank) (c : CarNo) (calls : List Key) :
    (s.resync b c calls).car b c = (s.car b c).resync (s.carBookings b c) calls := State.car_setCar_self _ _ _ _

theorem State.resync_other (s : State) {b h : Bank} {c d : CarNo} (ne : (h, d) ≠ (b, c)) (calls : List Key) :
    (s.resync b c calls).car h d = s.car h d := State.car_setCar_ne _ _ _ _ _ _ ne.symm

/-! ### The enabled set formed afresh (R84) -/

/-- R84: the car after its enabled set is formed afresh. -/
def State.formedCar (s : State) (b : Bank) (c : CarNo) : Car :=
  let car := s.car b c
  let new := s.enabledOf b c
  let kept := car.callKeys.filter fun k => !(car.enabled.has k.floor && !new.has k.floor)
  if kept = car.callKeys then { car with enabled := new }
  else ({ car with enabled := new } : Car).resync (s.carBookings b c) kept

theorem State.setCar_setCar (s : State) (b : Bank) (c : CarNo) (x y : Car) :
    (s.setCar b c x).setCar b c y = s.setCar b c y := by
  simp [State.setCar, State.setDisp]

theorem State.formEnabled_eq (s : State) (b : Bank) (c : CarNo) : s.formEnabled b c = s.setCar b c (s.formedCar b c) := by
  unfold State.formEnabled State.formedCar
  simp only
  split
  · rfl
  · rw [State.resync, State.setCar_setCar, State.car_setCar_self]
    rfl

section
variable (s : State) (b : Bank) (c : CarNo)

theorem State.formedCar_listOnly : ({ s.car b c with enabled := s.enabledOf b c } : Car).listOnly (s.formedCar b c) := by
  unfold State.formedCar
  simp only
  split
  · rfl
  · exact Car.resync_listOnly _ _ _

theorem State.formedCar_enabled : (s.formedCar b c).enabled = s.enabledOf b c := (s.formedCar_listOnly b c).enabled

theorem State.formedCar_service : (s.formedCar b c).service = (s.car b c).service := (s.formedCar_listOnly b c).service

theorem State.formEnabled_carsOnly : s.carsOnly (s.formEnabled b c) := by
  rw [State.formEnabled_eq]
  exact .setCar s b c _

theorem State.formEnabled_self : (s.formEnabled b c).car b c = s.formedCar b c := by
  rw [State.formEnabled_eq, State.car_setCar_self]

theorem State.formEnabled_other {b c} {h : Bank} {d : CarNo} (ne : (h, d) ≠ (b, c)) :
    (s.formEnabled b c).car h d = s.car h d := by
  rw [State.formEnabled_eq, State.car_setCar_ne _ _ _ _ _ _ ne.symm]

theorem State.enabledOf_setCar_ne {d : CarNo} (x : Car) (ne : d ≠ c) : (s.setCar b d x).enabledOf b c = s.enabledOf b c := by
  unfold State.enabledOf
  rw [State.car_setCar_ne _ _ _ _ _ _ fun e => ne (Prod.mk.inj e).2]
  rfl

theorem State.formedCar_setCar_ne {d : CarNo} (x : Car) (ne : d ≠ c) : (s.setCar b d x).formedCar b c = s.formedCar b c := by
  unfold State.formedCar
  rw [State.enabledOf_setCar_ne _ _ _ _ ne, State.car_setCar_ne _ _ _ _ _ _ fun e => ne (Prod.mk.inj e).2]
  rfl

/-- R84: which floors the set formed afresh holds. -/
theorem State.enabledOf_has (f : Floor) :
    (s.enabledOf b c).has f = true ↔ (s.car b c).service ≠ .absent ∧ s.enabledAt b c f := by
  unfold State.enabledOf State.enabledAt
  by_cases absent : (s.car b c).service = .absent
  · rw [if_pos (by simp [Car.configured, absent]), FloorSet.has_zero]
    simp [absent]
  rw [if_neg (by simp [Car.configured, absent])]
  by_cases fire : s.mode b = some .fireRecall
  · rw [if_pos fire, FloorSet.has_zero]
    simp [fire]
  rw [if_neg fire, FloorSet.has_or, Bool.or_eq_true, has_floorSetOf, State.openFree, has_floorSetOf_filter]
  have rides : f ∈ ((s.carBookings b c).filter fun k => k.state = .riding).map (fun k => k.dest) ↔
      ∃ k ∈ s.disp.bookings, k.bank = b ∧ k.car = c ∧ k.state = .riding ∧ k.dest = f := by
    simp only [State.carBookings, List.mem_map, List.mem_filter, decide_eq_true_eq]
    constructor
    · rintro ⟨k, ⟨⟨hk, bank, car⟩, riding⟩, dest⟩
      exact ⟨k, hk, bank, car, riding, dest⟩
    · rintro ⟨k, hk, bank, car, riding, dest⟩
      exact ⟨k, ⟨⟨hk, bank, car⟩, riding⟩, dest⟩
  rw [rides]
  simp [absent, fire, FloorRec.free, and_assoc]

end

section
variable (s : State) (b : Bank)

theorem State.formBank_step (u : State) (c : CarNo) :
    (if (u.car b c).configured then u.formEnabled b c else u) =
      u.setCar b c (if (u.car b c).configured then u.formedCar b c else u.car b c) := by
  rw [State.formEnabled_eq]
  exact u.ite_setCar b c _ _

theorem State.formBank_carsOnly : s.carsOnly (s.formBank b) := State.foldCars_carsOnly (State.formBank_step b) s allCars

theorem State.formBank_other {h : Bank} (ne : h ≠ b) (c : CarNo) : (s.formBank b).car h c = s.car h c :=
  State.foldCars_other (State.formBank_step b) s allCars ne c

theorem State.formBank_car (c : CarNo) :
    (s.formBank b).car b c = if (s.car b c).configured then s.formedCar b c else s.car b c :=
  State.foldCars_all (State.formBank_step b) s
    (fun u c d x ne => by
      rw [State.formedCar_setCar_ne _ _ _ _ ne, State.car_setCar_ne _ _ _ _ _ _ fun e => ne (Prod.mk.inj e).2]) c

end

/-! ### The car count (R31) -/

/-- R31: the record of a car that has just become configured. -/
def State.freshCar (s : State) (b : Bank) : Car :=
  let fresh : Car := { Car.reset with service := .outOfContact }
  if s.mode b = some .fireRecall then fresh.recalled else fresh

/-- R31: what a change of its bank's count makes of a car. -/
def State.recounted (s : State) (b : Bank) (c : CarNo) : Car :=
  if s.counted b c then
    if (s.car b c).configured then s.car b c else (s.setCar b c (s.freshCar b)).formedCar b c
  else if (s.car b c).configured then
    { s.car b c with service := .absent, stops := [], planned := none, enabled := 0 }
  else s.car b c

section
variable (s : State) (b : Bank)

theorem State.recountCar_eq (c : CarNo) : s.recountCar b c = s.setCar b c (s.recounted b c) := by
  unfold State.recountCar State.recounted
  simp only
  split
  · split
    · exact (s.setCar_car b c).symm
    · rw [State.formEnabled_eq, State.setCar_setCar]
      rfl
  · split
    · rfl
    · exact (s.setCar_car b c).symm

theorem State.recounted_setCar_ne {c d : CarNo} (x : Car) (ne : d ≠ c) :
    (s.setCar b d x).recounted b c = s.recounted b c := by
  have same : (s.setCar b d x).car b c = s.car b c := State.car_setCar_ne _ _ _ _ _ _ fun e => ne (Prod.mk.inj e).2
  have fresh : (s.setCar b d x).freshCar b = s.freshCar b := rfl
  have formed : ((s.setCar b d x).setCar b c (s.freshCar b)).formedCar b c = (s.setCar b c (s.freshCar b)).formedCar b c := by
    unfold State.formedCar State.enabledOf
    rw [State.car_setCar_self, State.car_setCar_self]
    rfl
  unfold State.recounted
  rw [same, fresh, formed]
  rfl

theorem State.recount_carsOnly : s.carsOnly (s.recount b) := State.foldCars_carsOnly (fun u c => u.recountCar_eq b c) s allCars

theorem State.recount_other {h : Bank} (ne : h ≠ b) (c : CarNo) : (s.recount b).car h c = s.car h c :=
  State.foldCars_other (fun u c => u.recountCar_eq b c) s allCars ne c

theorem State.recount_car (c : CarNo) : (s.recount b).car b c = s.recounted b c :=
  State.foldCars_all (fun u c => u.recountCar_eq b c) s (fun u _ _ x ne => u.recounted_setCar_ne b x ne) c

end

/-! ### The close (R83) -/

/-- R83: the close of an event changes a car's generation and its confirmation alone. -/
theorem Car.closeGeneration_fields (old new : Car) :
    Car.closeGeneration old new =
      { new with
        gen := (Car.closeGeneration old new).gen, confirmed := (Car.closeGeneration old new).confirmed } := by
  unfold Car.closeGeneration
  split <;> rfl

section
variable (old new : Car)

theorem Car.closeGeneration_service : (Car.closeGeneration old new).service = new.service := by
  rw [Car.closeGeneration_fields]

theorem Car.closeGeneration_stops : (Car.closeGeneration old new).stops = new.stops := by
  rw [Car.closeGeneration_fields]

theorem Car.closeGeneration_planned : (Car.closeGeneration old new).planned = new.planned := by
  rw [Car.closeGeneration_fields]

theorem Car.closeGeneration_enabled : (Car.closeGeneration old new).enabled = new.enabled := by
  rw [Car.closeGeneration_fields]

theorem Car.closeGeneration_recallDue : (Car.closeGeneration old new).recallDue = new.recallDue := by
  rw [Car.closeGeneration_fields]

/-- R31: a car made configured or ABSENT in the event takes no generation. -/
theorem Car.closeGeneration_of_absent (h : old.service = .absent ∨ new.service = .absent) :
    Car.closeGeneration old new = new := by
  unfold Car.closeGeneration Car.configured
  rcases h with e | e <;> simp [e]

end

end Sys2Proof.Machine
end

section
/-! SUPPORT. What cancelling bookings leaves (R87, R53, R121): the Booking Table, the tickets, the memories, the reports
in order, and the cars. -/

namespace Sys2Proof.Machine

/-! ### One booking -/

/-- R87: a ticket names the booking as its first leg. -/
def Booking.leads (k : Booking) (y : Ticket) : Bool := k.leg = .firstLeg && k.badge = y.badge && y.firstLeg = some k.id

/-- R53: a memory holds the booking, which was WAITING, at its port. -/
def Booking.heldBy (k : Booking) (q : PortNo) (m : GrantMemory) : Bool :=
  k.state = .waiting && k.port = q && k.id = m.booking

/-- R87: the report of a cancellation. -/
def State.cancelledReport (s : State) (r : CancelReason) (k : Booking) : Report :=
  { cls := .routine, clock := s.part.clock, gap := false,
    body := .bookingCancelled k.id k.badge k.port k.bank k.car k.origin k.dest k.leg k.state r }

/-- R87: a booking off the table and off its car, its port told when it was WAITING and the enabled set formed afresh when
it was RIDING. -/
def State.offCar (s : State) (k : Booking) : State :=
  match k.state with
  | .waiting => ((s.removeBooking k.id).resyncKeep k.bank k.car).announceLeft k.port k.id
  | .riding => ((s.removeBooking k.id).resyncKeep k.bank k.car).formEnabled k.bank k.car

section
variable (s : State) (r : CancelReason) (k : Booking)

theorem State.cancel_eq : s.cancel r k = ((s.offCar k).dropFirstLegTicket k).post .routine (cancelReport k r) := by
  unfold State.cancel State.offCar
  cases k.state <;> rfl

theorem State.offCar_tickets : (s.offCar k).disp.tickets = s.disp.tickets := by
  unfold State.offCar
  cases k.state
  · rfl
  · exact (State.formEnabled_carsOnly _ _ _).tickets

theorem State.offCar_part : (s.offCar k).part = s.part := by
  unfold State.offCar
  cases k.state
  · rfl
  · exact (State.formEnabled_carsOnly _ _ _).part

theorem State.offCar_host : (s.offCar k).host = s.host := by
  unfold State.offCar
  cases k.state
  · rfl
  · exact (State.formEnabled_carsOnly _ _ _).host

theorem Booking.not_leads {k : Booking} (other : k.leg ≠ .firstLeg) (y : Ticket) : k.leads y = false := by
  simp [Booking.leads, other]

theorem State.dropFirstLegTicket_eq :
    s.dropFirstLegTicket k = s.setTickets (s.disp.tickets.filter fun y => !k.leads y) := by
  unfold State.dropFirstLegTicket
  split
  next first =>
    congr 2
    funext y
    simp [Booking.leads, first, eq_comm]
  next other =>
    have all : s.disp.tickets.filter (fun y => !k.leads y) = s.disp.tickets :=
      List.filter_eq_self.2 fun y _ => by rw [Booking.not_leads other]; rfl
    rw [all]
    rfl

theorem State.cancel_tickets : (s.cancel r k).disp.tickets = s.disp.tickets.filter fun y => !k.leads y := by
  rw [State.cancel_eq, State.dropFirstLegTicket_eq, ← s.offCar_tickets k]
  rfl

theorem State.cancel_host : (s.cancel r k).host = s.host.post (s.cancelledReport r k) := by
  rw [State.cancel_eq, State.dropFirstLegTicket_eq]
  show (s.offCar k).host.post { cls := .routine, clock := (s.offCar k).part.clock, body := _, gap := false } = _
  rw [State.offCar_host, State.offCar_part]
  rfl

theorem Port.filter_all (p : Port) {keep : GrantMemory → Bool} (all : ∀ m, keep m = true) :
    ({ p with memory := p.memory.filter keep } : Port) = p := by
  have same : p.memory.filter keep = p.memory := by
    cases p.memory with
    | none => rfl
    | some m => exact if_pos (all m)
  rw [same]

theorem Port.bookingLeft_eq (p : Port) (i : Nat) :
    p.bookingLeft i = { p with memory := p.memory.filter fun m => !decide (i = m.booking) } := by
  unfold Port.bookingLeft
  split
  next m held =>
    rw [held]
    by_cases same : m.booking = i
    · simp [Option.filter, same]
    · rw [if_neg same, Option.filter, if_pos (by simp [Ne.symm same]), ← held]
  next none =>
    rw [none]
    show p = { p with memory := .none }
    rw [← none]

theorem State.cancel_port (q : PortNo) :
    (s.cancel r k).port q =
      { s.port q with memory := (s.port q).memory.filter fun m => !k.heldBy q m } := by
  rw [State.cancel_eq, State.dropFirstLegTicket_eq]
  show (s.offCar k).port q = _
  unfold State.offCar Booking.heldBy
  cases k.state
  · show (State.announceLeft _ k.port k.id).port q = _
    by_cases same : k.port = q
    · subst same
      rw [State.announceLeft, State.port_setPort_self, Port.bookingLeft_eq]
      simp only [decide_true, Bool.true_and]
      rfl
    · rw [State.announceLeft, State.port_setPort_ne _ _ _ _ same]
      exact ((s.port q).filter_all fun m => by simp [same]).symm
  · show (State.formEnabled _ k.bank k.car).port q = _
    rw [(State.formEnabled_carsOnly _ _ _).port]
    exact ((s.port q).filter_all fun m => by simp).symm

theorem State.cancel_serial : (s.cancel r k).disp.serial = s.disp.serial := by
  rw [State.cancel_eq, State.dropFirstLegTicket_eq]
  show (s.offCar k).disp.serial = _
  unfold State.offCar
  cases k.state
  · rfl
  · exact (State.formEnabled_carsOnly _ _ _).serial

theorem State.cancel_modes : (s.cancel r k).disp.modes = s.disp.modes := (s.cancel_event r k).modes

end

/-! ### The car of a cancelled booking (R85, R87) -/

/-- The new car differs from the old in its list, its planned direction and its enabled set alone. -/
def Car.tableOnly (old new : Car) : Prop :=
  new = { old with stops := new.stops, planned := new.planned, enabled := new.enabled }

theorem Car.tableOnly.refl (c : Car) : c.tableOnly c := rfl

theorem Car.tableOnly.trans {a b c : Car} (h : a.tableOnly b) (g : b.tableOnly c) : a.tableOnly c := by
  unfold Car.tableOnly at *
  rw [g, h]

theorem Car.listOnly.tableOnly {a b : Car} (h : a.listOnly b) : a.tableOnly b := by
  unfold Car.tableOnly Car.listOnly at *
  rw [h]

theorem State.formedCar_tableOnly (s : State) (b : Bank) (c : CarNo) : (s.car b c).tableOnly (s.formedCar b c) := by
  have formed := s.formedCar_listOnly b c
  unfold Car.tableOnly Car.listOnly at *
  rw [formed]

section
variable {old new : Car} (h : old.tableOnly new)
include h

theorem Car.tableOnly.service : new.service = old.service := by rw [h]

theorem Car.tableOnly.status : new.status = old.status := by rw [h]

theorem Car.tableOnly.configured : new.configured = old.configured := by rw [h]; rfl

theorem Car.tableOnly.age : new.age = old.age := by rw [h]

theorem Car.tableOnly.gen : new.gen = old.gen := by rw [h]

theorem Car.tableOnly.confirmed : new.confirmed = old.confirmed := by rw [h]

theorem Car.tableOnly.recallDue : new.recallDue = old.recallDue := by rw [h]

end

section
variable (s : State) (r : CancelReason) (k : Booking)

theorem State.cancel_cars : (s.cancel r k).disp.cars = (s.offCar k).disp.cars := by
  rw [State.cancel_eq, State.dropFirstLegTicket_eq]
  rfl

theorem State.cancel_car_eq (b : Bank) (c : CarNo) : (s.cancel r k).car b c = (s.offCar k).car b c :=
  congrArg (·.get (carIndex b c)) (s.cancel_cars r k)

theorem State.cancel_other {b : Bank} {c : CarNo} (ne : (b, c) ≠ (k.bank, k.car)) :
    (s.cancel r k).car b c = s.car b c := by
  rw [State.cancel_car_eq]
  unfold State.offCar
  have off : ((s.removeBooking k.id).resyncKeep k.bank k.car).car b c = s.car b c := State.resync_other _ ne _
  cases k.state
  · exact off
  · exact (State.formEnabled_other _ ne).trans off

theorem State.cancel_tableOnly (b : Bank) (c : CarNo) : (s.car b c).tableOnly ((s.cancel r k).car b c) := by
  by_cases own : (b, c) = (k.bank, k.car)
  · obtain ⟨rfl, rfl⟩ := Prod.mk.inj own
    rw [State.cancel_car_eq]
    unfold State.offCar
    have off : (s.car k.bank k.car).tableOnly (((s.removeBooking k.id).resyncKeep k.bank k.car).car k.bank k.car) := by
      rw [State.resyncKeep, State.resync_self]
      exact (Car.resync_listOnly _ _ _).tableOnly
    cases k.state
    · exact off
    · show (s.car k.bank k.car).tableOnly ((State.formEnabled _ k.bank k.car).car k.bank k.car)
      rw [State.formEnabled_self]
      exact off.trans (State.formedCar_tableOnly _ _ _)
  · rw [s.cancel_other r k own]
    exact .refl _

theorem State.cancel_listOnly (waits : k.state = .waiting) (b : Bank) (c : CarNo) :
    (s.car b c).listOnly ((s.cancel r k).car b c) := by
  by_cases own : (b, c) = (k.bank, k.car)
  · obtain ⟨rfl, rfl⟩ := Prod.mk.inj own
    rw [State.cancel_car_eq]
    unfold State.offCar
    rw [waits]
    show (s.car k.bank k.car).listOnly ((State.resyncKeep _ k.bank k.car).car k.bank k.car)
    rw [State.resyncKeep, State.resync_self]
    exact Car.resync_listOnly _ _ _
  · rw [s.cancel_other r k own]
    rfl

end

/-! ### Several bookings -/

section
variable (r : CancelReason)

theorem State.cancelAll_cons (s : State) (k : Booking) (ks : List Booking) :
    s.cancelAll r (k :: ks) = (s.cancel r k).cancelAll r ks := rfl

theorem State.cancelAll_tickets (ks : List Booking) (s : State) :
    (s.cancelAll r ks).disp.tickets = s.disp.tickets.filter fun y => !ks.any fun k => k.leads y := by
  induction ks generalizing s with
  | nil => exact (List.filter_eq_self.2 fun _ _ => rfl).symm
  | cons k ks ih =>
    rw [State.cancelAll_cons, ih, State.cancel_tickets, List.filter_filter]
    congr 1
    funext y
    rw [List.any_cons, Bool.not_or, Bool.and_comm]

theorem State.cancelAll_part (ks : List Booking) (s : State) : (s.cancelAll r ks).part = s.part :=
  s.cancelAll_only r ks .part (by decide)

theorem State.cancelAll_policy (ks : List Booking) (s : State) : (s.cancelAll r ks).policy = s.policy :=
  s.cancelAll_only r ks .policy (by decide)

theorem State.cancelAll_modes (ks : List Booking) (s : State) : (s.cancelAll r ks).disp.modes = s.disp.modes :=
  (s.cancelAll_event r ks).modes

theorem State.cancelAll_serial (ks : List Booking) (s : State) : (s.cancelAll r ks).disp.serial = s.disp.serial := by
  induction ks generalizing s with
  | nil => rfl
  | cons k ks ih => exact (ih _).trans (s.cancel_serial r k)

theorem State.cancelAll_host (ks : List Booking) (s : State) :
    (s.cancelAll r ks).host = s.host.posts (ks.map (s.cancelledReport r)) := by
  induction ks generalizing s with
  | nil => rfl
  | cons k ks ih =>
    have clock : (s.cancel r k).part = s.part := s.cancel_only r k .part (by decide)
    have reports : (s.cancel r k).cancelledReport r = s.cancelledReport r := by
      funext x
      rw [State.cancelledReport, clock]
      rfl
    rw [State.cancelAll_cons, ih, State.cancel_host, reports]
    rfl

theorem State.cancelAll_port (ks : List Booking) (s : State) (q : PortNo) :
    (s.cancelAll r ks).port q =
      { s.port q with memory := (s.port q).memory.filter fun m => !ks.any fun k => k.heldBy q m } := by
  induction ks generalizing s with
  | nil => exact ((s.port q).filter_all fun _ => rfl).symm
  | cons k ks ih =>
    rw [State.cancelAll_cons, ih, State.cancel_port]
    have both : ((s.port q).memory.filter fun m => !k.heldBy q m).filter (fun m => !ks.any fun j => j.heldBy q m) =
        (s.port q).memory.filter fun m => !(k :: ks).any fun j => j.heldBy q m := by
      cases (s.port q).memory with
      | none => rfl
      | some m => cases hk : k.heldBy q m <;> simp [Option.filter, hk]
    simp only [both]

theorem State.cancelAll_tableOnly (ks : List Booking) (s : State) (b : Bank) (c : CarNo) :
    (s.car b c).tableOnly ((s.cancelAll r ks).car b c) := by
  induction ks generalizing s with
  | nil => exact .refl _
  | cons k ks ih => exact (s.cancel_tableOnly r k b c).trans (ih _)

theorem State.cancelAll_listOnly {ks : List Booking} (waits : ∀ k ∈ ks, k.state = .waiting) (s : State) (b : Bank)
    (c : CarNo) : (s.car b c).listOnly ((s.cancelAll r ks).car b c) := by
  induction ks generalizing s with
  | nil => rfl
  | cons k ks ih =>
    obtain ⟨first, rest⟩ := List.forall_mem_cons.1 waits
    exact (s.cancel_listOnly r k first b c).trans (ih rest _)

theorem State.cancelAll_other {ks : List Booking} {b : Bank} {c : CarNo} (off : ∀ k ∈ ks, (k.bank, k.car) ≠ (b, c))
    (s : State) : (s.cancelAll r ks).car b c = s.car b c := by
  induction ks generalizing s with
  | nil => rfl
  | cons k ks ih =>
    obtain ⟨first, rest⟩ := List.forall_mem_cons.1 off
    exact (ih rest _).trans (s.cancel_other r k first.symm)

end

/-! ### All bookings of a kind, in serial order -/

/-- R87: every booking of a kind cancelled, in serial order. -/
def State.cancelKind (s : State) (r : CancelReason) (gone : Booking → Bool) : State :=
  s.cancelAll r (serialOrder (s.disp.bookings.filter gone))

theorem any_serialOrder_filter (bs : List Booking) (gone p : Booking → Bool) :
    ((serialOrder (bs.filter gone)).any p) = bs.any fun k => gone k && p k := by
  rw [Bool.eq_iff_iff, List.any_eq_true, List.any_eq_true]
  simp only [mem_serialOrder, List.mem_filter, Bool.and_eq_true, and_assoc]

section
variable (s : State) (r : CancelReason) (gone : Booking → Bool)

theorem State.cancelKind_tickets : (s.cancelKind r gone).disp.tickets = s.ticketsWithout gone := by
  rw [State.cancelKind, State.cancelAll_tickets]
  unfold State.ticketsWithout
  congr 1
  funext y
  rw [any_serialOrder_filter]
  simp only [Booking.leads, Bool.and_assoc]

theorem State.cancelKind_port (q : PortNo) :
    (s.cancelKind r gone).port q = { s.port q with memory := s.memoryWithout gone q } := by
  have same : (s.port q).memory.filter
      (fun m => !(serialOrder (s.disp.bookings.filter gone)).any fun k => k.heldBy q m) = s.memoryWithout gone q := by
    unfold State.memoryWithout
    congr 1
    funext m
    rw [any_serialOrder_filter]
    simp only [Booking.heldBy, Bool.and_assoc]
  rw [State.cancelKind, State.cancelAll_port, same]

theorem State.cancelKind_host : (s.cancelKind r gone).host = s.host.posts (s.cancelReports r gone) :=
  State.cancelAll_host r _ s

theorem State.cancelKind_bookings (once : (s.disp.bookings.map fun k => k.id).Nodup) :
    (s.cancelKind r gone).disp.bookings = s.disp.bookings.filter fun k => !gone k := by
  rw [State.cancelKind, State.cancelAll_bookings]
  refine List.filter_congr fun j hj => ?_
  rw [Bool.eq_iff_iff, List.all_eq_true, Bool.not_eq_true']
  simp only [mem_serialOrder, List.mem_filter, decide_eq_true_eq]
  constructor
  · intro other
    by_contra left
    exact other j ⟨hj, Bool.eq_true_of_not_eq_false left⟩ rfl
  · rintro stays k ⟨hk, leaves⟩ same
    have : j = k := List.inj_on_of_nodup_map once hj hk same
    rw [this, leaves] at stays
    cases stays

theorem State.cancelKind_modes : (s.cancelKind r gone).disp.modes = s.disp.modes := State.cancelAll_modes r _ s

theorem State.cancelKind_serial : (s.cancelKind r gone).disp.serial = s.disp.serial := State.cancelAll_serial r _ s

theorem State.cancelKind_policy : (s.cancelKind r gone).policy = s.policy := State.cancelAll_policy r _ s

theorem State.cancelKind_part : (s.cancelKind r gone).part = s.part := State.cancelAll_part r _ s

theorem State.cancelKind_tableOnly (b : Bank) (c : CarNo) : (s.car b c).tableOnly ((s.cancelKind r gone).car b c) :=
  State.cancelAll_tableOnly r _ s b c

theorem State.cancelKind_other {b : Bank} {c : CarNo}
    (off : ∀ k ∈ s.disp.bookings, gone k = true → (k.bank, k.car) ≠ (b, c)) : (s.cancelKind r gone).car b c = s.car b c :=
  State.cancelAll_other r (fun k hk => by
    rw [mem_serialOrder, List.mem_filter] at hk
    exact off k hk.1 hk.2) s

end

end Sys2Proof.Machine
end

section
/-! SUPPORT. Stop lists (R81, R82): the list that a car takes when it is brought in step with its bookings and its car
calls. -/

namespace Sys2Proof.Machine

/-! ### Sweep order -/

theorem sweepRank_inj {r : Dir} {p : Floor} {d e : Key} (h : sweepRank r p d = sweepRank r p e) : d = e := by
  obtain ⟨f, x⟩ := d
  obtain ⟨g, y⟩ := e
  have floors : f.val = g.val → f = g := Fin.ext
  cases r <;> cases x <;> cases y <;> simp only [sweepRank] at h <;> (try split at h) <;> (try split at h) <;>
    first
      | exact congrArg (Key.mk · _) (floors (by omega))
      | omega

theorem insertStop_perm (r : Dir) (p : Floor) (e : Stop) (xs : List Stop) : (insertStop r p e xs).Perm (e :: xs) := by
  induction xs with
  | nil => exact .refl _
  | cons x xs ih =>
    rw [insertStop]
    split
    · exact .refl _
    · exact (ih.cons x).trans (.swap e x xs)

theorem sortStops_perm (r : Dir) (p : Floor) (xs : List Stop) : (sortStops r p xs).Perm xs := by
  induction xs with
  | nil => exact .refl _
  | cons x xs ih => exact (insertStop_perm r p x _).trans (ih.cons x)

theorem insertStop_sorted {r : Dir} {p : Floor} {xs : List Stop} (e : Stop)
    (sorted : xs.Pairwise fun x y => sweepRank r p x.key ≤ sweepRank r p y.key) :
    (insertStop r p e xs).Pairwise fun x y => sweepRank r p x.key ≤ sweepRank r p y.key := by
  induction xs with
  | nil => exact List.pairwise_singleton _ _
  | cons x xs ih =>
    obtain ⟨above, rest⟩ := List.pairwise_cons.1 sorted
    rw [insertStop]
    split
    next lt =>
      refine List.pairwise_cons.2 ⟨fun y hy => ?_, sorted⟩
      rcases List.mem_cons.1 hy with rfl | hy
      · exact lt.le
      · exact lt.le.trans (above y hy)
    next ge =>
      refine List.pairwise_cons.2 ⟨fun y hy => ?_, ih rest⟩
      rcases List.mem_cons.1 ((insertStop_perm r p e xs).mem_iff.1 hy) with rfl | hy
      · exact Nat.le_of_not_lt ge
      · exact above y hy

theorem sortStops_sorted (r : Dir) (p : Floor) (xs : List Stop) :
    (sortStops r p xs).Pairwise fun x y => sweepRank r p x.key ≤ sweepRank r p y.key := by
  induction xs with
  | nil => exact List.Pairwise.nil
  | cons x xs ih => exact insertStop_sorted x ih

/-- R82: with distinct keys the sorted list is in sweep order. -/
theorem sortStops_sweep {r : Dir} {p : Floor} {xs : List Stop} (once : (xs.map fun e => e.key).Nodup) :
    ((sortStops r p xs).map fun e => e.key).Pairwise (sweepBefore r p) := by
  have distinct := ((sortStops_perm r p xs).map fun e => e.key).nodup_iff.2 once
  refine List.pairwise_map.2 ((sortStops_sorted r p xs).imp₂ ?_ (List.pairwise_map.1 distinct))
  intro x y le ne
  exact sweepRank_lt_iff.1 (lt_of_le_of_ne le fun e => ne (sweepRank_inj e))

theorem Car.sorted_refDir (c : Car) : c.sorted.refDir = c.refDir := rfl

theorem Car.sorted_refPos (c : Car) : c.sorted.refPos = c.refPos := rfl

/-! ### Duties -/

theorem mem_dutyKeys {bs : List Booking} {calls : List Key} {k : Key} :
    k ∈ dutyKeys bs calls ↔
      (∃ b ∈ bs, b.state = .waiting ∧ b.pickupKey = k) ∨ (∃ b ∈ bs, b.state = .riding ∧ b.dropKey = k) ∨ k ∈ calls := by
  simp [dutyKeys, and_assoc]

theorem makeStop_pickup {bs : List Booking} {calls : List Key} {k : Key} :
    (makeStop bs calls k).pickup = true ↔ ∃ b ∈ bs, b.state = .waiting ∧ b.pickupKey = k := by
  simp [makeStop]

theorem makeStop_drop {bs : List Booking} {calls : List Key} {k : Key} :
    (makeStop bs calls k).drop = true ↔ ∃ b ∈ bs, b.state = .riding ∧ b.dropKey = k := by
  simp [makeStop]

theorem makeStop_call {bs : List Booking} {calls : List Key} {k : Key} :
    (makeStop bs calls k).call = true ↔ k ∈ calls := by
  simp [makeStop]

/-! ### A list brought in step -/

section
variable (c : Car) (bs : List Booking) (calls : List Key)

theorem Car.resync_stops_perm :
    (c.resync bs calls).stops.Perm ((dutyKeys bs calls).dedup.map (makeStop bs calls)) := by
  unfold Car.resync
  split
  next none => simp [none]
  next k ks some_ =>
    rw [some_]
    exact sortStops_perm _ _ _

theorem Car.resync_keys_perm : (c.resync bs calls).keys.Perm (dutyKeys bs calls).dedup := by
  have keys := (c.resync_stops_perm bs calls).map fun e => e.key
  rw [List.map_map] at keys
  have same : (dutyKeys bs calls).dedup.map ((fun e : Stop => e.key) ∘ makeStop bs calls) = (dutyKeys bs calls).dedup :=
    List.map_id _
  rwa [same] at keys

theorem Car.mem_resync_stops {e : Stop} :
    e ∈ (c.resync bs calls).stops ↔ ∃ k ∈ dutyKeys bs calls, makeStop bs calls k = e := by
  rw [(c.resync_stops_perm bs calls).mem_iff, List.mem_map]
  simp only [List.mem_dedup]

theorem Car.mem_resync_keys {k : Key} : k ∈ (c.resync bs calls).keys ↔ k ∈ dutyKeys bs calls := by
  rw [(c.resync_keys_perm bs calls).mem_iff, List.mem_dedup]

theorem Car.resync_keys_nodup : (c.resync bs calls).keys.Nodup :=
  (c.resync_keys_perm bs calls).nodup_iff.2 (List.nodup_dedup _)

theorem Car.mem_callKeys {c : Car} {k : Key} : k ∈ c.callKeys ↔ ∃ e ∈ c.stops, e.call = true ∧ e.key = k := by
  simp [Car.callKeys, and_assoc]

theorem Car.mem_resync_callKeys {k : Key} : k ∈ (c.resync bs calls).callKeys ↔ k ∈ calls := by
  rw [Car.mem_callKeys]
  constructor
  · rintro ⟨e, he, call, rfl⟩
    obtain ⟨k, -, rfl⟩ := (c.mem_resync_stops bs calls).1 he
    exact makeStop_call.1 call
  · intro called
    exact ⟨makeStop bs calls k, (c.mem_resync_stops bs calls).2 ⟨k, mem_dutyKeys.2 (.inr (.inr called)), rfl⟩,
      makeStop_call.2 called, rfl⟩

theorem Car.resync_sweep :
    (c.resync bs calls).keys.Pairwise (sweepBefore (c.resync bs calls).refDir (c.resync bs calls).refPos) := by
  unfold Car.resync
  split
  · exact List.Pairwise.nil
  next k ks some_ =>
    refine sortStops_sweep ?_
    have once : (k :: ks).Nodup := some_ ▸ List.nodup_dedup _
    simp only [List.map_map]
    exact (List.map_id (k :: ks)).symm ▸ once

/-- "The planned direction": held exactly while there are entries. -/
def Car.planOk (c : Car) : Prop := c.planned = none ↔ c.stops = []

theorem Car.sorted_stops_nil {c : Car} : c.sorted.stops = [] ↔ c.stops = [] := by
  have perm : c.sorted.stops.Perm c.stops := sortStops_perm c.refDir c.refPos c.stops
  exact ⟨fun e => (perm.symm.trans (.of_eq e)).eq_nil, fun e => (perm.trans (.of_eq e)).eq_nil⟩

theorem Car.resync_planOk {c : Car} (plan : c.planOk) : (c.resync bs calls).planOk := by
  unfold Car.planOk Car.resync
  split
  · exact ⟨fun _ => rfl, fun _ => rfl⟩
  · rw [Car.sorted_stops_nil]
    refine ⟨fun none => ?_, fun none => by cases none⟩
    change (if c.stops = [] then some _ else c.planned) = Option.none at none
    split at none
    · cases none
    next some_ => exact absurd (plan.1 none) some_

theorem Car.listOk.planOk {c : Car} {bs : List Booking} (h : c.listOk bs) : c.planOk := h.2.2.2.2

/-- R81, R82: a list brought in step with the bookings. -/
theorem Car.resync_listOk {c : Car} (plan : c.planOk) : (c.resync bs calls).listOk bs := by
  refine ⟨fun e he => ?_, fun k hk => ?_, c.resync_keys_nodup bs calls, c.resync_sweep bs calls,
    Car.resync_planOk bs calls plan⟩
  · obtain ⟨k, hk, rfl⟩ := (c.mem_resync_stops bs calls).1 he
    refine ⟨makeStop_pickup, makeStop_drop, ?_⟩
    rw [makeStop_pickup, makeStop_drop, makeStop_call]
    exact mem_dutyKeys.1 hk
  · rw [Car.mem_resync_keys, mem_dutyKeys]
    split
    next waits => exact .inl ⟨k, hk, waits, rfl⟩
    next rides =>
      refine .inr (.inl ⟨k, hk, ?_, rfl⟩)
      cases h : k.state
      · exact absurd h rides
      · rfl

end

end Sys2Proof.Machine
end

section
/-! PROOF of O21 (R28, R84, R87, R100): a floor's new record, its closure and the enabled sets; also the floors of an
erased page. -/

namespace Sys2Proof.Machine

/-! ### What the enabled set reads -/

section
variable {s t : State} (modes : t.disp.modes = s.disp.modes) (policy : t.policy = s.policy)
  (bookings : t.disp.bookings = s.disp.bookings)
include modes policy bookings

theorem State.enabledAt_congr (b : Bank) (c : CarNo) (f : Floor) : t.enabledAt b c f ↔ s.enabledAt b c f := by
  unfold State.enabledAt State.serves State.floor State.mode
  rw [modes, policy, bookings]

theorem State.formedCar_congr {b : Bank} {c : CarNo} (car : t.car b c = s.car b c) : t.formedCar b c = s.formedCar b c := by
  unfold State.formedCar State.enabledOf State.openFree State.serves State.floor State.mode State.carBookings
  rw [modes, policy, bookings, car]

end

/-! ### The cars of several banks (R28) -/

/-- R28: the cars of the banks that `p` names form their enabled sets. -/
def State.formBanks (s : State) (p : Bank → Bool) (bs : List Bank) : State :=
  bs.foldl (fun t b => if p b then t.formBank b else t) s

section
variable (p : Bank → Bool)

theorem State.formBanks_carsOnly (bs : List Bank) (s : State) : s.carsOnly (s.formBanks p bs) := by
  induction bs generalizing s with
  | nil => exact .refl s
  | cons b bs ih =>
    refine State.carsOnly.trans (t := if p b then s.formBank b else s) ?_ (ih _)
    split
    · exact s.formBank_carsOnly b
    · exact .refl s

theorem State.formBanks_car {bs : List Bank} (once : bs.Nodup) (s : State) (b : Bank) (c : CarNo) :
    (s.formBanks p bs).car b c =
      if b ∈ bs ∧ p b = true ∧ (s.car b c).configured = true then s.formedCar b c else s.car b c := by
  induction bs generalizing s with
  | nil => exact (if_neg fun h => List.not_mem_nil h.1).symm
  | cons h bs ih =>
    obtain ⟨out, once⟩ := List.nodup_cons.1 once
    let first : State := if p h then s.formBank h else s
    have only : s.carsOnly first := State.formBanks_carsOnly p [h] s
    have rest := ih once first
    show (first.formBanks p bs).car b c = _
    rw [rest]
    by_cases own : b = h
    · subst own
      rw [if_neg fun e => out e.1]
      show (if p b then s.formBank b else s).car b c = _
      by_cases named : p b = true
      · rw [if_pos named, State.formBank_car]
        simp [named]
      · simp [named]
    · have same : first.car b c = s.car b c := by
        show (if p h then s.formBank h else s).car b c = _
        split
        · exact s.formBank_other h own c
        · rfl
      rw [same, State.formedCar_congr only.modes only.policy only.bookings same]
      simp [own]

theorem nodup_allBanks : allBanks.Nodup := by decide

theorem mem_allBanks (b : Bank) : b ∈ allBanks := List.mem_finRange b

end

/-! ### New records of several floors -/

/-- R28: floors take one new record. -/
def State.setFloors (s : State) (fs : List Floor) (r : FloorRec) : State := fs.foldl (fun t f => t.setFloor f r) s

/-- R28: a floor that closes. -/
def State.shuts (s : State) (fs : List Floor) (r : FloorRec) (f : Floor) : Bool :=
  fs.contains f && ((s.floor f).state = .isOpen && r.state = .isClosed)

/-- R28: the WAITING bookings from or to a floor that closes. -/
def State.shutKind (s : State) (fs : List Floor) (r : FloorRec) (k : Booking) : Bool :=
  k.state = .waiting && (s.shuts fs r k.origin || s.shuts fs r k.dest)

theorem State.shuts_iff {s : State} {fs : List Floor} {r : FloorRec} {f : Floor} :
    s.shuts fs r f = true ↔ f ∈ fs ∧ (s.floor f).state = .isOpen ∧ r.state = .isClosed := by
  simp [State.shuts]

section
variable (s : State) (fs : List Floor) (r : FloorRec)

theorem State.setFloors_only : s.changesOnly [.policy] (s.setFloors fs r) :=
  .foldl (fun _ _ h => .step (State.setPolicy_only _ _) h) (.refl _ _)

theorem State.setFloors_policy : (s.setFloors fs r).policy = { s.policy with floors := (s.setFloors fs r).policy.floors } := by
  induction fs generalizing s with
  | nil => rfl
  | cons f fs ih => exact ih (s.setFloor f r)

theorem State.setFloors_disp : (s.setFloors fs r).disp = s.disp := s.setFloors_only fs r .disp (by decide)

theorem State.setFloors_host : (s.setFloors fs r).host = s.host := s.setFloors_only fs r .host (by decide)

theorem State.setFloors_ports : (s.setFloors fs r).ports = s.ports := s.setFloors_only fs r .ports (by decide)

theorem State.setFloors_part : (s.setFloors fs r).part = s.part := s.setFloors_only fs r .part (by decide)

theorem State.setFloors_car (b : Bank) (c : CarNo) : (s.setFloors fs r).car b c = s.car b c :=
  congrArg (fun d : DispatchBlock => d.cars.get (carIndex b c)) (s.setFloors_disp fs r)

theorem State.setFloors_floor (h : Floor) : (s.setFloors fs r).floor h = if h ∈ fs then r else s.floor h := by
  induction fs generalizing s with
  | nil => rfl
  | cons f fs ih =>
    show ((s.setFloor f r).setFloors fs r).floor h = _
    rw [ih]
    by_cases own : h = f
    · subst own
      have self : (s.setFloor h r).floor h = r := Vector.get_set_self _ _ _
      rw [self, ite_self, if_pos List.mem_cons_self]
    · have other : (s.setFloor f r).floor h = s.floor h := Vector.get_set_ne _ _ _ _ (Ne.symm own)
      rw [other]
      simp [own]

theorem State.mem_closing {f : Floor} :
    f ∈ s.closing (fs.map fun f => (f, r)) ↔ f ∈ fs ∧ (s.floor f).state = .isOpen ∧ r.state = .isClosed := by
  simp only [State.closing, List.mem_map, List.mem_filter, Bool.and_eq_true, decide_eq_true_eq]
  constructor
  · rintro ⟨_, ⟨⟨g, hg, rfl⟩, opened, closed⟩, rfl⟩
    exact ⟨hg, opened, closed⟩
  · rintro ⟨hf, opened, closed⟩
    exact ⟨_, ⟨⟨f, hf, rfl⟩, opened, closed⟩, rfl⟩

theorem State.changeFloors_eq :
    s.changeFloors (fs.map fun f => (f, r)) =
      ((s.setFloors fs r).cancelKind .floorClosed (s.shutKind fs r)).formBanks
        (s.concerned (fs.map fun f => (f, r))) allBanks := by
  have kind : (fun k : Booking => Decidable.decide (k.state = .waiting ∧
      (k.origin ∈ s.closing (fs.map fun f => (f, r)) ∨ k.dest ∈ s.closing (fs.map fun f => (f, r))))) = s.shutKind fs r := by
    funext k
    rw [Bool.eq_iff_iff]
    simp only [State.shutKind, State.mem_closing, decide_eq_true_eq, Bool.and_eq_true, Bool.or_eq_true, State.shuts_iff]
  unfold State.changeFloors
  simp only
  rw [kind, List.foldl_map]
  rfl

/-- R28: the tables and reports after floors take one new record. -/
theorem State.changeFloors_carsOnly :
    ((s.setFloors fs r).cancelKind .floorClosed (s.shutKind fs r)).carsOnly
      (s.changeFloors (fs.map fun f => (f, r))) := by
  rw [State.changeFloors_eq]
  exact State.formBanks_carsOnly _ _ _

theorem State.changeFloors_floor (h : Floor) :
    (s.changeFloors (fs.map fun f => (f, r))).floor h = if h ∈ fs then r else s.floor h := by
  rw [← s.setFloors_floor fs r h]
  refine congrArg (fun p : Policy => p.floors.get h) ((s.changeFloors_carsOnly fs r).policy.trans ?_)
  exact State.cancelKind_policy _ _ _

theorem State.changeFloors_tickets :
    (s.changeFloors (fs.map fun f => (f, r))).disp.tickets = s.ticketsWithout (s.shutKind fs r) := by
  rw [(s.changeFloors_carsOnly fs r).tickets, State.cancelKind_tickets, State.ticketsWithout, State.setFloors_disp]
  rfl

theorem State.changeFloors_bookings (once : (s.disp.bookings.map fun k => k.id).Nodup) :
    (s.changeFloors (fs.map fun f => (f, r))).disp.bookings = s.disp.bookings.filter fun k => !s.shutKind fs r k := by
  have disp := s.setFloors_disp fs r
  rw [(s.changeFloors_carsOnly fs r).bookings, State.cancelKind_bookings _ _ _ (by rw [disp]; exact once), disp]

theorem State.changeFloors_memory (q : PortNo) :
    ((s.changeFloors (fs.map fun f => (f, r))).port q).memory = s.memoryWithout (s.shutKind fs r) q := by
  rw [(s.changeFloors_carsOnly fs r).port, State.cancelKind_port]
  unfold State.memoryWithout State.port
  rw [State.setFloors_disp, State.setFloors_ports]

theorem State.changeFloors_host :
    (s.changeFloors (fs.map fun f => (f, r))).host = s.host.posts (s.cancelReports .floorClosed (s.shutKind fs r)) := by
  rw [(s.changeFloors_carsOnly fs r).host, State.cancelKind_host]
  unfold State.cancelReports
  rw [State.setFloors_disp, State.setFloors_host, State.setFloors_part]

theorem State.changeFloors_modes : (s.changeFloors (fs.map fun f => (f, r))).disp.modes = s.disp.modes :=
  (s.changeFloors_event _).modes

end

/-! ### The cars after a change of floors -/

theorem Car.formed_calls {s : State} {b : Bank} {c : CarNo} {e : Stop} (entry : e ∈ (s.formedCar b c).stops)
    (call : e.call = true) (had : (s.car b c).enabled.has e.key.floor = true) :
    (s.enabledOf b c).has e.key.floor = true := by
  let new := s.enabledOf b c
  let kept := (s.car b c).callKeys.filter fun k => !((s.car b c).enabled.has k.floor && !new.has k.floor)
  have stays : e.key ∈ kept := by
    have called : e.key ∈ (s.formedCar b c).callKeys := Car.mem_callKeys.2 ⟨e, entry, call, rfl⟩
    unfold State.formedCar at called
    simp only at called
    split at called
    next same => exact (congrArg (e.key ∈ ·) same).mpr called
    · exact (Car.mem_resync_callKeys _ _ _).1 called
  have test := (List.mem_filter.1 stays).2
  rw [had, Bool.true_and, Bool.not_not] at test
  exact test

section
variable (s : State) (fs : List Floor) (r : FloorRec) (b : Bank) (c : CarNo)

/-- Before the enabled sets are formed, a change of floors has changed lists alone. -/
theorem State.shut_listOnly :
    (s.car b c).listOnly (((s.setFloors fs r).cancelKind .floorClosed (s.shutKind fs r)).car b c) := by
  have kinds : ∀ k ∈ serialOrder ((s.setFloors fs r).disp.bookings.filter (s.shutKind fs r)), k.state = .waiting := by
    intro k hk
    rw [mem_serialOrder, List.mem_filter] at hk
    rw [State.shutKind, Bool.and_eq_true, decide_eq_true_eq] at hk
    exact hk.2.1
  have lists := State.cancelAll_listOnly .floorClosed kinds (s.setFloors fs r) b c
  rwa [State.setFloors_car] at lists

theorem State.changeFloors_car :
    (s.changeFloors (fs.map fun f => (f, r))).car b c =
      let u := (s.setFloors fs r).cancelKind .floorClosed (s.shutKind fs r)
      if s.concerned (fs.map fun f => (f, r)) b = true ∧ (s.car b c).configured = true then u.formedCar b c
      else u.car b c := by
  rw [State.changeFloors_eq, State.formBanks_car _ nodup_allBanks, (s.shut_listOnly fs r b c).configured]
  simp only [mem_allBanks, true_and]

theorem State.changeFloors_service :
    ((s.changeFloors (fs.map fun f => (f, r))).car b c).service = (s.car b c).service := by
  rw [State.changeFloors_car]
  simp only
  split
  · rw [State.formedCar_service, (s.shut_listOnly fs r b c).service]
  · exact (s.shut_listOnly fs r b c).service

/-- R84: a configured car of a bank concerned has its enabled set formed afresh. -/
theorem State.changeFloors_enabled_concerned (concerned : s.concerned (fs.map fun f => (f, r)) b = true)
    (configured : (s.car b c).service ≠ .absent) (h : Floor) :
    ((s.changeFloors (fs.map fun f => (f, r))).car b c).enabled.has h = true ↔
      (s.changeFloors (fs.map fun f => (f, r))).enabledAt b c h := by
  have only := s.changeFloors_carsOnly fs r
  have lists := s.shut_listOnly fs r b c
  rw [State.changeFloors_car, State.enabledAt_congr only.modes only.policy only.bookings]
  simp only
  rw [if_pos ⟨concerned, by simp [Car.configured, configured]⟩, State.formedCar_enabled, State.enabledOf_has]
  exact and_iff_right (lists.service ▸ configured)

theorem State.changeFloors_enabled_other (other : s.concerned (fs.map fun f => (f, r)) b = false) :
    ((s.changeFloors (fs.map fun f => (f, r))).car b c).enabled = (s.car b c).enabled := by
  rw [State.changeFloors_car]
  simp only
  rw [if_neg fun e => by rw [other] at e; cases e.1]
  exact (s.shut_listOnly fs r b c).enabled

theorem State.changeFloors_calls {e : Stop} (entry : e ∈ ((s.changeFloors (fs.map fun f => (f, r))).car b c).stops)
    (call : e.call = true) (had : (s.car b c).enabled.has e.key.floor = true) :
    ((s.changeFloors (fs.map fun f => (f, r))).car b c).enabled.has e.key.floor = true := by
  have enabled := (s.shut_listOnly fs r b c).enabled
  rw [State.changeFloors_car] at entry ⊢
  simp only at entry ⊢
  split
  next formed =>
    rw [if_pos formed] at entry
    rw [State.formedCar_enabled]
    exact Car.formed_calls entry call (enabled ▸ had)
  · rw [enabled]
    exact had

end

/-! ### A floor's program (O21) -/

theorem State.cancelReports_none (s : State) (r : CancelReason) {gone : Booking → Bool} (none : ∀ k, gone k = false) :
    s.cancelReports r gone = [] := by
  have empty : s.disp.bookings.filter gone = [] := List.filter_eq_nil_iff.2 fun k _ => by rw [none]; exact Bool.false_ne_true
  rw [State.cancelReports, empty]
  rfl

theorem State.ticketsWithout_none (s : State) {gone : Booking → Bool} (none : ∀ k, gone k = false) :
    s.ticketsWithout gone = s.disp.tickets :=
  List.filter_eq_self.2 fun y _ => by simp [none]

theorem State.memoryWithout_none (s : State) {gone : Booking → Bool} (none : ∀ k, gone k = false) (q : PortNo) :
    s.memoryWithout gone q = (s.port q).memory := by
  have keep : ∀ m : GrantMemory, (!s.disp.bookings.any fun k => gone k && k.state = .waiting && k.port = q &&
      k.id = m.booking) = true := fun m => by simp [none]
  have whole := (s.port q).filter_all keep
  exact congrArg Port.memory whole

theorem Port.wake_memory (p : Port) : p.wake.memory = p.memory := by
  unfold Port.wake
  split <;> rfl

/-- Settles O21: the change of one floor, at the completion. -/
theorem floorVerifyMatchTakesEffect : Obligations.FloorVerifyMatchTakesEffect := by
  intro s g f r ok flight job shut gone
  let s0 := s.setStore (s.store.complete g)
  have done : s.jobDone g = s0.changeFloors ([f].map fun f => (f, r)) := by
    unfold State.jobDone State.jobCompleted
    rw [job]
    rfl
  have shutKind : shut → s0.shutKind [f] r = gone := by
    rintro ⟨opened, closed⟩
    funext k
    have same : ∀ h, s0.shuts [f] r h = Decidable.decide (h = f) := by
      intro h
      rw [Bool.eq_iff_iff, State.shuts_iff, decide_eq_true_eq, List.mem_singleton]
      exact ⟨And.left, fun e => ⟨e, e ▸ opened, closed⟩⟩
    simp only [State.shutKind, same]
    rfl
  have openKind : ¬ shut → ∀ k, s0.shutKind [f] r k = false := by
    intro stays k
    have none : ∀ h, s0.shuts [f] r h = false := by
      intro h
      rw [← Bool.not_eq_true, State.shuts_iff, List.mem_singleton]
      rintro ⟨rfl, opened, closed⟩
      exact stays ⟨opened, closed⟩
    simp only [State.shutKind, none, Bool.or_false, Bool.and_false]
  have bookings := s0.changeFloors_bookings [f] r ok.1
  have memory : ∀ q, ((s.matched g).port q).memory = s0.memoryWithout (s0.shutKind [f] r) q := fun q => by
    rw [s.matched_port g, Port.wake_memory, done]
    exact s0.changeFloors_memory [f] r q
  have host : (s.matched g).host = (s0.host.posts (s0.cancelReports .floorClosed (s0.shutKind [f] r))).repliesDone := by
    rw [s.matched_host g, done, s0.changeFloors_host]
  have floors : ∀ h, (s.matched g).floor h = if h ∈ [f] then r else s.floor h := fun h => by
    refine (congrArg (fun p : Policy => p.floors.get h) (s.matched_policy g)).trans ?_
    rw [done]
    exact s0.changeFloors_floor [f] r h
  have concerned : ∀ b, s0.concerned ([f].map fun f => (f, r)) b = ((s.floor f).banks.has b || r.banks.has b) := fun b => by
    simp [State.concerned]
    rfl
  refine ⟨_, exec_matched flight, s.matched_stores g, ?_, ?_, ?_, ?_, ?_, fun b c => ?_⟩
  · rw [floors, if_pos List.mem_cons_self]
  · intro h ne
    rw [floors, if_neg (by simpa using ne)]
  · rw [s.matched_modes g, done, s0.changeFloors_modes]
    rfl
  · intro closes
    rw [s.matched_bookings g, s.matched_tickets g, host, done, bookings, s0.changeFloors_tickets, shutKind closes]
    refine ⟨rfl, rfl, fun q => ?_, rfl⟩
    rw [memory, shutKind closes]
    rfl
  · intro stays
    have none := openKind stays
    rw [s.matched_bookings g, s.matched_tickets g, host, done, bookings, s0.changeFloors_tickets,
      s0.cancelReports_none _ none, s0.ticketsWithout_none none]
    refine ⟨?_, rfl, fun q => ?_, rfl⟩
    · exact List.filter_eq_self.2 fun k _ => by rw [none]; rfl
    · rw [memory, s0.memoryWithout_none none]
      rfl
  · rw [s.matched_car g, Car.closeGeneration_service, Car.closeGeneration_enabled, Car.closeGeneration_stops, done]
    refine ⟨s0.changeFloors_service [f] r b c, fun touched configured h => ?_, fun old new => ?_, fun e he call had => ?_⟩
    · have same : (s.matched g).enabledAt b c h ↔ (s0.changeFloors ([f].map fun f => (f, r))).enabledAt b c h := by
        rw [← done]
        exact State.enabledAt_congr (s.matched_modes g) (s.matched_policy g) (s.matched_bookings g) b c h
      rw [same]
      refine s0.changeFloors_enabled_concerned [f] r b c ?_ configured h
      rw [concerned, Bool.or_eq_true]
      exact touched
    · refine s0.changeFloors_enabled_other [f] r b c ?_
      rw [concerned, old, new]
      rfl
    · exact s0.changeFloors_calls [f] r b c he call had

end Sys2Proof.Machine
end

section
/-! SUPPORT. URGENT reports among others in the Report Queue (R173, R174, R176): ROUTINE ones posted after them leave them,
and a later URGENT one joins them. -/

namespace Sys2Proof.Machine

/-- The URGENT reports of a queue, oldest first. -/
def urgentsOf (q : List Report) : List Report := q.filter fun r => r.cls = .urgent

theorem urgentsOf_append (q1 q2 : List Report) : urgentsOf (q1 ++ q2) = urgentsOf q1 ++ urgentsOf q2 := List.filter_append ..

theorem urgentsOf_urgent {r : Report} (h : r.cls = .urgent) : urgentsOf [r] = [r] := by simp [urgentsOf, h]

theorem urgentsOf_routine {r : Report} (h : r.cls = .routine) : urgentsOf [r] = [] := by simp [urgentsOf, h]

theorem urgentsOf_cons_congr {r : Report} {q q' : List Report} (h : urgentsOf q = urgentsOf q') :
    urgentsOf (r :: q) = urgentsOf (r :: q') := by
  have both := urgentsOf_append [r]
  show urgentsOf ([r] ++ q) = urgentsOf ([r] ++ q')
  rw [both, both, h]

theorem urgent_of_not_routine {r : Report} (h : r.cls ≠ .routine) : r.cls = .urgent := by
  cases cls : r.cls
  · exact absurd cls h
  · rfl

/-! ### What an overflow removes (R176) -/

theorem dropLastRoutine_urgents {q q' : List Report} (h : dropLastRoutine q = some q') : urgentsOf q' = urgentsOf q := by
  induction q generalizing q' with
  | nil => cases h
  | cons r rs ih =>
    unfold dropLastRoutine at h
    split at h
    next rs' e =>
      cases h
      exact urgentsOf_cons_congr (ih e)
    · split at h
      next routine =>
        cases h
        simp [urgentsOf, routine]
      · cases h

theorem dropLastRoutine_none {q : List Report} (h : dropLastRoutine q = none) : urgentsOf q = q := by
  refine List.filter_eq_self.2 fun r hr => ?_
  induction q with
  | nil => cases hr
  | cons x xs ih =>
    unfold dropLastRoutine at h
    split at h
    · cases h
    next e =>
      split at h
      · cases h
      next urgent =>
        rcases List.mem_cons.1 hr with rfl | hr
        · exact decide_eq_true (urgent_of_not_routine urgent)
        · exact ih e hr

theorem dropUnsentRoutine_urgents {b : Bool} {q q' : List Report} (h : dropUnsentRoutine b q = some q') :
    urgentsOf q' = urgentsOf q := by
  induction q generalizing q' with
  | nil => cases h
  | cons r rs ih =>
    unfold dropUnsentRoutine at h
    split at h
    · split at h <;> obtain ⟨rs', e, rfl⟩ := Option.map_eq_some_iff.1 h
      · exact urgentsOf_cons_congr (dropLastRoutine_urgents e)
      · exact urgentsOf_cons_congr (ih e)
    · exact dropLastRoutine_urgents h

/-- R176: nothing goes only when all but the report being sent are URGENT. -/
theorem dropUnsentRoutine_none {b : Bool} {q : List Report} (h : dropUnsentRoutine b q = none) :
    q.length ≤ (urgentsOf q).length + 1 := by
  induction q with
  | nil => exact Nat.zero_le _
  | cons r rs ih =>
    unfold dropUnsentRoutine at h
    split at h
    · split at h
      next routine =>
        have all := dropLastRoutine_none (Option.map_eq_none_iff.1 h)
        have none : urgentsOf (r :: rs) = urgentsOf rs := by simp [urgentsOf, routine]
        rw [none, all, List.length_cons]
      next other =>
        have short := ih (Option.map_eq_none_iff.1 h)
        have urgent : r.cls = .urgent := urgent_of_not_routine other
        have counted : urgentsOf (r :: rs) = r :: urgentsOf rs := by simp [urgentsOf, urgent]
        rw [counted, List.length_cons, List.length_cons]
        omega
    · rw [dropLastRoutine_none h]
      omega

/-! ### Posting -/

section
variable {h : HostPort} {r : Report}

theorem HostPort.join_enables (h : HostPort) (r : Report) : (h.join r).enables = h.enables := by
  unfold HostPort.join HostPort.stopRoutine
  simp only
  split
  · split <;> rfl
  · rfl

theorem HostPort.post_enables (h : HostPort) (r : Report) : (h.post r).enables = h.enables := by
  unfold HostPort.post
  split
  · split
    · exact h.join_enables r
    · split
      · rfl
      · split
        · rfl
        · exact HostPort.join_enables _ r
  · rfl

theorem HostPort.post_urgents_of_routine (routine : r.cls = .routine) :
    urgentsOf (h.post r).queue = urgentsOf h.queue := by
  by_cases enabled : h.enables.getLsbD r.body.kind = true
  · by_cases room : h.queue.length < 32
    · rw [HostPort.post_of_room enabled room, HostPort.join_queue, urgentsOf_append, urgentsOf_routine routine,
        List.append_nil]
    · rw [HostPort.post_of_full_routine enabled (Nat.le_of_not_lt room) routine]
  · rw [HostPort.post_of_disabled (Bool.eq_false_of_not_eq_true enabled)]

theorem HostPort.post_urgents_of_disabled (disabled : h.enables.getLsbD r.body.kind = false) :
    urgentsOf (h.post r).queue = urgentsOf h.queue := by
  rw [HostPort.post_of_disabled disabled]

/-- R176: an URGENT report finds room while few URGENT ones are queued. -/
theorem HostPort.post_urgents_of_urgent (urgent : r.cls = .urgent) (enabled : h.enables.getLsbD r.body.kind = true)
    (few : (urgentsOf h.queue).length ≤ 30) : urgentsOf (h.post r).queue = urgentsOf h.queue ++ [r] := by
  by_cases room : h.queue.length < 32
  · rw [HostPort.post_of_room enabled room, HostPort.join_queue, urgentsOf_append, urgentsOf_urgent urgent]
  · have full := Nat.le_of_not_lt room
    cases goes : dropUnsentRoutine (h.tx = .sendingReport .routine) h.queue with
    | none =>
      have short := dropUnsentRoutine_none goes
      omega
    | some q =>
      rw [HostPort.post_of_full_replaces enabled full urgent goes, HostPort.join_queue, urgentsOf_append,
        urgentsOf_urgent urgent, dropUnsentRoutine_urgents goes]

theorem HostPort.posts_cons (rs : List Report) : h.posts (r :: rs) = (h.post r).posts rs := rfl

theorem HostPort.posts_append (h : HostPort) (rs rs' : List Report) : h.posts (rs ++ rs') = (h.posts rs).posts rs' :=
  List.foldl_append

theorem HostPort.posts_enables (h : HostPort) (rs : List Report) : (h.posts rs).enables = h.enables := by
  induction rs generalizing h with
  | nil => rfl
  | cons r rs ih => exact (ih _).trans (h.post_enables r)

theorem HostPort.posts_request (h : HostPort) (rs : List Report) : (h.posts rs).request = h.request := by
  induction rs generalizing h with
  | nil => rfl
  | cons r rs ih => exact (ih _).trans (h.post_request r)

theorem HostPort.posts_urgents {rs : List Report} (routine : ∀ r ∈ rs, r.cls = .routine) (h : HostPort) :
    urgentsOf (h.posts rs).queue = urgentsOf h.queue := by
  induction rs generalizing h with
  | nil => rfl
  | cons r rs ih =>
    obtain ⟨first, rest⟩ := List.forall_mem_cons.1 routine
    exact (ih rest _).trans (HostPort.post_urgents_of_routine first)

theorem mem_of_urgents {q : List Report} {x : Report} (h : x ∈ urgentsOf q) : x ∈ q ∧ x.cls = .urgent := by
  have found := List.mem_filter.1 h
  exact ⟨found.1, of_decide_eq_true found.2⟩

theorem State.cancelReports_routine (s : State) (r : CancelReason) (gone : Booking → Bool) :
    ∀ x ∈ s.cancelReports r gone, x.cls = .routine := by
  intro x hx
  obtain ⟨k, -, rfl⟩ := List.mem_map.1 hx
  rfl

/-! ### The choice keeps every report, but for a gap flag (R174) -/

theorem mem_markOldest {cls : ReportClass} {g : Bool} {q : List Report} {x : Report} (h : x ∈ q) :
    ∃ y ∈ markOldest cls g q, y = { x with gap := y.gap } := by
  induction q with
  | nil => cases h
  | cons r rs ih =>
    unfold markOldest
    split
    · rcases List.mem_cons.1 h with rfl | h
      · exact ⟨_, List.mem_cons_self, rfl⟩
      · exact ⟨x, List.mem_cons_of_mem _ h, rfl⟩
    · rcases List.mem_cons.1 h with rfl | h
      · exact ⟨x, List.mem_cons_self, rfl⟩
      · obtain ⟨y, hy, same⟩ := ih h
        exact ⟨y, List.mem_cons_of_mem _ hy, same⟩

theorem HostPort.mem_choose {x : Report} (held : x ∈ h.queue) :
    ∃ y ∈ h.choose.queue, y.cls = x.cls ∧ y.clock = x.clock ∧ y.body = x.body := by
  unfold HostPort.choose
  split
  · split
    · exact ⟨x, held, rfl, rfl, rfl⟩
    · split
      · exact ⟨x, held, rfl, rfl, rfl⟩
      · split
        · exact ⟨x, held, rfl, rfl, rfl⟩
        · obtain ⟨y, hy, same⟩ := mem_markOldest held
          exact ⟨y, hy, by rw [same], by rw [same], by rw [same]⟩
  · exact ⟨x, held, rfl, rfl, rfl⟩

theorem HostPort.mem_replies {status : ReplyStatus} {x : Report} (held : x ∈ h.queue) :
    ∃ y ∈ (h.replies status).queue, y.cls = x.cls ∧ y.clock = x.clock ∧ y.body = x.body := by
  unfold HostPort.replies
  cases h.request
  all_goals exact HostPort.mem_choose held

end

end Sys2Proof.Machine
end

section
/-! SUPPORT. A change of mode (R152 to R156): what it leaves of the tables, the reports, the memories and the cars. -/

namespace Sys2Proof.Machine

/-! ### A bank's mode -/

section
variable (s : State) (b : Bank) (m : BankMode)

theorem State.setMode_car (h : Bank) (c : CarNo) : (s.setMode b m).car h c = s.car h c := rfl

end

theorem Car.configured_iff {c : Car} : c.configured = true ↔ c.service ≠ .absent := by simp [Car.configured]

/-! ### Clearing a bank (R153, R154) -/

/-- R153, R154 steps 1 and 2: the bookings of a bank cancelled and the tickets that name it removed. -/
def State.emptied (s : State) (b : Bank) (r : CancelReason) : State :=
  let s1 := s.cancelKind r fun k => k.bank = b
  s1.setTickets (s1.disp.tickets.filter fun t => !t.names b)

section
variable (s : State) (b : Bank) (r : CancelReason)

theorem State.emptied_bookings (once : (s.disp.bookings.map fun k => k.id).Nodup) :
    (s.emptied b r).disp.bookings = s.disp.bookings.filter fun k => k.bank ≠ b := by
  have kept := s.cancelKind_bookings r (fun k => k.bank = b) once
  simp only [← decide_not] at kept
  exact kept

theorem State.emptied_tickets :
    (s.emptied b r).disp.tickets = (s.ticketsWithout fun k => k.bank = b).filter fun t => !t.names b :=
  congrArg (List.filter _) (s.cancelKind_tickets r _)

theorem State.emptied_port (q : PortNo) :
    (s.emptied b r).port q = { s.port q with memory := s.memoryWithout (fun k => k.bank = b) q } := s.cancelKind_port r _ q

theorem State.emptied_host : (s.emptied b r).host = s.host.posts (s.cancelReports r fun k => k.bank = b) :=
  s.cancelKind_host r _

theorem State.emptied_policy : (s.emptied b r).policy = s.policy := s.cancelKind_policy r _

theorem State.emptied_part : (s.emptied b r).part = s.part := s.cancelKind_part r _

theorem State.emptied_modes : (s.emptied b r).disp.modes = s.disp.modes := s.cancelKind_modes r _

theorem State.emptied_serial : (s.emptied b r).disp.serial = s.disp.serial := s.cancelKind_serial r _

theorem State.emptied_tableOnly (h : Bank) (c : CarNo) : (s.car h c).tableOnly ((s.emptied b r).car h c) :=
  s.cancelKind_tableOnly r _ h c

theorem State.emptied_other {h : Bank} (ne : h ≠ b) (c : CarNo) : (s.emptied b r).car h c = s.car h c :=
  s.cancelKind_other r _ fun _ _ own e => ne ((Prod.mk.inj e).1.symm.trans (of_decide_eq_true own))

/-- A car without bookings is not touched. -/
theorem State.emptied_unbooked {c : CarNo} (none : s.carBookings b c = []) : (s.emptied b r).car b c = s.car b c := by
  refine s.cancelKind_other r _ fun k hk _ e => ?_
  obtain ⟨bank, car⟩ := Prod.mk.inj e
  exact List.filter_eq_nil_iff.1 none k hk (decide_eq_true ⟨bank, car⟩)

/-- The stop list of a car emptied. -/
def Car.unlisted (c : Car) : Car := { c with stops := [], planned := none }

theorem State.clearBank_eq : s.clearBank b r = (s.emptied b r).eachConfigured b Car.unlisted := rfl

theorem State.clearBank_carsOnly : (s.emptied b r).carsOnly (s.clearBank b r) := by
  rw [State.clearBank_eq]
  exact State.eachConfigured_carsOnly _ _ _

theorem State.clearBank_other {h : Bank} (ne : h ≠ b) (c : CarNo) : (s.clearBank b r).car h c = s.car h c := by
  rw [State.clearBank_eq, State.eachConfigured_other _ _ _ ne, s.emptied_other b r ne]

theorem State.clearBank_car (c : CarNo) :
    (s.clearBank b r).car b c =
      if (s.car b c).configured then ((s.emptied b r).car b c).unlisted else (s.emptied b r).car b c := by
  rw [State.clearBank_eq, State.eachConfigured_car, (s.emptied_tableOnly b r b c).configured]

end

/-! ### Entering OUT and FIRE_RECALL -/

theorem Car.callKeys_of_empty {c : Car} (empty : c.stops = []) : c.callKeys = [] := by
  rw [Car.callKeys, empty]
  rfl

theorem State.formedCar_of_empty {s : State} {b : Bank} {c : CarNo} (empty : (s.car b c).stops = []) :
    s.formedCar b c = { s.car b c with enabled := s.enabledOf b c } := by
  unfold State.formedCar
  simp only
  rw [Car.callKeys_of_empty empty]
  rfl

section
variable (s : State) (b : Bank)

theorem State.enterOut_carsOnly : (s.emptied b .bankOut).carsOnly (s.enterOut b) :=
  (s.clearBank_carsOnly b .bankOut).trans (State.formBank_carsOnly _ _)

theorem State.enterFire_carsOnly : (s.emptied b .recalled).carsOnly (s.enterFire b) :=
  (s.clearBank_carsOnly b .recalled).trans (State.eachConfigured_carsOnly _ _ _)

theorem State.enterOut_other {h : Bank} (ne : h ≠ b) (c : CarNo) : (s.enterOut b).car h c = s.car h c :=
  (State.formBank_other _ _ ne c).trans (s.clearBank_other b .bankOut ne c)

theorem State.enterFire_other {h : Bank} (ne : h ≠ b) (c : CarNo) : (s.enterFire b).car h c = s.car h c :=
  (State.eachConfigured_other _ _ _ ne c).trans (s.clearBank_other b .recalled ne c)

theorem State.enterOut_car {c : CarNo} (configured : (s.car b c).configured = true) :
    (s.enterOut b).car b c =
      { s.car b c with stops := [], planned := none, enabled := (s.clearBank b .bankOut).enabledOf b c } := by
  have table := s.emptied_tableOnly b .bankOut b c
  have cleared := s.clearBank_car b .bankOut c
  rw [if_pos configured] at cleared
  have still : ((s.clearBank b .bankOut).car b c).configured = true := by
    rw [cleared]
    exact (table.configured).trans configured
  have empty : ((s.clearBank b .bankOut).car b c).stops = [] := by
    rw [cleared]
    rfl
  rw [State.enterOut, State.formBank_car, if_pos still, State.formedCar_of_empty empty, cleared, Car.unlisted]
  unfold Car.tableOnly at table
  rw [table]

theorem State.enterFire_car {c : CarNo} (configured : (s.car b c).configured = true) :
    (s.enterFire b).car b c =
      { s.car b c with stops := [], planned := none, enabled := 0, recallDue := true, service := .recalled } := by
  have table := s.emptied_tableOnly b .recalled b c
  have cleared := s.clearBank_car b .recalled c
  rw [if_pos configured] at cleared
  have still : ((s.clearBank b .recalled).car b c).configured = true := by
    rw [cleared]
    exact (table.configured).trans configured
  rw [State.enterFire, State.eachConfigured_car, if_pos still, cleared, Car.recalled, Car.unlisted]
  unfold Car.tableOnly at table
  rw [table]

section
variable {c : CarNo} (absent : (s.car b c).configured = false) (none : s.carBookings b c = [])
include absent none

theorem State.clearBank_absent (r : CancelReason) : (s.clearBank b r).car b c = s.car b c := by
  rw [State.clearBank_car, absent, if_neg Bool.false_ne_true, State.emptied_unbooked _ _ _ none]

theorem State.enterOut_absent : (s.enterOut b).car b c = s.car b c := by
  have same := s.clearBank_absent b absent none .bankOut
  rw [State.enterOut, State.formBank_car, same, absent, if_neg Bool.false_ne_true]

theorem State.enterFire_absent : (s.enterFire b).car b c = s.car b c := by
  have same := s.clearBank_absent b absent none .recalled
  rw [State.enterFire, State.eachConfigured_car, same, absent, if_neg Bool.false_ne_true]

end
end

/-! ### Leaving FIRE_RECALL (R155) -/

section
variable (s : State) (b : Bank)

theorem State.leaveFire_carsOnly : s.carsOnly (s.leaveFire b) :=
  (s.eachConfigured_carsOnly b _).trans (State.formBank_carsOnly _ _)

theorem State.leaveFire_other {h : Bank} (ne : h ≠ b) (c : CarNo) : (s.leaveFire b).car h c = s.car h c :=
  (State.formBank_other _ _ ne c).trans (s.eachConfigured_other b _ ne c)

theorem State.leaveRecall_configured (x : Car) : (s.leaveRecall b x).configured = x.configured := by
  by_cases silent : x.service = .recalled ∧ s.silent b x.age = true
  · simp [Car.configured, State.leaveRecall, silent]
  · simp [Car.configured, State.leaveRecall, silent]

theorem State.leaveFire_car {c : CarNo} (configured : (s.car b c).configured = true) :
    (s.leaveRecall b (s.car b c)).tableOnly ((s.leaveFire b).car b c) ∧
      ((s.leaveFire b).car b c).enabled = (s.eachConfigured b (s.leaveRecall b)).enabledOf b c := by
  have left := s.eachConfigured_car b (s.leaveRecall b) c
  rw [if_pos configured] at left
  have still : ((s.eachConfigured b (s.leaveRecall b)).car b c).configured = true := by
    rw [left, State.leaveRecall_configured]
    exact configured
  rw [State.leaveFire, State.formBank_car, if_pos still]
  have formed := (s.eachConfigured b (s.leaveRecall b)).formedCar_tableOnly b c
  rw [left] at formed
  exact ⟨formed, State.formedCar_enabled _ _ _⟩

theorem State.leaveFire_absent {c : CarNo} (absent : (s.car b c).configured = false) :
    (s.leaveFire b).car b c = s.car b c := by
  have left := s.eachConfigured_car b (s.leaveRecall b) c
  rw [absent, if_neg Bool.false_ne_true] at left
  rw [State.leaveFire, State.formBank_car, left, absent, if_neg Bool.false_ne_true]

end

/-! ### A change of mode (R152) -/

/-- R152, R155: the bank after the new mode is written and FIRE_RECALL is left. -/
def State.modeLeft (s : State) (b : Bank) (old new : BankMode) : State :=
  if old = .fireRecall then (s.setMode b new).leaveFire b else s.setMode b new

/-- R152: the bank after both halves of a change of mode, before its report. -/
def State.modeChanged (s : State) (b : Bank) (old new : BankMode) : State := (s.setMode b new).modeEffects b old new

/-- R153, R154: why a bank's bookings are cancelled when it takes a mode. -/
def clearReason (new : BankMode) : CancelReason := if new = .out then .bankOut else .recalled

/-- The BANK_MODE report (R152). -/
def State.modeReport (s : State) (b : Bank) (old new : BankMode) (i : Bool) (t : State) : Report :=
  { cls := .urgent, clock := s.part.clock, gap := false,
    body := .bankMode b old new i (s.disp.bookings.length - t.disp.bookings.length)
      (s.disp.tickets.length - t.disp.tickets.length) }

section
variable (s : State) (b : Bank) (old new : BankMode)

theorem State.modeLeft_fire : s.modeLeft b .fireRecall new = (s.setMode b new).leaveFire b := if_pos rfl

theorem State.modeLeft_carsOnly : (s.setMode b new).carsOnly (s.modeLeft b old new) := by
  unfold State.modeLeft
  split
  · exact State.leaveFire_carsOnly _ _
  · exact .refl _

theorem State.modeLeft_other {h : Bank} (ne : h ≠ b) (c : CarNo) : (s.modeLeft b old new).car h c = s.car h c := by
  unfold State.modeLeft
  split
  · exact State.leaveFire_other _ _ ne c
  · rfl

theorem State.modeLeft_absent {c : CarNo} (absent : (s.car b c).configured = false) :
    (s.modeLeft b old new).car b c = s.car b c := by
  unfold State.modeLeft
  split
  · exact State.leaveFire_absent _ _ absent
  · rfl

theorem State.modeLeft_configured (c : CarNo) :
    ((s.modeLeft b old new).car b c).configured = (s.car b c).configured := by
  cases configured : (s.car b c).configured with
  | false => rw [State.modeLeft_absent _ _ _ _ configured, configured]
  | true =>
    unfold State.modeLeft
    split
    · rw [((s.setMode b new).leaveFire_car b configured).1.configured, State.leaveRecall_configured]
      exact configured
    · exact configured

theorem State.modeLeft_part : (s.modeLeft b old new).part = s.part := (s.modeLeft_carsOnly b old new).part

theorem State.modeChanged_out : s.modeChanged b old .out = (s.modeLeft b old .out).enterOut b := rfl

theorem State.modeChanged_fire : s.modeChanged b old .fireRecall = (s.modeLeft b old .fireRecall).enterFire b := rfl

/-- The tables of a bank that a mode clears are those of the emptied bank. -/
theorem State.modeChanged_carsOnly (clears : new = .out ∨ new = .fireRecall) :
    ((s.modeLeft b old new).emptied b (clearReason new)).carsOnly (s.modeChanged b old new) := by
  rcases clears with rfl | rfl
  · rw [State.modeChanged_out]
    exact State.enterOut_carsOnly _ _
  · rw [State.modeChanged_fire]
    exact State.enterFire_carsOnly _ _

theorem State.modeChanged_keeps (keeps : ¬ (new = .out ∨ new = .fireRecall)) :
    s.modeChanged b old new = s.modeLeft b old new := by
  rw [not_or] at keeps
  cases new
  · exact absurd rfl keeps.1
  · rfl
  · rfl
  · rfl
  · exact absurd rfl keeps.2

theorem State.changeMode_eq {s : State} {b : Bank} {old : BankMode} (had : s.mode b = some old) (new : BankMode) (i : Bool) :
    s.changeMode b new i =
      (s.modeChanged b old new).setHost
        ((s.modeChanged b old new).host.post (s.modeReport b old new i (s.modeChanged b old new))) := by
  have part : (s.modeChanged b old new).part = s.part := by
    by_cases clears : new = .out ∨ new = .fireRecall
    · rw [(s.modeChanged_carsOnly b old new clears).part, State.emptied_part, State.modeLeft_part]
    · rw [s.modeChanged_keeps b old new clears, State.modeLeft_part]
  have clock : (s.modeChanged b old new).now = s.part.clock := congrArg Part.clock part
  unfold State.changeMode
  rw [had]
  show (s.modeChanged b old new).post .urgent _ = _
  rw [State.post, clock]
  rfl

section
variable (clears : new = .out ∨ new = .fireRecall)
include clears

theorem State.modeChanged_bookings (once : (s.disp.bookings.map fun k => k.id).Nodup) :
    (s.modeChanged b old new).disp.bookings = s.disp.bookings.filter fun k => k.bank ≠ b := by
  have same : (s.modeLeft b old new).disp.bookings = s.disp.bookings := (s.modeLeft_carsOnly b old new).bookings
  rw [(s.modeChanged_carsOnly b old new clears).bookings, State.emptied_bookings _ _ _ (by rw [same]; exact once), same]

theorem State.modeChanged_tickets :
    (s.modeChanged b old new).disp.tickets = (s.ticketsWithout fun k => k.bank = b).filter fun t => !t.names b := by
  have bookings : (s.modeLeft b old new).disp.bookings = s.disp.bookings := (s.modeLeft_carsOnly b old new).bookings
  have tickets : (s.modeLeft b old new).disp.tickets = s.disp.tickets := (s.modeLeft_carsOnly b old new).tickets
  rw [(s.modeChanged_carsOnly b old new clears).tickets, State.emptied_tickets, State.ticketsWithout, bookings, tickets]
  rfl

theorem State.modeChanged_port (q : PortNo) :
    (s.modeChanged b old new).port q = { s.port q with memory := s.memoryWithout (fun k => k.bank = b) q } := by
  have bookings : (s.modeLeft b old new).disp.bookings = s.disp.bookings := (s.modeLeft_carsOnly b old new).bookings
  have port : (s.modeLeft b old new).port q = s.port q := (s.modeLeft_carsOnly b old new).port q
  rw [(s.modeChanged_carsOnly b old new clears).port, State.emptied_port, State.memoryWithout, bookings, port]
  rfl

theorem State.modeChanged_host :
    (s.modeChanged b old new).host = s.host.posts (s.cancelReports (clearReason new) fun k => k.bank = b) := by
  have bookings : (s.modeLeft b old new).disp.bookings = s.disp.bookings := (s.modeLeft_carsOnly b old new).bookings
  have host : (s.modeLeft b old new).host = s.host := (s.modeLeft_carsOnly b old new).host
  rw [(s.modeChanged_carsOnly b old new clears).host, State.emptied_host, State.cancelReports, bookings, host,
    State.modeLeft_part]
  rfl

end

theorem State.modeChanged_policy : (s.modeChanged b old new).policy = s.policy := by
  by_cases clears : new = .out ∨ new = .fireRecall
  · rw [(s.modeChanged_carsOnly b old new clears).policy, State.emptied_policy]
    exact (s.modeLeft_carsOnly b old new).policy
  · rw [s.modeChanged_keeps b old new clears]
    exact (s.modeLeft_carsOnly b old new).policy

theorem State.modeChanged_modes : (s.modeChanged b old new).disp.modes = (s.setMode b new).disp.modes := by
  by_cases clears : new = .out ∨ new = .fireRecall
  · rw [(s.modeChanged_carsOnly b old new clears).modes, State.emptied_modes]
    exact (s.modeLeft_carsOnly b old new).modes
  · rw [s.modeChanged_keeps b old new clears]
    exact (s.modeLeft_carsOnly b old new).modes

theorem State.modeChanged_other {h : Bank} (ne : h ≠ b) (c : CarNo) :
    (s.modeChanged b old new).car h c = s.car h c := by
  by_cases clears : new = .out ∨ new = .fireRecall
  · rcases clears with rfl | rfl
    · rw [State.modeChanged_out, State.enterOut_other _ _ ne, s.modeLeft_other b old .out ne]
    · rw [State.modeChanged_fire, State.enterFire_other _ _ ne, s.modeLeft_other b old .fireRecall ne]
  · rw [s.modeChanged_keeps b old new clears, s.modeLeft_other b old new ne]

theorem State.modeChanged_absent {c : CarNo} (absent : (s.car b c).configured = false) (none : s.carBookings b c = []) :
    (s.modeChanged b old new).car b c = s.car b c := by
  have left := s.modeLeft_absent b old new absent
  have unbooked : (s.modeLeft b old new).carBookings b c = [] :=
    ((s.modeLeft_carsOnly b old new).carBookings b c).trans none
  by_cases clears : new = .out ∨ new = .fireRecall
  · rcases clears with rfl | rfl
    · rw [State.modeChanged_out, State.enterOut_absent _ b (left ▸ absent) unbooked, left]
    · rw [State.modeChanged_fire, State.enterFire_absent _ b (left ▸ absent) unbooked, left]
  · rw [s.modeChanged_keeps b old new clears, left]

section
variable {c : CarNo} (configured : (s.car b c).configured = true)
include configured

/-- R153: a car of a bank that enters OUT. -/
theorem State.modeChanged_out_car :
    (s.modeChanged b old .out).car b c =
      { (s.modeLeft b old .out).car b c with
        stops := [], planned := none, enabled := ((s.modeLeft b old .out).clearBank b .bankOut).enabledOf b c } := by
  rw [State.modeChanged_out, State.enterOut_car _ b ((s.modeLeft_configured b old .out c).trans configured)]

/-- R154: a car of a bank that enters FIRE_RECALL. -/
theorem State.modeChanged_fire_car :
    (s.modeChanged b old .fireRecall).car b c =
      { (s.modeLeft b old .fireRecall).car b c with
        stops := [], planned := none, enabled := 0, recallDue := true, service := .recalled } := by
  rw [State.modeChanged_fire, State.enterFire_car _ b ((s.modeLeft_configured b old .fireRecall c).trans configured)]

/-- R155: a car of a bank that leaves FIRE_RECALL. -/
theorem State.modeLeft_fire_car :
    (s.leaveRecall b (s.car b c)).tableOnly ((s.modeLeft b .fireRecall new).car b c) := by
  rw [State.modeLeft_fire]
  exact ((s.setMode b new).leaveFire_car b configured).1

/-- R84: the enabled set of a configured car whose bank leaves FIRE_RECALL. -/
theorem State.modeLeft_fire_enabled (f : Floor) :
    ((s.modeLeft b .fireRecall new).car b c).enabled.has f = true ↔ (s.modeLeft b .fireRecall new).enabledAt b c f := by
  obtain ⟨table, enabled⟩ := (s.setMode b new).leaveFire_car b configured
  have only := (s.setMode b new).eachConfigured_carsOnly b ((s.setMode b new).leaveRecall b)
  have whole := s.modeLeft_carsOnly b .fireRecall new
  rw [State.enabledAt_congr whole.modes whole.policy whole.bookings, State.modeLeft_fire, enabled, State.enabledOf_has,
    State.enabledAt_congr only.modes only.policy only.bookings]
  refine and_iff_right (Car.configured_iff.1 ?_)
  rw [State.eachConfigured_car, if_pos (by exact configured), State.leaveRecall_configured]
  exact configured

/-- R84: the enabled set of a configured car whose bank enters OUT. -/
theorem State.modeChanged_out_enabled (f : Floor) :
    ((s.modeChanged b old .out).car b c).enabled.has f = true ↔ (s.modeChanged b old .out).enabledAt b c f := by
  have only : ((s.modeLeft b old .out).clearBank b .bankOut).carsOnly (s.modeChanged b old .out) := by
    rw [State.modeChanged_out]
    exact State.formBank_carsOnly _ _
  have car := s.modeChanged_out_car b old configured
  rw [car, State.enabledOf_has, ← State.enabledAt_congr only.modes only.policy only.bookings]
  refine and_iff_right (Car.configured_iff.1 ?_)
  have still := (s.modeLeft_configured b old .out c).trans configured
  rw [State.clearBank_car, if_pos still]
  exact (State.emptied_tableOnly _ b .bankOut b c).configured.trans still

end
end

end Sys2Proof.Machine
end

section
/-! PROOF of O26 and O27 (R149 to R158): recall edges and completed SET-BANK-MODE requests. -/

namespace Sys2Proof.Machine

/-! ### The URGENT reports of a change of mode -/

section
variable {h : HostPort} {rs : List Report} {r : Report} (routine : ∀ x ∈ rs, x.cls = .routine) (urgent : r.cls = .urgent)
  (few : (urgentsOf h.queue).length ≤ 30)
include routine urgent few

theorem HostPort.posts_last_urgents (enabled : h.enables.getLsbD r.body.kind = true) :
    urgentsOf (h.posts (rs ++ [r])).queue = urgentsOf h.queue ++ [r] := by
  rw [HostPort.posts_append]
  have before := HostPort.posts_urgents routine h
  rw [← before] at few ⊢
  exact HostPort.post_urgents_of_urgent urgent (by rw [HostPort.posts_enables]; exact enabled) few

theorem HostPort.mem_posts_last (enabled : h.enables.getLsbD r.body.kind = true) : r ∈ (h.posts (rs ++ [r])).queue := by
  have last : r ∈ urgentsOf (h.posts (rs ++ [r])).queue := by
    rw [HostPort.posts_last_urgents routine urgent few enabled]
    exact List.mem_append_right _ List.mem_cons_self
  exact (mem_of_urgents last).1

theorem HostPort.mem_posts_first {x : Report} (held : x ∈ urgentsOf h.queue) : x ∈ (h.posts (rs ++ [r])).queue := by
  by_cases enabled : h.enables.getLsbD r.body.kind = true
  · have stays : x ∈ urgentsOf (h.posts (rs ++ [r])).queue := by
      rw [HostPort.posts_last_urgents routine urgent few enabled]
      exact List.mem_append_left _ held
    exact (mem_of_urgents stays).1
  · have disabled : (h.posts rs).enables.getLsbD r.body.kind = false := by
      rw [HostPort.posts_enables]
      exact Bool.eq_false_of_not_eq_true enabled
    have stays : x ∈ urgentsOf (h.posts (rs ++ [r])).queue := by
      rw [HostPort.posts_append]
      refine (HostPort.post_urgents_of_disabled disabled).symm ▸ ?_
      rw [HostPort.posts_urgents routine]
      exact held
    exact (mem_of_urgents stays).1

end

/-! ### A recall edge (R157, R158) -/

section
variable {s : State} {b : Bank} (running : s.part.state = .running)
include running

theorem exec_recallAsserted_edge (edge : s.pins.rcl.get b = false) :
    exec (.recallInputAsserted b) s =
      .next ((s.setRcl b true).closeCars (((s.setRcl b true).post .urgent (.recallInput b true)).forceRecall b)).choose :=
  if_pos ⟨decide_eq_true running, edge⟩

theorem exec_recallDeasserted_edge (edge : s.pins.rcl.get b = true) :
    exec (.recallInputDeasserted b) s = .next ((s.setRcl b false).post .urgent (.recallInput b false)).choose :=
  if_pos ⟨decide_eq_true running, edge⟩

end

theorem State.setRcl_same {s : State} {b : Bank} {x : Bool} (same : s.pins.rcl.get b = x) : s.setRcl b x = s := by
  subst same
  simp [State.setRcl, State.setPins, Vector.get_eq_getElem]

theorem exec_recallAsserted_level {s : State} {b : Bank} (h : ¬ (s.running = true ∧ s.pins.rcl.get b = false)) :
    exec (.recallInputAsserted b) s = .next (s.setRcl b true) := if_neg h

theorem exec_recallDeasserted_level {s : State} {b : Bank} (h : ¬ (s.running = true ∧ s.pins.rcl.get b = true)) :
    exec (.recallInputDeasserted b) s = .next (s.setRcl b false) := if_neg h

theorem State.enabledAt_unbooked {s : State} {b : Bank} {c : CarNo} (mode : s.mode b ≠ some .fireRecall)
    (none : ∀ k ∈ s.disp.bookings, k.bank ≠ b) (f : Floor) :
    s.enabledAt b c f ↔ (s.floor f).state = .isOpen ∧ (s.floor f).kind ≠ .ordinary ∧ s.serves b f = true := by
  unfold State.enabledAt
  constructor
  · rintro ⟨-, opened | ⟨k, hk, bank, -⟩⟩
    · exact opened
    · exact absurd bank (none k hk)
  · exact fun opened => ⟨mode, .inl opened⟩

theorem State.carBookings_of_carOk {s : State} {b : Bank} {c : CarNo} (ok : s.carOk b c)
    (absent : (s.car b c).service = .absent) : s.carBookings b c = [] := by
  obtain ⟨-, -, -, -, -, -, empty⟩ := ok
  exact (empty absent).1

theorem Car.not_configured {c : Car} (absent : c.service = .absent) : c.configured = false := by simp [Car.configured, absent]

/-! ### The close of a change that ends with a report -/

/-- An event that began in `s1` and led to `u`, closed with the host port `h`. -/
def State.closesWith (s1 u : State) (h : HostPort) : State := (s1.closeCars (u.setHost h)).choose

section
variable (s1 u : State) (h : HostPort)

theorem State.closesWith_bookings : (s1.closesWith u h).disp.bookings = u.disp.bookings :=
  s1.closeCars_bookings (u.setHost h)

theorem State.closesWith_tickets : (s1.closesWith u h).disp.tickets = u.disp.tickets :=
  s1.closeCars_tickets (u.setHost h)

theorem State.closesWith_modes : (s1.closesWith u h).disp.modes = u.disp.modes := s1.closeCars_modes (u.setHost h)

theorem State.closesWith_mode (b : Bank) : (s1.closesWith u h).mode b = u.mode b :=
  congrArg (·.get b) (s1.closesWith_modes u h)

theorem State.closesWith_serial : (s1.closesWith u h).disp.serial = u.disp.serial := s1.closeCars_serial (u.setHost h)

theorem State.closesWith_car (b : Bank) (c : CarNo) :
    (s1.closesWith u h).car b c = Car.closeGeneration (s1.car b c) (u.car b c) := s1.closeCars_car (u.setHost h) b c

theorem State.closesWith_port (q : PortNo) : (s1.closesWith u h).port q = u.port q :=
  congrArg (·.get q) (s1.closeCars_only (u.setHost h) .ports (by decide))

theorem State.closesWith_host : (s1.closesWith u h).host = h.choose :=
  congrArg HostPort.choose (s1.closeCars_only (u.setHost h) .host (by decide))

theorem State.closesWith_only : u.changesOnly [.disp, .lines, .host] (s1.closesWith u h) :=
  .step (State.choose_only _) (.step (State.closeCars_only _ _) (.step (State.setHost_only _ _) (.refl _ _)))

end

theorem State.modeChanged_only (s : State) (b : Bank) (old new : BankMode) :
    s.changesOnly [.ports, .disp, .host] (s.modeChanged b old new) :=
  .step (State.modeEffects_only _ _ _ _) (.step (State.setMode_only _ _ _) (.refl _ _))

/-- R154, R158: an assertion edge at a bank in another mode. -/
theorem exec_recallAsserted_enters {s : State} {b : Bank} {m : BankMode} (running : s.part.state = .running)
    (edge : s.pins.rcl.get b = false) (had : s.mode b = some m) (other : m ≠ .fireRecall) (ok : s.bookingsOk) :
    ∃ t, exec (.recallInputAsserted b) s = .next t ∧ s.changesOnly [.pins, .ports, .disp, .lines, .host] t ∧
      t.pins = { s.pins with rcl := s.pins.rcl.set b true } ∧ t.mode b = some .fireRecall ∧
      t.disp.bookings = s.disp.bookings.filter (fun k => k.bank ≠ b) ∧
      t.disp.tickets = ((s.ticketsWithout fun k => k.bank = b).filter fun x => !x.names b) ∧
      (∀ q, (t.port q).memory = s.memoryWithout (fun k => k.bank = b) q) ∧
      t.host = (s.host.posts
        ({ cls := .urgent, clock := s.part.clock, body := .recallInput b true, gap := false } ::
          s.cancelReports .recalled (fun k => k.bank = b) ++ [s.modeReport b m .fireRecall true t])).choose ∧
      (∀ c, (s.car b c).service ≠ .absent →
        t.car b c =
          { s.car b c with
            service := .recalled, recallDue := true, enabled := 0, stops := [], planned := none,
            gen := (t.car b c).gen, confirmed := (t.car b c).confirmed }) ∧
      (∀ c, s.carBookings b c = [] → (s.car b c).service = .absent → t.car b c = s.car b c) ∧
      ∀ h, h ≠ b → t.mode h = s.mode h ∧ ∀ c, t.car h c = s.car h c := by
  let s1 := s.setRcl b true
  let s2 := s1.post .urgent (.recallInput b true)
  obtain ⟨u, changed⟩ : ∃ u, u = s2.modeChanged b m .fireRecall := ⟨_, rfl⟩
  have forced : s2.forceRecall b = u.setHost (u.host.post (s2.modeReport b m .fireRecall true u)) := by
    have had2 : s2.mode b = some m := had
    rw [State.forceRecall, if_neg (by rw [had2]; exact fun e => other (Option.some.inj e)),
      State.changeMode_eq had2 .fireRecall true, ← changed]
  obtain ⟨t, ends⟩ : ∃ t, t = s1.closesWith u (u.host.post (s2.modeReport b m .fireRecall true u)) := ⟨_, rfl⟩
  have run : exec (.recallInputAsserted b) s = .next t := by
    rw [exec_recallAsserted_edge running edge, ends, State.closesWith, ← forced]
  have bookings : t.disp.bookings = u.disp.bookings := ends ▸ State.closesWith_bookings _ _ _
  have tickets : t.disp.tickets = u.disp.tickets := ends ▸ State.closesWith_tickets _ _ _
  have car : ∀ h c, t.car h c = Car.closeGeneration (s.car h c) (u.car h c) := fun h c =>
    ends ▸ State.closesWith_car s1 u _ h c
  have ports : ∀ q, t.port q = u.port q := fun q => ends ▸ State.closesWith_port _ _ _ q
  have host : t.host = (u.host.post (s2.modeReport b m .fireRecall true u)).choose :=
    ends ▸ State.closesWith_host _ _ _
  have closed : s2.changesOnly [.ports, .disp, .lines, .host] t :=
    .step (ends ▸ State.closesWith_only _ _ _) (.step (changed ▸ State.modeChanged_only _ _ _ _) (.refl _ _))
  have clears : BankMode.fireRecall = .out ∨ BankMode.fireRecall = .fireRecall := .inr rfl
  have mode : ∀ h, t.mode h = (s2.setMode b .fireRecall).mode h := fun h => by
    rw [ends, State.closesWith_mode, changed]
    exact congrArg (·.get h) (s2.modeChanged_modes b m .fireRecall)
  refine ⟨t, run, ?_, ?_, ?_, ?_, ?_, fun q => ?_, ?_, fun c configured => ?_,
    fun c none absent => ?_, fun h ne => ⟨?_, fun c => ?_⟩⟩
  · exact .step closed (.step (State.post_only _ _ _) (.step (State.setPins_only _ _) (.refl _ _)))
  · exact closed .pins (by decide)
  · rw [mode, State.mode_setMode_self]
  · rw [bookings, changed, s2.modeChanged_bookings b m .fireRecall clears ok.1]
    rfl
  · rw [tickets, changed, s2.modeChanged_tickets b m .fireRecall clears]
    rfl
  · rw [ports, changed, s2.modeChanged_port b m .fireRecall clears]
    rfl
  · have report : s2.modeReport b m .fireRecall true u = s.modeReport b m .fireRecall true t := by
      unfold State.modeReport
      rw [bookings, tickets]
      rfl
    rw [host, report, changed, s2.modeChanged_host b m .fireRecall clears, List.cons_append, HostPort.posts_cons,
      HostPort.posts_append]
    rfl
  · rw [car, Car.closeGeneration_fields, changed, s2.modeChanged_fire_car b m (Car.configured_iff.2 configured)]
    have stays : (s2.modeLeft b m .fireRecall).car b c = s.car b c := by
      unfold State.modeLeft
      rw [if_neg other]
      rfl
    rw [stays]
  · rw [car, changed, s2.modeChanged_absent b m .fireRecall (Car.not_configured absent) none,
      Car.closeGeneration_of_absent _ _ (.inl absent)]
    rfl
  · rw [mode, State.mode_setMode_ne _ _ _ _ ne.symm]
    rfl
  · rw [car, changed, s2.modeChanged_other b m .fireRecall ne]
    exact Car.closeGeneration_self _

/-! ### A completed SET-BANK-MODE (R149, R151) -/

/-- R12: the page stored and the stored mode taken. -/
def State.modeStored (s : State) (g : Program) (b : Bank) (m : BankMode) : State :=
  (s.setStore (s.store.complete g)).setPolicy
    { s.policy with banks := s.policy.banks.set b { s.bank b with storedMode := m } }

/-- R151: the request leaves the mode in force. -/
def State.modeStays (s : State) (b : Bank) (m old : BankMode) : Prop :=
  (s.pins.rcl.get b = true ∧ m ≠ .fireRecall) ∨ m = old

section
variable {s : State} {g : Program} {b : Bank} {m old : BankMode} (job : g.job = .bankMode b m)
  (had : s.mode b = some old)
include job had

theorem State.jobDone_modeStays (stays : s.modeStays b m old) : s.jobDone g = s.modeStored g b m := by
  have done : s.jobDone g = (s.modeStored g b m).modeCompleted b m := by
    unfold State.jobDone State.jobCompleted
    rw [job]
    rfl
  rw [done, State.modeCompleted]
  rcases stays with against | same
  · exact if_pos against
  · split
    · rfl
    · exact if_pos (had.trans (congrArg some same.symm))

theorem State.jobDone_modeGoes (goes : ¬ s.modeStays b m old) :
    s.jobDone g = (s.modeStored g b m).changeMode b m false := by
  have done : s.jobDone g = (s.modeStored g b m).modeCompleted b m := by
    unfold State.jobDone State.jobCompleted
    rw [job]
    rfl
  rw [State.modeStays, not_or] at goes
  rw [done, State.modeCompleted, if_neg (by exact goes.1), if_neg]
  intro same
  exact goes.2 (Option.some.inj (had.symm.trans same)).symm

end

theorem State.silent_iff {s : State} {b : Bank} {age : Option Clock} :
    s.silent b age = true ↔
      age = none ∨ ∃ a, age = some a ∧ 10 * (s.bank b).contactTime < (s.part.clock - a).toNat := by
  unfold State.silent
  cases age with
  | none => simp
  | some a =>
    simp only [decide_eq_true_eq, Option.some.injEq, reduceCtorEq, false_or, exists_eq_left']
    rfl

theorem State.modeStored_notLeft (s : State) (g : Program) (b : Bank) (m : BankMode) {old : BankMode}
    (other : old ≠ .fireRecall) (c : CarNo) : ((s.modeStored g b m).modeLeft b old m).car b c = s.car b c := by
  unfold State.modeLeft
  rw [if_neg other]
  rfl

/-- R14, R151 to R156: what a completed SET-BANK-MODE that changes the mode leaves; `u` is the bank changed. -/
structure State.modeMatched (s : State) (g : Program) (b : Bank) (m old : BankMode) (u t : State) : Prop where
  changed : u = (s.modeStored g b m).modeChanged b old m
  policy : t.policy = (s.modeStored g b m).policy
  mode : ∀ h, t.mode h = (s.setMode b m).mode h
  modes : t.disp.modes = u.disp.modes
  uPolicy : u.policy = (s.modeStored g b m).policy
  bookings : t.disp.bookings = u.disp.bookings
  tickets : t.disp.tickets = u.disp.tickets
  car : ∀ h c, t.car h c = Car.closeGeneration (s.car h c) (u.car h c)
  memory : ∀ q, (t.port q).memory = (u.port q).memory
  host : t.host = (u.host.post (s.modeReport b old m false t)).repliesDone

section
variable {s : State} {g : Program} {b : Bank} {m old : BankMode} (job : g.job = .bankMode b m)
  (had : s.mode b = some old) (goes : ¬ s.modeStays b m old)
include job had goes

theorem State.exists_modeMatched : ∃ u, s.modeMatched g b m old u (s.matched g) := by
  obtain ⟨s0, stored⟩ : ∃ s0, s0 = s.modeStored g b m := ⟨_, rfl⟩
  have disp : s0.disp = s.disp := by rw [stored]; rfl
  have had0 : s0.mode b = some old := (congrArg (·.modes.get b) disp).trans had
  obtain ⟨u, changed⟩ : ∃ u, u = s0.modeChanged b old m := ⟨_, rfl⟩
  have done : s.jobDone g = u.setHost (u.host.post (s0.modeReport b old m false u)) := by
    rw [State.jobDone_modeGoes job had goes, ← stored, State.changeMode_eq had0, ← changed]
  have bookings : (s.matched g).disp.bookings = u.disp.bookings := by rw [s.matched_bookings g, done]; rfl
  have tickets : (s.matched g).disp.tickets = u.disp.tickets := by rw [s.matched_tickets g, done]; rfl
  have modes : (s.matched g).disp.modes = u.disp.modes := by rw [s.matched_modes g, done]; rfl
  have report : s0.modeReport b old m false u = s.modeReport b old m false (s.matched g) := by
    unfold State.modeReport
    rw [bookings, tickets, disp, stored]
    rfl
  refine ⟨u, by rw [changed, stored], ?_, fun h => ?_, modes, ?_, bookings, tickets, fun h c => ?_, fun q => ?_, ?_⟩
  · rw [s.matched_policy g, done, ← stored, ← s0.modeChanged_policy b old m, ← changed]
    rfl
  · refine (congrArg (·.get h) (modes.trans ?_ : _ = (s.setMode b m).disp.modes))
    rw [changed, s0.modeChanged_modes]
    show s0.disp.modes.set b (some m) = s.disp.modes.set b (some m)
    rw [disp]
  · rw [changed, s0.modeChanged_policy, stored]
  · rw [s.matched_car g, done]
    rfl
  · rw [s.matched_port g, Port.wake_memory, done]
    rfl
  · rw [s.matched_host g, done, report]
    rfl

end

section
variable {s : State} {g : Program} {b : Bank} {m old : BankMode} {u t : State} (h : s.modeMatched g b m old u t)
include h

theorem State.modeMatched.cleared_bookings (clears : m = .out ∨ m = .fireRecall) (ok : s.bookingsOk) :
    t.disp.bookings = s.disp.bookings.filter fun k => k.bank ≠ b := by
  rw [h.bookings, h.changed, State.modeChanged_bookings (s.modeStored g b m) b old m clears ok.1]
  rfl

theorem State.modeMatched.cleared_tickets (clears : m = .out ∨ m = .fireRecall) :
    t.disp.tickets = (s.ticketsWithout fun k => k.bank = b).filter fun x => !x.names b := by
  rw [h.tickets, h.changed, State.modeChanged_tickets _ b old m clears]
  rfl

theorem State.modeMatched.cleared_memory (clears : m = .out ∨ m = .fireRecall) (q : PortNo) :
    (t.port q).memory = s.memoryWithout (fun k => k.bank = b) q := by
  rw [h.memory, h.changed, State.modeChanged_port _ b old m clears]
  rfl

theorem State.modeMatched.cleared_host (clears : m = .out ∨ m = .fireRecall) :
    t.host = (s.host.posts (s.cancelReports (clearReason m) (fun k => k.bank = b) ++
      [s.modeReport b old m false t])).repliesDone := by
  rw [h.host, h.changed, State.modeChanged_host _ b old m clears, HostPort.posts_append]
  rfl

theorem State.modeMatched.kept (keeps : ¬ (m = .out ∨ m = .fireRecall)) :
    (s.modeStored g b m).setMode b m |>.carsOnly u := by
  rw [h.changed, State.modeChanged_keeps _ _ _ _ keeps]
  exact State.modeLeft_carsOnly _ _ _ _

theorem State.modeMatched.kept_bookings (keeps : ¬ (m = .out ∨ m = .fireRecall)) : t.disp.bookings = s.disp.bookings := by
  rw [h.bookings, (h.kept keeps).bookings]
  rfl

theorem State.modeMatched.kept_tickets (keeps : ¬ (m = .out ∨ m = .fireRecall)) : t.disp.tickets = s.disp.tickets := by
  rw [h.tickets, (h.kept keeps).tickets]
  rfl

theorem State.modeMatched.kept_memory (keeps : ¬ (m = .out ∨ m = .fireRecall)) (q : PortNo) :
    (t.port q).memory = (s.port q).memory := by
  rw [h.memory, (h.kept keeps).port]
  rfl

theorem State.modeMatched.kept_host (keeps : ¬ (m = .out ∨ m = .fireRecall)) :
    t.host = (s.host.posts [s.modeReport b old m false t]).repliesDone := by
  rw [h.host, (h.kept keeps).host]
  rfl

/-- The BANK_MODE report is in the queue. -/
theorem State.modeMatched.reports (enabled : s.host.enables.getLsbD 7 = true) (empty : s.host.queue = []) :
    ∃ x ∈ t.host.queue, x.cls = .urgent ∧ x.clock = s.part.clock ∧ x.body = (s.modeReport b old m false t).body := by
  have few : (urgentsOf s.host.queue).length ≤ 30 := by rw [empty]; exact Nat.zero_le _
  by_cases clears : m = .out ∨ m = .fireRecall
  · rw [h.cleared_host clears]
    exact HostPort.mem_replies (HostPort.mem_posts_last (r := s.modeReport b old m false t)
      (s.cancelReports_routine _ _) rfl few enabled)
  · rw [h.kept_host clears]
    exact HostPort.mem_replies (HostPort.mem_posts_last (rs := []) (r := s.modeReport b old m false t)
      (fun _ hx => nomatch hx) rfl few enabled)

theorem State.modeMatched.other {d : Bank} (ne : d ≠ b) : t.mode d = s.mode d ∧ ∀ c, t.car d c = s.car d c := by
  refine ⟨?_, fun c => ?_⟩
  · rw [h.mode, State.mode_setMode_ne _ _ _ _ ne.symm]
  · rw [h.car, h.changed, State.modeChanged_other _ b old m ne]
    exact Car.closeGeneration_self _

theorem State.modeMatched.absent {c : CarNo} (ok : s.carOk b c) (absent : (s.car b c).service = .absent) :
    t.car b c = s.car b c := by
  have none := State.carBookings_of_carOk ok absent
  rw [h.car, Car.closeGeneration_of_absent _ _ (.inl absent), h.changed,
    State.modeChanged_absent (s.modeStored g b m) b old m (Car.not_configured absent) none]
  rfl

theorem State.modeMatched.enabledAt (c : CarNo) (f : Floor) : t.enabledAt b c f ↔ u.enabledAt b c f :=
  State.enabledAt_congr h.modes (h.policy.trans h.uPolicy.symm) h.bookings b c f

section
variable {c : CarNo} (configured : (s.car b c).service ≠ .absent)
include configured

/-- R155: leaving FIRE_RECALL, seen at the car. -/
theorem State.modeMatched.left (fire : old = .fireRecall) :
    ((s.modeStored g b m).leaveRecall b (s.car b c)).tableOnly (((s.modeStored g b m).modeLeft b old m).car b c) := by
  subst fire
  exact State.modeLeft_fire_car (s.modeStored g b m) b m (Car.configured_iff.2 configured)

theorem State.modeMatched.fire_car (fire : m = .fireRecall) (goes : ¬ s.modeStays b m old) :
    t.car b c =
      { s.car b c with
        service := .recalled, recallDue := true, enabled := 0, stops := [], planned := none,
        gen := (t.car b c).gen, confirmed := (t.car b c).confirmed } := by
  subst fire
  have other : old ≠ .fireRecall := fun e => goes (.inr e.symm)
  have whole := State.modeChanged_fire_car (s.modeStored g b .fireRecall) b old (Car.configured_iff.2 configured)
  rw [s.modeStored_notLeft g b _ other] at whole
  rw [h.car, h.changed, Car.closeGeneration_fields, whole]

theorem State.modeMatched.out_car (out : m = .out) :
    t.car b c =
      { ((s.modeStored g b m).modeLeft b old m).car b c with
        stops := [], planned := none, enabled := (t.car b c).enabled, gen := (t.car b c).gen,
        confirmed := (t.car b c).confirmed } := by
  subst out
  have whole := State.modeChanged_out_car (s.modeStored g b .out) b old (Car.configured_iff.2 configured)
  rw [h.car, h.changed, Car.closeGeneration_fields, whole]

theorem State.modeMatched.car_service :
    (m ≠ .fireRecall) → (t.car b c).service = (((s.modeStored g b m).modeLeft b old m).car b c).service ∧
      (t.car b c).recallDue = (((s.modeStored g b m).modeLeft b old m).car b c).recallDue := by
  intro notFire
  by_cases out : m = .out
  · rw [h.out_car configured out]
    exact ⟨rfl, rfl⟩
  · have keeps : ¬ (m = .out ∨ m = .fireRecall) := fun e => e.elim out notFire
    rw [h.car, h.changed, State.modeChanged_keeps _ _ _ _ keeps, Car.closeGeneration_service,
      Car.closeGeneration_recallDue]
    exact ⟨rfl, rfl⟩

theorem State.modeMatched.car_enabled (notFire : m ≠ .fireRecall) (formed : m = .out ∨ old = .fireRecall) (f : Floor) :
    (t.car b c).enabled.has f = true ↔ t.enabledAt b c f := by
  rw [h.enabledAt, h.car, Car.closeGeneration_enabled, h.changed]
  by_cases out : m = .out
  · subst out
    exact State.modeChanged_out_enabled (s.modeStored g b .out) b old (Car.configured_iff.2 configured) f
  · have keeps : ¬ (m = .out ∨ m = .fireRecall) := fun e => e.elim out notFire
    obtain rfl := formed.resolve_left out
    rw [State.modeChanged_keeps _ _ _ _ keeps]
    exact State.modeLeft_fire_enabled (s.modeStored g b m) b m (Car.configured_iff.2 configured) f

end

end

/-- R155: what leaving FIRE_RECALL makes of a car. -/
theorem State.leaveRecall_spec (s : State) (b : Bank) (x : Car) :
    (s.leaveRecall b x).recallDue = false ∧
      ((x.service = .recalled ∧ s.silent b x.age = true) → (s.leaveRecall b x).service = .outOfContact) ∧
      (¬ (x.service = .recalled ∧ s.silent b x.age = true) → (s.leaveRecall b x).service = x.service) :=
  ⟨rfl, fun quiet => if_pos quiet, fun speaks => if_neg speaks⟩

theorem State.modeStored_silent (s : State) (g : Program) (b : Bank) (m : BankMode) (age : Option Clock) :
    (s.modeStored g b m).silent b age = true ↔
      age = none ∨ ∃ a, age = some a ∧ 10 * (s.bank b).contactTime < (s.part.clock - a).toNat := by
  rw [State.silent_iff]
  have bank : (s.modeStored g b m).bank b = { s.bank b with storedMode := m } := Vector.get_set_self _ _ _
  rw [bank]
  rfl

/-- Settles O27: the mode stays, or the bank changes it. -/
theorem completedModeRequestsTakeEffect : Obligations.CompletedModeRequestsTakeEffect := by
  intro s g b m old ok flight job had stays clears
  have run := exec_matched flight
  have only : s.changesOnly [.store, .policy, .ports, .disp, .lines, .host] (s.matched g) :=
    (exec_changesOnly run).mono (by simp only [blocksOf]; decide)
  by_cases h : stays
  · have done := State.jobDone_modeStays job had h
    have same : s.closeCars (s.jobDone g) = s.jobDone g := by
      rw [done]
      exact State.closeCars_of_cars_eq fun _ _ => rfl
    have disp : (s.matched g).disp = s.disp := by
      rw [s.matched_disp g, same, done]
      rfl
    have memory : ∀ q, ((s.matched g).port q).memory = (s.port q).memory := fun q => by
      rw [s.matched_port g, Port.wake_memory, done]
      rfl
    have host : (s.matched g).host = s.host.repliesDone := by
      rw [s.matched_host g, done]
      rfl
    refine ⟨_, run, only, s.matched_stores g, ?_, fun d _ => ⟨?_, fun c => ?_⟩, fun _ => disp, fun _ => memory,
      fun _ => host, fun goes => absurd h goes⟩
    · rw [s.matched_policy g, done]
      rfl
    · exact congrArg (fun x : DispatchBlock => x.modes.get d) disp
    · exact congrArg (fun x : DispatchBlock => x.cars.get (carIndex d c)) disp
  · obtain ⟨u, goes⟩ := State.exists_modeMatched job had h
    refine ⟨_, run, only, s.matched_stores g, goes.policy, fun d ne => goes.other ne, fun e => absurd e h,
      fun e => goes.kept_memory (e.resolve_left h), fun e => absurd e h, fun _ => ⟨?_, fun e => goes.cleared_memory e,
        fun cancelled out fire none => ?_, fun e => ⟨goes.cleared_bookings e ok, goes.cleared_tickets e, fun c there => ?_⟩,
        fun c inStep absent => goes.absent inStep absent, fun out other c there => ?_,
        fun fire c there => goes.fire_car there fire h, fun fire c there => ?_, fun notFire c there =>
          ⟨fun formed f => goes.car_enabled there notFire formed f, fun fire => ?_⟩, fun plain => ?_,
        fun enabled empty => goes.reports enabled empty⟩⟩
    · rw [goes.mode, State.mode_setMode_self]
    · by_cases e : clears
      · rw [goes.cleared_host e]
        rcases e with rfl | rfl
        · rw [out rfl]
          rfl
        · rw [fire rfl]
          rfl
      · rw [goes.kept_host e, none e]
        rfl
    · rcases e with rfl | rfl
      · rw [goes.out_car there rfl]
        exact ⟨rfl, rfl⟩
      · rw [goes.fire_car there rfl h]
        exact ⟨rfl, rfl⟩
    · have whole := goes.out_car there out
      rwa [s.modeStored_notLeft g b m other] at whole
    · rw [goes.fire_car there fire h]
      exact ⟨rfl, rfl, rfl⟩
    · intro silent
      obtain ⟨service, due⟩ := goes.car_service there notFire
      have left := goes.left there fire
      obtain ⟨cleared, quiet, speaks⟩ := (s.modeStored g b m).leaveRecall_spec b (s.car b c)
      have silentIff := s.modeStored_silent g b m (s.car b c).age
      rw [service, due, left.service, left.recallDue]
      refine ⟨cleared, fun e => quiet ⟨e.1, silentIff.2 e.2⟩, fun e => speaks fun x => e ⟨x.1, silentIff.1 x.2⟩⟩
    · have keeps : ¬ (m = .out ∨ m = .fireRecall) := by
        rcases plain with rfl | rfl | rfl <;> exact fun e => e.elim nofun nofun
      refine ⟨goes.kept_bookings keeps, goes.kept_tickets keeps, fun other c => ?_⟩
      rw [goes.car, goes.changed, State.modeChanged_keeps _ _ _ _ keeps]
      unfold State.modeLeft
      rw [if_neg other]
      exact Car.closeGeneration_self _

/-- R153, R155: a car of a bank that a completed SET-BANK-MODE takes OUT. -/
theorem State.modeMatched.out_fields {s : State} {g : Program} {b : Bank} {old : BankMode} {u t : State}
    (h : s.modeMatched g b .out old u t) {c : CarNo} (configured : (s.car b c).service ≠ .absent) :
    ∃ (service : Service) (due : Bool),
      t.car b c =
        { s.car b c with
          service := service, recallDue := due, stops := [], planned := none, enabled := (t.car b c).enabled,
          gen := (t.car b c).gen, confirmed := (t.car b c).confirmed } ∧
      (old ≠ .fireRecall → service = (s.car b c).service ∧ due = (s.car b c).recallDue) ∧
      (old = .fireRecall →
        service = ((s.modeStored g b .out).leaveRecall b (s.car b c)).service ∧ due = false) := by
  have whole := h.out_car configured rfl
  by_cases fire : old = .fireRecall
  · have left := h.left configured fire
    refine ⟨((s.modeStored g b .out).leaveRecall b (s.car b c)).service, false, ?_, fun e => absurd fire e,
      fun _ => ⟨rfl, rfl⟩⟩
    rw [whole]
    unfold Car.tableOnly at left
    rw [left]
    rfl
  · rw [s.modeStored_notLeft g b .out fire] at whole
    exact ⟨(s.car b c).service, (s.car b c).recallDue, whole, fun _ => ⟨rfl, rfl⟩, fun e => absurd e fire⟩

/-- Settles O26: the edge that enters FIRE_RECALL, the edges that change no mode, and the completed SET-BANK-MODE OUT. -/
theorem enteringOutOrRecallClearsTheBank : Obligations.EnteringOutOrRecallClearsTheBank := by
  refine ⟨fun s b m running edge had other ok => ?_, fun s b => ?_, fun s g b m ok flight job deasserted had other => ?_⟩
  · obtain ⟨t, run, only, pins, mode, bookings, tickets, memory, host, cars, absent, others⟩ :=
      exec_recallAsserted_enters running edge had other ok
    let first : Report := { cls := .urgent, clock := s.part.clock, body := .recallInput b true, gap := false }
    have routine := s.cancelReports_routine .recalled fun k => k.bank = b
    refine ⟨t, run, only, pins, mode, bookings, tickets, memory, host, fun empty => ⟨fun enabled => ?_, fun enabled => ?_⟩,
      fun c there => ?_, fun c inStep gone => absent c (State.carBookings_of_carOk inStep gone) gone, others⟩
    · have few : (urgentsOf s.host.queue).length ≤ 30 := by rw [empty]; exact Nat.zero_le _
      have posted := HostPort.post_urgents_of_urgent (h := s.host) (r := first) rfl enabled few
      rw [empty] at posted
      rw [host, List.cons_append, HostPort.posts_cons]
      refine HostPort.mem_choose (x := first) (HostPort.mem_posts_first routine rfl ?_ ?_)
      · rw [posted]
        exact (by decide : 1 ≤ 30)
      · rw [posted]
        exact List.mem_cons_self
    · have few : (urgentsOf (s.host.post first).queue).length ≤ 30 := by
        by_cases on : s.host.enables.getLsbD 8 = true
        · have posted := HostPort.post_urgents_of_urgent (h := s.host) (r := first) rfl on
            (by rw [empty]; exact Nat.zero_le _)
          rw [posted, empty]
          exact (by decide : 1 ≤ 30)
        · rw [HostPort.post_urgents_of_disabled (Bool.eq_false_of_not_eq_true on), empty]
          exact Nat.zero_le _
      rw [host, List.cons_append, HostPort.posts_cons]
      refine HostPort.mem_choose (x := s.modeReport b m .fireRecall true t) (HostPort.mem_posts_last routine rfl few ?_)
      rw [HostPort.post_enables]
      exact enabled
    · have whole := cars c there
      rw [whole]
      exact ⟨rfl, rfl, rfl, rfl, rfl, rfl⟩
  · intro level posted
    refine ⟨fun running => ⟨fun edge mode => ?_, fun asserted => ⟨?_, ?_⟩, fun deasserted => ?_⟩,
      fun starting => ⟨?_, ?_⟩⟩
    · have same : (s.setRcl b true).closeCars ((s.setRcl b true).post .urgent (.recallInput b true)) =
          (s.setRcl b true).post .urgent (.recallInput b true) := State.closeCars_of_cars_eq fun _ _ => rfl
      rw [exec_recallAsserted_edge running edge, State.forceRecall, if_pos (by exact mode), same]
      rfl
    · exact exec_recallDeasserted_edge running asserted
    · rw [exec_recallAsserted_level (by simp [asserted]), State.setRcl_same asserted]
    · rw [exec_recallDeasserted_level (by simp [deasserted]), State.setRcl_same deasserted]
    · exact exec_recallAsserted_level (by simp [State.running_eq_false starting])
    · exact exec_recallDeasserted_level (by simp [State.running_eq_false starting])
  · have goes : ¬ s.modeStays b .out m := by
      rintro (⟨asserted, -⟩ | same)
      · cases deasserted.symm.trans asserted
      · exact other same.symm
    obtain ⟨u, h⟩ := State.exists_modeMatched job had goes
    have clears : BankMode.out = .out ∨ BankMode.out = .fireRecall := .inl rfl
    have policy := h.policy
    have bookings := h.cleared_bookings clears ok
    have mode : (s.matched g).mode b = some .out := by rw [h.mode, State.mode_setMode_self]
    refine ⟨_, exec_matched flight, s.matched_stores g, mode, ?_, bookings, h.cleared_tickets clears,
      h.cleared_memory clears, h.cleared_host clears, fun c inStep absent => h.absent inStep absent, fun c there => ?_⟩
    · rw [State.bank, policy]
      exact congrArg BankRec.storedMode (Vector.get_set_self _ _ _)
    · obtain ⟨service, due, whole, stays, left⟩ := h.out_fields there
      refine ⟨by rw [whole], by rw [whole], fun f => ?_, service, due, whole, stays, fun fire => ?_⟩
      · rw [h.car_enabled there nofun (.inl rfl),
          State.enabledAt_unbooked (by rw [mode]; exact nofun) fun k hk => ?_]
        · unfold State.serves State.floor
          rw [policy]
          rfl
        · rw [bookings] at hk
          exact of_decide_eq_true (List.mem_filter.1 hk).2
      · obtain ⟨rfl, rfl⟩ := left fire
        obtain ⟨-, quiet, speaks⟩ := (s.modeStored g b .out).leaveRecall_spec b (s.car b c)
        have silentIff := s.modeStored_silent g b .out (s.car b c).age
        exact ⟨rfl, fun e => quiet ⟨e.1, silentIff.2 e.2⟩, fun e => speaks fun x => e ⟨x.1, silentIff.1 x.2⟩⟩

end Sys2Proof.Machine
end

section
/-! SUPPORT. Moving the WAITING bookings of a car that leaves IN_SERVICE (R98, R99), and a change of service state. -/

namespace Sys2Proof.Machine

/-! ### One booking moved -/

/-- R99: the tables while a booking stands on no car. -/
def State.offTable (s : State) (k : Booking) : State := (s.removeBooking k.id).resyncKeep k.bank k.car

/-- R99: a booking moved to the car that won it. -/
def State.movedTo (s : State) (k : Booking) (c : CarNo) : State :=
  (((s.offTable k).setBookings (s.disp.bookings.map fun x => if x.id = k.id then { x with car := c } else x)).resyncKeep
    k.bank c).announceMoved k.port k.id k.bank c

section
variable (s : State) (k : Booking)

theorem State.moveBooking_none (none : (s.offTable k).evaluate k.bank k.trip = none) :
    s.moveBooking k = s.cancel .noCar k := by
  unfold State.moveBooking
  simp only
  change (match (s.offTable k).evaluate k.bank k.trip with
    | .none => s.cancel .noCar k
    | some (c, _) => s.movedTo k c) = _
  rw [none]

theorem State.moveBooking_some {c : CarNo} {n : Nat} (won : (s.offTable k).evaluate k.bank k.trip = some (c, n)) :
    s.moveBooking k = s.movedTo k c := by
  unfold State.moveBooking
  simp only
  change (match (s.offTable k).evaluate k.bank k.trip with
    | .none => s.cancel .noCar k
    | some (c, _) => s.movedTo k c) = _
  rw [won]

/-- R99: cancelled when no car takes it, else moved to a car whose lane is included. -/
theorem State.moveBooking_cases :
    s.moveBooking k = s.cancel .noCar k ∨
      ∃ c, (s.offTable k).laneExcluded k.bank k.trip c = false ∧ s.moveBooking k = s.movedTo k c := by
  cases won : (s.offTable k).evaluate k.bank k.trip with
  | none => exact .inl (s.moveBooking_none k won)
  | some x =>
    obtain ⟨c, n⟩ := x
    obtain ⟨cost, bound, -⟩ := State.evaluate_some won
    refine .inr ⟨c, Bool.eq_false_iff.2 fun ex => ?_, s.moveBooking_some k won⟩
    rw [State.lane_of_excluded ex] at cost
    omega

/-- R99: the move as the statements tell it. -/
theorem State.moveBooking_moves : s.moves k (s.moveBooking k) := by
  refine ⟨fun all => s.moveBooking_none k (State.evaluate_eq_none_iff.2 all), fun c included least first => ?_⟩
  cases won : (s.offTable k).evaluate k.bank k.trip with
  | none => exact absurd (State.evaluate_eq_none_iff.1 won c) included
  | some x =>
    obtain ⟨d, n⟩ := x
    obtain ⟨cost, -, low, before⟩ := State.evaluate_some won
    have le : (s.offTable k).lane k.bank k.trip c ≤ (s.offTable k).lane k.bank k.trip d := least d
    obtain rfl : d = c := by
      rcases lt_trichotomy d c with lt | same | gt
      · have : (s.offTable k).lane k.bank k.trip c < (s.offTable k).lane k.bank k.trip d := first d lt
        have := low c
        omega
      · exact same
      · have := before c gt
        omega
    exact s.moveBooking_some k won

theorem State.offTable_listOnly (b : Bank) (c : CarNo) : (s.car b c).listOnly ((s.offTable k).car b c) := by
  by_cases own : (b, c) = (k.bank, k.car)
  · obtain ⟨rfl, rfl⟩ := Prod.mk.inj own
    rw [State.offTable, State.resyncKeep, State.resync_self]
    exact Car.resync_listOnly _ _ _
  · rw [State.offTable, State.resyncKeep, State.resync_other _ own]
    rfl

theorem State.movedTo_listOnly (d : CarNo) (b : Bank) (c : CarNo) : (s.car b c).listOnly ((s.movedTo k d).car b c) := by
  refine (s.offTable_listOnly k b c).trans ?_
  show ((s.offTable k).car b c).listOnly ((State.resyncKeep _ k.bank d).car b c)
  by_cases own : (b, c) = (k.bank, d)
  · obtain ⟨rfl, rfl⟩ := Prod.mk.inj own
    rw [State.resyncKeep, State.resync_self]
    exact Car.resync_listOnly _ _ _
  · rw [State.resyncKeep, State.resync_other _ own]
    rfl

theorem State.moveBooking_listOnly (waits : k.state = .waiting) (b : Bank) (c : CarNo) :
    (s.car b c).listOnly ((s.moveBooking k).car b c) := by
  rcases s.moveBooking_cases k with e | ⟨d, -, e⟩
  · rw [e]
    exact s.cancel_listOnly .noCar k waits b c
  · rw [e]
    exact s.movedTo_listOnly k d b c

theorem State.moveBooking_serial : (s.moveBooking k).disp.serial = s.disp.serial := by
  rcases s.moveBooking_cases k with e | ⟨d, -, e⟩
  · rw [e, State.cancel_serial]
  · rw [e]
    rfl

theorem State.movedTo_bookings (d : CarNo) :
    (s.movedTo k d).disp.bookings = s.disp.bookings.map fun x => if x.id = k.id then { x with car := d } else x := rfl

/-- R99: a booking of another id stays as it was. -/
theorem State.mem_moveBooking_of_ne {j : Booking} (held : j ∈ s.disp.bookings) (ne : j.id ≠ k.id) :
    j ∈ (s.moveBooking k).disp.bookings := by
  rcases s.moveBooking_cases k with e | ⟨d, -, e⟩
  · rw [e, State.cancel_bookings]
    exact List.mem_filter.2 ⟨held, decide_eq_true ne⟩
  · rw [e, State.movedTo_bookings]
    exact List.mem_map.2 ⟨j, held, if_neg ne⟩

/-- R99: what is on the table was there, and the booking moved stands on an IN_SERVICE car. -/
theorem State.of_mem_moveBooking {j : Booking} (held : j ∈ (s.moveBooking k).disp.bookings) :
    (j ∈ s.disp.bookings ∧ j.id ≠ k.id) ∨
      ∃ i ∈ s.disp.bookings, i.id = k.id ∧ j = { i with car := j.car } ∧ ((s.car k.bank j.car).service = .inService) := by
  rcases s.moveBooking_cases k with e | ⟨d, included, e⟩
  · rw [e, State.cancel_bookings] at held
    obtain ⟨there, ne⟩ := List.mem_filter.1 held
    exact .inl ⟨there, of_decide_eq_true ne⟩
  · rw [e, State.movedTo_bookings] at held
    obtain ⟨i, hi, rfl⟩ := List.mem_map.1 held
    split
    next own =>
      refine .inr ⟨i, hi, own, rfl, ?_⟩
      rw [← Bool.not_eq_true, State.laneExcluded_iff, not_or] at included
      exact ((s.offTable_listOnly k k.bank d).service).symm.trans (not_not.1 included.1)
    next ne => exact .inl ⟨hi, ne⟩

end

/-! ### All WAITING bookings of a car (R98) -/

section
variable (ks : List Booking)

theorem State.foldl_movesAll (s : State) : s.movesAll ks (ks.foldl (fun s k => s.moveBooking k) s) := by
  induction ks generalizing s with
  | nil => rfl
  | cons k ks ih => exact ⟨s.moveBooking k, s.moveBooking_moves k, ih _⟩

theorem State.foldl_move_listOnly {ks : List Booking} (waits : ∀ k ∈ ks, k.state = .waiting) (s : State) (b : Bank)
    (c : CarNo) : (s.car b c).listOnly ((ks.foldl (fun s k => s.moveBooking k) s).car b c) := by
  induction ks generalizing s with
  | nil => rfl
  | cons k ks ih =>
    obtain ⟨first, rest⟩ := List.forall_mem_cons.1 waits
    exact (s.moveBooking_listOnly k first b c).trans (ih rest _)

theorem State.foldl_move_serial (s : State) : (ks.foldl (fun s k => s.moveBooking k) s).disp.serial = s.disp.serial := by
  induction ks generalizing s with
  | nil => rfl
  | cons k ks ih => exact (ih _).trans (s.moveBooking_serial k)

theorem State.mem_foldl_move {j : Booking} (s : State) (held : j ∈ s.disp.bookings) (ne : ∀ k ∈ ks, j.id ≠ k.id) :
    j ∈ (ks.foldl (fun s k => s.moveBooking k) s).disp.bookings := by
  induction ks generalizing s with
  | nil => exact held
  | cons k ks ih =>
    obtain ⟨first, rest⟩ := List.forall_mem_cons.1 ne
    exact ih _ (s.mem_moveBooking_of_ne k held first) rest

/-- R98: no booking comes to a car that is not IN_SERVICE, and those named leave it. -/
theorem State.of_mem_foldl_move {ks : List Booking} {b : Bank} {c : CarNo} (waits : ∀ k ∈ ks, k.state = .waiting)
    (banks : ∀ k ∈ ks, k.bank = b) (s : State) (out : (s.car b c).service ≠ .inService) {j : Booking}
    (held : j ∈ (ks.foldl (fun s k => s.moveBooking k) s).disp.bookings) (car : j.car = c) :
    j ∈ s.disp.bookings ∧ ∀ k ∈ ks, j.id ≠ k.id := by
  induction ks generalizing s with
  | nil => exact ⟨held, fun _ h => nomatch h⟩
  | cons k ks ih =>
    obtain ⟨first, rest⟩ := List.forall_mem_cons.1 waits
    obtain ⟨bank, others⟩ := List.forall_mem_cons.1 banks
    have still : ((s.moveBooking k).car b c).service ≠ .inService := by
      rw [(s.moveBooking_listOnly k first b c).service]
      exact out
    obtain ⟨there, ne⟩ := ih rest others _ still held
    rcases s.of_mem_moveBooking k there with ⟨was, other⟩ | ⟨i, -, -, -, isIn⟩
    · exact ⟨was, List.forall_mem_cons.2 ⟨other, ne⟩⟩
    · rw [bank, car] at isIn
      exact absurd isIn out

end

theorem State.mem_waitingOn {s : State} {b : Bank} {c : CarNo} {k : Booking} :
    k ∈ s.waitingOn b c ↔ k ∈ s.disp.bookings ∧ (k.bank = b ∧ k.car = c) ∧ k.state = .waiting := by
  simp only [State.waitingOn, mem_serialOrder, List.mem_filter, decide_eq_true_eq, State.carBookings, and_assoc]

section
variable (s : State) (b : Bank) (c : CarNo)

theorem State.loseCar_movesAll : s.movesAll (s.waitingOn b c) (s.loseCar b c) := State.foldl_movesAll _ s

theorem State.loseCar_listOnly (h : Bank) (d : CarNo) : (s.car h d).listOnly ((s.loseCar b c).car h d) :=
  State.foldl_move_listOnly (fun _ hk => (State.mem_waitingOn.1 hk).2.2) s h d

theorem State.loseCar_serial : (s.loseCar b c).disp.serial = s.disp.serial := State.foldl_move_serial _ s

theorem State.loseCar_modes : (s.loseCar b c).disp.modes = s.disp.modes := (s.loseCar_event b c).modes

/-- R98: no WAITING booking stays on the car. -/
theorem State.loseCar_clears (out : (s.car b c).service ≠ .inService) {j : Booking}
    (held : j ∈ (s.loseCar b c).disp.bookings) (bank : j.bank = b) (car : j.car = c) : j.state ≠ .waiting := by
  intro waits
  obtain ⟨was, ne⟩ := State.of_mem_foldl_move (fun _ hk => (State.mem_waitingOn.1 hk).2.2)
    (fun _ hk => (State.mem_waitingOn.1 hk).2.1.1) s out held car
  exact ne j (State.mem_waitingOn.2 ⟨was, ⟨bank, car⟩, waits⟩) rfl

/-- R98: no RIDING booking goes. -/
theorem State.loseCar_riding (once : (s.disp.bookings.map fun k => k.id).Nodup) {j : Booking} (held : j ∈ s.disp.bookings)
    (rides : j.state = .riding) : j ∈ (s.loseCar b c).disp.bookings := by
  refine State.mem_foldl_move _ s held fun k hk same => ?_
  obtain ⟨there, -, waits⟩ := State.mem_waitingOn.1 hk
  rw [List.inj_on_of_nodup_map once held there same, waits] at rides
  cases rides

end

/-! ### A change of service state -/

section
variable (s : State) (b : Bank) (c : CarNo) (new : Service)

/-- R95: the car in its new service state. -/
def State.withService : State := s.setCar b c { s.car b c with service := new }

theorem State.withService_other {h : Bank} {d : CarNo} (ne : (h, d) ≠ (b, c)) :
    (s.withService b c new).car h d = s.car h d := State.car_setCar_ne _ _ _ _ _ _ ne.symm

theorem State.withService_self : (s.withService b c new).car b c = { s.car b c with service := new } :=
  State.car_setCar_self _ _ _ _

/-- R98: a car that leaves IN_SERVICE. -/
def State.loses : Prop := (s.car b c).service = .inService ∧ new ≠ .inService

theorem State.setService_of_loses {s : State} {b : Bank} {c : CarNo} {new : Service} (h : s.loses b c new) :
    s.setService b c new = (s.withService b c new).loseCar b c := if_pos h

theorem State.setService_of_keeps {s : State} {b : Bank} {c : CarNo} {new : Service} (h : ¬ s.loses b c new) :
    s.setService b c new = s.withService b c new := if_neg h

theorem State.setService_listOnly (h : Bank) (d : CarNo) :
    ((s.withService b c new).car h d).listOnly ((s.setService b c new).car h d) := by
  by_cases loses : s.loses b c new
  · rw [State.setService_of_loses loses]
    exact State.loseCar_listOnly _ b c h d
  · rw [State.setService_of_keeps loses]
    rfl

theorem State.setService_service : ((s.setService b c new).car b c).service = new := by
  rw [(s.setService_listOnly b c new b c).service, State.withService_self]

theorem State.setService_service_other {h : Bank} {d : CarNo} (ne : (h, d) ≠ (b, c)) :
    ((s.setService b c new).car h d).service = (s.car h d).service := by
  rw [(s.setService_listOnly b c new h d).service, s.withService_other b c new ne]

theorem State.setService_serial : (s.setService b c new).disp.serial = s.disp.serial := by
  by_cases loses : s.loses b c new
  · rw [State.setService_of_loses loses, State.loseCar_serial]
    rfl
  · rw [State.setService_of_keeps loses]
    rfl

theorem State.setService_modes : (s.setService b c new).disp.modes = s.disp.modes := (s.setService_event b c new).modes

theorem State.setService_riding (once : (s.disp.bookings.map fun k => k.id).Nodup) {j : Booking}
    (held : j ∈ s.disp.bookings) (rides : j.state = .riding) : j ∈ (s.setService b c new).disp.bookings := by
  by_cases loses : s.loses b c new
  · rw [State.setService_of_loses loses]
    exact State.loseCar_riding (s.withService b c new) b c once held rides
  · rw [State.setService_of_keeps loses]
    exact held

theorem State.setService_policy : (s.setService b c new).policy = s.policy := s.setService_only b c new .policy (by decide)

theorem State.setService_part : (s.setService b c new).part = s.part := s.setService_only b c new .part (by decide)

end

/-! ### The CAR_SERVICE report (R95) -/

theorem State.reportService_eq (s : State) (b : Bank) (c : CarNo) {old new : Service} (ne : old ≠ new) :
    s.reportService b c old new = s.setHost (s.host.post
      { cls := serviceClass old new, clock := s.part.clock, gap := false, body := .carService b c old new }) := if_neg ne

theorem State.reportService_disp (s : State) (b : Bank) (c : CarNo) (old new : Service) :
    (s.reportService b c old new).disp = s.disp := by
  unfold State.reportService
  split <;> rfl

theorem State.reportService_ports (s : State) (b : Bank) (c : CarNo) (old new : Service) :
    (s.reportService b c old new).ports = s.ports := by
  unfold State.reportService
  split <;> rfl

theorem State.reportService_policy (s : State) (b : Bank) (c : CarNo) (old new : Service) :
    (s.reportService b c old new).policy = s.policy := by
  unfold State.reportService
  split <;> rfl

end Sys2Proof.Machine
end

section
/-! PROOF. O22: the completions of LOAD-BANK (R31) and of SET-CAR-SERVICE (R159 to R161). -/

namespace Sys2Proof.Machine

/-! ### A change of a bank's car count (R31) -/

section
variable {s : State} {b : Bank} {c : CarNo}

theorem State.recounted_of_counted (counted : s.counted b c = true) (configured : (s.car b c).service ≠ .absent) :
    s.recounted b c = s.car b c := by
  rw [State.recounted, if_pos counted, if_pos (Car.configured_iff.2 configured)]

/-- R31, R163: a car newly below the count. -/
theorem State.recounted_fresh (counted : s.counted b c = true) (absent : (s.car b c).service = .absent) :
    s.recounted b c =
      { s.freshCar b with enabled := (s.setCar b c (s.freshCar b)).enabledOf b c } := by
  have empty : ((s.setCar b c (s.freshCar b)).car b c).stops = [] := by
    rw [State.car_setCar_self, State.freshCar]
    split <;> rfl
  rw [State.recounted, if_pos counted, if_neg (by rw [Car.not_configured absent]; exact Bool.false_ne_true),
    State.formedCar_of_empty empty, State.car_setCar_self]

theorem State.recounted_of_uncounted (out : s.counted b c = false) :
    s.recounted b c =
      if (s.car b c).service = .absent then s.car b c
      else { s.car b c with service := .absent, stops := [], planned := none, enabled := 0 } := by
  rw [State.recounted, if_neg (by rw [out]; exact Bool.false_ne_true)]
  by_cases absent : (s.car b c).service = .absent
  · rw [if_neg (by rw [Car.not_configured absent]; exact Bool.false_ne_true), if_pos absent]
  · rw [if_pos (Car.configured_iff.2 absent), if_neg absent]

theorem State.freshCar_of_fire (fire : s.mode b = some .fireRecall) :
    s.freshCar b = Car.recalled { Car.reset with service := .outOfContact } := if_pos fire

theorem State.freshCar_of_ne (ne : s.mode b ≠ some .fireRecall) :
    s.freshCar b = { Car.reset with service := .outOfContact } := if_neg ne

/-- R31, R84: the enabled floors of a car newly below the count of a bank without bookings. -/
theorem State.freshEnabled_has (unbooked : ∀ k ∈ s.disp.bookings, k.bank ≠ b) (f : Floor) :
    ((s.setCar b c (s.freshCar b)).enabledOf b c).has f = true ↔
      s.mode b ≠ some .fireRecall ∧
        (s.floor f).state = .isOpen ∧ (s.floor f).kind ≠ .ordinary ∧ s.serves b f = true := by
  have present : ((s.setCar b c (s.freshCar b)).car b c).service ≠ .absent := by
    rw [State.car_setCar_self, State.freshCar]
    split
    all_goals exact fun e => nomatch e
  rw [State.enabledOf_has]
  by_cases fire : s.mode b = some .fireRecall
  · constructor
    · rintro ⟨-, notFire, -⟩
      exact absurd fire notFire
    · exact fun h => absurd fire h.1
  · rw [State.enabledAt_unbooked (s := s.setCar b c (s.freshCar b)) fire unbooked]
    exact ⟨fun h => ⟨fire, h.2⟩, fun h => ⟨present, h.2⟩⟩

end

/-! ### LOAD-BANK completed -/

section
variable {s : State} {g : Program} {b : Bank} {r : BankRec} (job : g.job = .bank b r)
include job

/-- R12: the page stored and the bank's settings taken. -/
theorem State.jobDone_bank :
    s.jobDone g = ((s.setStore (s.store.complete g)).setPolicy { s.policy with banks := s.policy.banks.set b r }).recount b := by
  unfold State.jobDone State.jobCompleted
  rw [job]
  rfl

theorem State.matched_recounted (c : CarNo) :
    (s.matched g).car b c = Car.closeGeneration (s.car b c)
      (((s.setStore (s.store.complete g)).setPolicy { s.policy with banks := s.policy.banks.set b r }).recounted b c) := by
  rw [s.matched_car g, State.jobDone_bank job, State.recount_car]

end

theorem State.counted_setBank (s : State) (st : StoreBlock) (b : Bank) (r : BankRec) (c : CarNo) :
    ((s.setStore st).setPolicy { s.policy with banks := s.policy.banks.set b r }).counted b c =
      Decidable.decide (c.val < r.carCount) := by
  show Decidable.decide (c.val < ((s.policy.banks.set b r).get b).carCount) = _
  rw [Vector.get_set_self]

theorem exec_verifyMatch_bank (s : State) (g : Program) (b : Bank) (r : BankRec) (flight : s.store.programmer = some g)
    (job : g.job = .bank b r) (unbooked : ∀ k ∈ s.disp.bookings, k.bank ≠ b) :
    ∃ t, exec .verifyMatch s = .next t ∧ s.changesOnly [.store, .policy, .ports, .disp, .lines, .host] t ∧
      s.stores g t ∧ t.policy = { s.policy with banks := s.policy.banks.set b r } ∧ t.disp.bookings = s.disp.bookings ∧
      t.disp.serial = s.disp.serial ∧ t.disp.tickets = s.disp.tickets ∧ t.disp.modes = s.disp.modes ∧
      (∀ h c, h ≠ b → t.car h c = s.car h c) ∧
      ∀ c, let old := s.car b c
        let new := t.car b c
        (c.val < r.carCount → old.service ≠ .absent → new = old) ∧
        (c.val < r.carCount → old.service = .absent →
          new.status = none ∧ new.age = none ∧ new.stale = 0 ∧ new.full = false ∧ new.planned = none ∧
            new.stops = [] ∧ new.gen = 0 ∧ new.confirmed = none ∧
            (s.mode b = some .fireRecall → new.service = .recalled ∧ new.recallDue = true ∧ new.enabled = 0) ∧
            (s.mode b ≠ some .fireRecall →
              new.service = .outOfContact ∧ new.recallDue = false ∧
              ∀ f, new.enabled.has f = true ↔
                (s.floor f).state = .isOpen ∧ (s.floor f).kind ≠ .ordinary ∧ s.serves b f = true)) ∧
        (r.carCount ≤ c.val →
          new =
            if old.service = .absent then old
            else { old with service := .absent, stops := [], planned := none, enabled := 0 }) := by
  obtain ⟨s0, stored⟩ : ∃ s0, s0 =
    (s.setStore (s.store.complete g)).setPolicy { s.policy with banks := s.policy.banks.set b r } := ⟨_, rfl⟩
  have done : s.jobDone g = s0.recount b := stored ▸ State.jobDone_bank job
  have only : s0.carsOnly (s0.recount b) := s0.recount_carsOnly b
  have car : ∀ c, (s.matched g).car b c = Car.closeGeneration (s.car b c) (s0.recounted b c) := fun c =>
    stored ▸ State.matched_recounted job c
  have counted : ∀ c, s0.counted b c = Decidable.decide (c.val < r.carCount) := fun c =>
    stored ▸ s.counted_setBank (s.store.complete g) b r c
  have cars : ∀ h c, s0.car h c = s.car h c := fun h c => by rw [stored]; rfl
  have mode : s0.mode b = s.mode b := by rw [stored]; rfl
  have unbooked0 : ∀ k ∈ s0.disp.bookings, k.bank ≠ b := by rw [stored]; exact unbooked
  refine ⟨_, exec_matched flight, exec_changesOnly (exec_matched flight), s.matched_stores g, ?_, ?_, ?_, ?_, ?_,
    fun h c ne => ?_, fun c => ⟨fun below present => ?_, fun below absent => ?_, fun beyond => ?_⟩⟩
  · rw [s.matched_policy g, done, only.policy, stored]
    rfl
  · rw [s.matched_bookings g, done, only.bookings, stored]
    rfl
  · rw [s.matched_serial g, done, only.serial, stored]
    rfl
  · rw [s.matched_tickets g, done, only.tickets, stored]
    rfl
  · rw [s.matched_modes g, done, only.modes, stored]
    rfl
  · rw [s.matched_car g, done, State.recount_other _ _ ne, cars]
    exact Car.closeGeneration_self _
  · rw [car, State.recounted_of_counted ((counted c).trans (decide_eq_true below)) ((cars b c).symm ▸ present), cars]
    exact Car.closeGeneration_self _
  · rw [car, Car.closeGeneration_of_absent _ _ (.inl absent),
      State.recounted_fresh ((counted c).trans (decide_eq_true below)) ((cars b c).symm ▸ absent)]
    have enabled := State.freshEnabled_has (c := c) unbooked0
    rw [mode] at enabled
    by_cases fire : s.mode b = some .fireRecall
    · rw [State.freshCar_of_fire (mode.trans fire)] at enabled ⊢
      refine ⟨rfl, rfl, rfl, rfl, rfl, rfl, rfl, rfl, fun _ => ⟨rfl, rfl, ?_⟩, fun ne => absurd fire ne⟩
      refine BitVec.eq_of_getLsbD_eq fun i hi => (Bool.eq_false_iff.2 fun h => ?_).trans BitVec.getLsbD_zero.symm
      exact ((enabled ⟨i, hi⟩).1 h).1 fire
    · rw [State.freshCar_of_ne (by rw [mode]; exact fire)] at enabled ⊢
      refine ⟨rfl, rfl, rfl, rfl, rfl, rfl, rfl, rfl, fun e => absurd e fire, fun _ => ⟨rfl, rfl, fun f => ?_⟩⟩
      subst stored
      exact (enabled f).trans (and_iff_right fire)
  · have uncounted : s0.counted b c = false := (counted c).trans (decide_eq_false (by omega))
    rw [car, State.recounted_of_uncounted uncounted, cars]
    split
    · exact Car.closeGeneration_self _
    · exact Car.closeGeneration_of_absent _ _ (.inr rfl)

/-! ### A new service state with its report (R95, R98) -/

/-- R95, R98: a car takes a service state, and the report follows the moves' reports. -/
def State.serviceSet (s : State) (b : Bank) (c : CarNo) (new : Service) : State :=
  (s.setService b c new).reportService b c (s.car b c).service new

section
variable (s : State) (b : Bank) (c : CarNo) (new : Service)

theorem State.serviceSet_disp : (s.serviceSet b c new).disp = (s.setService b c new).disp := State.reportService_disp _ _ _ _ _

theorem State.serviceSet_car (h : Bank) (d : CarNo) : (s.serviceSet b c new).car h d = (s.setService b c new).car h d := by
  unfold State.car
  rw [State.serviceSet_disp]

theorem State.serviceSet_port (q : PortNo) : (s.serviceSet b c new).port q = (s.setService b c new).port q :=
  congrArg (·.get q) (State.reportService_ports _ _ _ _ _)

theorem State.serviceSet_policy : (s.serviceSet b c new).policy = s.policy :=
  (State.reportService_policy _ _ _ _ _).trans (s.setService_policy b c new)

theorem State.serviceSet_service : ((s.serviceSet b c new).car b c).service = new := by
  rw [State.serviceSet_car, State.setService_service]

theorem State.serviceSet_service_other {h : Bank} {d : CarNo} (ne : (h, d) ≠ (b, c)) :
    ((s.serviceSet b c new).car h d).service = (s.car h d).service := by
  rw [State.serviceSet_car, s.setService_service_other b c new ne]

theorem State.serviceSet_host (ne : (s.car b c).service ≠ new) :
    (s.serviceSet b c new).host = (s.setService b c new).host.post
      { cls := serviceClass (s.car b c).service new, clock := s.part.clock, gap := false,
        body := .carService b c (s.car b c).service new } := by
  rw [State.serviceSet, State.reportService_eq _ _ _ ne, ← s.setService_part b c new]
  rfl

end

/-! ### Withdrawing and restoring (R161) -/

section
variable {s : State} {b : Bank} {car : Car} {w : Bool}

theorem State.serviceAfter_none_iff :
    s.serviceAfter b car w = none ↔
      (w = true ∧ (car.service = .absent ∨ car.service = .recalled ∨ car.service = .withdrawn)) ∨
        (w = false ∧ car.service ≠ .withdrawn) := by
  unfold State.serviceAfter
  cases w <;> cases car.service <;> simp

theorem State.serviceAfter_some_iff {new : Service} :
    s.serviceAfter b car w = some new ↔
      (w = true ∧ (car.service = .inService ∨ car.service = .carHeld ∨ car.service = .outOfContact ∨
          car.service = .frozen) ∧ new = .withdrawn) ∨
        (w = false ∧ car.service = .withdrawn ∧ new = s.restoredState b car) := by
  unfold State.serviceAfter
  cases w <;> cases car.service <;> simp [eq_comm]

theorem State.restoredState_of_silent (silent : s.silent b car.age = true) : s.restoredState b car = .outOfContact :=
  if_pos silent

theorem State.restoredState_of_heard (heard : ¬ s.silent b car.age = true) {st : Status} (held : car.status = some st) :
    s.restoredState b car =
      if car.stale = 10 then .frozen else if st.carMode = .normal then .inService else .carHeld := by
  rw [State.restoredState, if_neg heard, held]
  rfl

end

section
variable {s : State} {b : Bank} {c : CarNo} {w : Bool}

theorem State.withdrawCar_none (none : s.serviceAfter b (s.car b c) w = none) : s.withdrawCar b c w = s := by
  unfold State.withdrawCar
  simp only [none]

theorem State.withdrawCar_some {new : Service} (some : s.serviceAfter b (s.car b c) w = some new) :
    s.withdrawCar b c w = s.serviceSet b c new := by
  unfold State.withdrawCar
  simp only [some]
  rfl

end

/-! ### SET-CAR-SERVICE completed -/

/-- R12: the page stored and the withdrawn-car set taken. -/
def State.withdrawnStored (s : State) (g : Program) (b : Bank) (c : CarNo) (w : Bool) : State :=
  (s.setStore (s.store.complete g)).setBank b
    { s.bank b with withdrawn := putCar (s.bank b).withdrawn c w }

/-- R161: the withdrawn-car set has no part in the car's new state. -/
theorem State.withdrawnStored_serviceAfter (s : State) (g : Program) (b : Bank) (c : CarNo) (w : Bool) :
    (s.withdrawnStored g b c w).serviceAfter b ((s.withdrawnStored g b c w).car b c) w = s.serviceAfter b (s.car b c) w := by
  have bank : (s.withdrawnStored g b c w).bank b = { s.bank b with withdrawn := putCar (s.bank b).withdrawn c w } :=
    Vector.get_set_self _ _ _
  have silent : ∀ age, (s.withdrawnStored g b c w).silent b age = s.silent b age := fun age => by
    unfold State.silent
    rw [bank]
    rfl
  unfold State.serviceAfter State.restoredState
  rw [silent]
  rfl

section
variable {s : State} {g : Program} {b : Bank} {c : CarNo} {w : Bool} (job : g.job = .carService b c w)
include job

theorem State.jobDone_carService :
    s.jobDone g =
      if (s.bank b).withdrawn.has c = w then s.setStore (s.store.complete g)
      else (s.withdrawnStored g b c w).withdrawCar b c w := by
  unfold State.jobDone State.jobCompleted
  rw [job]
  rfl

end

/-- R159: the set with the car, or without it, is what a set that stood so already was. -/
theorem Vector.set_get_self {α : Type} {n : Nat} (v : Vector α n) (i : Fin n) : v.set i (v.get i) = v := by
  refine Vector.ext fun j hj => ?_
  rw [Vector.getElem_set]
  split
  next e => subst e; rfl
  next => rfl

/-- R160: a request for what the set already holds. -/
theorem State.matched_carService_same {s : State} {g : Program} {b : Bank} {c : CarNo} {w : Bool}
    (job : g.job = .carService b c w) (same : (s.bank b).withdrawn.has c = w) :
    (s.matched g).disp = s.disp ∧ (s.matched g).policy = s.policy ∧
      ∀ q, ((s.matched g).port q).memory = (s.port q).memory := by
  have done : s.jobDone g = s.setStore (s.store.complete g) := (State.jobDone_carService job).trans (if_pos same)
  have closed : s.closeCars (s.jobDone g) = s.jobDone g := by
    rw [done]
    exact State.closeCars_of_cars_eq fun _ _ => rfl
  refine ⟨?_, ?_, fun q => ?_⟩
  · rw [s.matched_disp g, closed, done]
    rfl
  · rw [s.matched_policy g, done]
    rfl
  · rw [s.matched_port g, Port.wake_memory, done]
    rfl

section
variable {s : State} {g : Program} {b : Bank} {c : CarNo} {w : Bool} (job : g.job = .carService b c w)
  (turns : (s.bank b).withdrawn.has c ≠ w)
include job turns

/-- R161: the car keeps its service state. -/
theorem State.matched_carService_none (none : s.serviceAfter b (s.car b c) w = none) :
    (s.matched g).disp = s.disp ∧ (s.matched g).policy = (s.withdrawnStored g b c w).policy ∧
      ∀ q, ((s.matched g).port q).memory = (s.port q).memory := by
  have done : s.jobDone g = s.withdrawnStored g b c w :=
    ((State.jobDone_carService job).trans (if_neg turns)).trans
      (State.withdrawCar_none ((s.withdrawnStored_serviceAfter g b c w).trans none))
  have closed : s.closeCars (s.jobDone g) = s.jobDone g := by
    rw [done]
    exact State.closeCars_of_cars_eq fun _ _ => rfl
  refine ⟨?_, ?_, fun q => ?_⟩
  · rw [s.matched_disp g, closed, done]
    rfl
  · rw [s.matched_policy g, done]
  · rw [s.matched_port g, Port.wake_memory, done]
    rfl

/-- R161, R98: the car takes its new service state. -/
structure State.restaffed (s : State) (g : Program) (b : Bank) (c : CarNo) (w : Bool) (new : Service) (u t : State) :
    Prop where
  changed : u = (s.withdrawnStored g b c w).setService b c new
  policy : t.policy = (s.withdrawnStored g b c w).policy
  bookings : t.disp.bookings = u.disp.bookings
  tickets : t.disp.tickets = u.disp.tickets
  modes : t.disp.modes = s.disp.modes
  service : (t.car b c).service = new
  other : ∀ h d, (h, d) ≠ (b, c) → (t.car h d).service = (s.car h d).service
  memory : ∀ q, (t.port q).memory = (u.port q).memory
  host : (s.car b c).service ≠ new → t.host = (u.host.post
    { cls := serviceClass (s.car b c).service new, clock := s.part.clock, gap := false,
      body := .carService b c (s.car b c).service new }).repliesDone

theorem State.exists_restaffed {new : Service} (some : s.serviceAfter b (s.car b c) w = some new) :
    ∃ u, s.restaffed g b c w new u (s.matched g) := by
  obtain ⟨s0, stored⟩ : ∃ s0, s0 = s.withdrawnStored g b c w := ⟨_, rfl⟩
  have done : s.jobDone g = s0.serviceSet b c new := by
    rw [State.jobDone_carService job, if_neg turns, stored]
    exact State.withdrawCar_some ((s.withdrawnStored_serviceAfter g b c w).trans some)
  have cars : ∀ h d, s0.car h d = s.car h d := fun h d => by rw [stored]; rfl
  refine ⟨s0.setService b c new, by rw [stored], ?_, ?_, ?_, ?_, ?_, fun h d ne => ?_, fun q => ?_, fun ne => ?_⟩
  · rw [s.matched_policy g, done, State.serviceSet_policy, stored]
  · rw [s.matched_bookings g, done, State.serviceSet_disp]
  · rw [s.matched_tickets g, done, State.serviceSet_disp]
  · rw [s.matched_modes g, done, State.serviceSet_disp, State.setService_modes, stored]
    rfl
  · rw [s.matched_car g, Car.closeGeneration_service, done, State.serviceSet_service]
  · rw [s.matched_car g, Car.closeGeneration_service, done, State.serviceSet_service_other _ _ _ _ ne, cars]
  · rw [s.matched_port g, Port.wake_memory, done, State.serviceSet_port]
  · rw [s.matched_host g, done, State.serviceSet_host _ _ _ _ ((cars b c).symm ▸ ne), cars, stored]
    rfl

end

section
variable {s : State} {g : Program} {b : Bank} {c : CarNo} {w : Bool} {new : Service} {u t : State}
  (h : s.restaffed g b c w new u t)
include h

/-- A car that does not leave IN_SERVICE keeps the tables. -/
theorem State.restaffed.kept (keeps : ¬ ((s.car b c).service = .inService ∧ new ≠ .inService)) :
    t.disp.bookings = s.disp.bookings ∧ t.disp.tickets = s.disp.tickets ∧
      (∀ q, (t.port q).memory = (s.port q).memory) ∧ u.host = s.host := by
  have same : u = (s.withdrawnStored g b c w).withService b c new := h.changed.trans (State.setService_of_keeps keeps)
  refine ⟨?_, ?_, fun q => ?_, ?_⟩
  · rw [h.bookings, same]
    rfl
  · rw [h.tickets, same]
    rfl
  · rw [h.memory, same]
    rfl
  · rw [same]
    rfl

/-- R98: a car that leaves IN_SERVICE for WITHDRAWN. -/
theorem State.restaffed.lost (was : (s.car b c).service = .inService) (withdrawn : new = .withdrawn)
    (store : t.store = s.store.complete g) :
    (∀ k ∈ t.disp.bookings, k.bank = b → k.car = c → k.state ≠ .waiting) ∧
      ∃ v, (((s.setStore t.store).setPolicy t.policy).setCar b c { s.car b c with service := .withdrawn }).movesAll
          (s.waitingOn b c) v ∧
        t.disp.bookings = v.disp.bookings ∧ t.disp.tickets = v.disp.tickets ∧
        (∀ q, (t.port q).memory = (v.port q).memory) ∧
        t.host =
          (v.host.post
            { cls := .urgent, clock := s.part.clock, gap := false,
              body := .carService b c .inService .withdrawn }).repliesDone := by
  subst withdrawn
  have loses : (s.withdrawnStored g b c w).loses b c .withdrawn := ⟨was, fun e => nomatch e⟩
  have moved : u = ((s.withdrawnStored g b c w).withService b c .withdrawn).loseCar b c :=
    h.changed.trans (State.setService_of_loses loses)
  have out : (((s.withdrawnStored g b c w).withService b c .withdrawn).car b c).service ≠ .inService := by
    rw [State.withService_self]
    exact fun e => nomatch e
  refine ⟨fun k held bank car => ?_, u, ?_, h.bookings, h.tickets, h.memory, ?_⟩
  · rw [h.bookings, moved] at held
    exact State.loseCar_clears _ b c out held bank car
  · rw [store, h.policy, moved]
    exact State.loseCar_movesAll ((s.withdrawnStored g b c w).withService b c .withdrawn) b c
  · rw [h.host (was ▸ fun e => nomatch e), was]
    rfl

theorem State.restaffed.riding (once : (s.disp.bookings.map fun k => k.id).Nodup) {k : Booking} (held : k ∈ s.disp.bookings)
    (rides : k.state = .riding) : k ∈ t.disp.bookings := by
  rw [h.bookings, h.changed]
  exact State.setService_riding (s.withdrawnStored g b c w) b c new once held rides

/-- The CAR_SERVICE report is in the queue. -/
theorem State.restaffed.reports (enabled : s.host.enables.getLsbD 5 = true) (empty : s.host.queue = [])
    (out : (s.car b c).service ≠ .inService) (ne : new ≠ (s.car b c).service) :
    ∃ x ∈ t.host.queue, x.cls = (if new = .outOfContact ∨ new = .frozen then .urgent else .routine) ∧
      x.clock = s.part.clock ∧ x.body = .carService b c (s.car b c).service new := by
  obtain ⟨-, -, -, host⟩ := h.kept fun loses => out loses.1
  rw [h.host ne.symm, host]
  have cls : serviceClass (s.car b c).service new =
      if new = .outOfContact ∨ new = .frozen then .urgent else .routine :=
    if_congr (or_iff_right out) rfl rfl
  rw [← cls]
  exact HostPort.mem_replies (HostPort.mem_post enabled (by rw [empty]; exact Nat.zero_lt_succ _))

end

theorem exec_verifyMatch_carService (s : State) (g : Program) (b : Bank) (c : CarNo) (w : Bool) (ok : s.bookingsOk)
    (flight : s.store.programmer = some g) (job : g.job = .carService b c w) :
    let old := s.car b c
    let silent : Prop :=
      old.age = none ∨ ∃ a, old.age = some a ∧ 10 * (s.bank b).contactTime < (s.part.clock - a).toNat
    ∃ (t : State) (ws : CarSet), exec .verifyMatch s = .next t ∧
      s.changesOnly [.store, .policy, .ports, .disp, .lines, .host] t ∧ s.stores g t ∧
      (∀ h, ws.has h = if h = c then w else (s.bank b).withdrawn.has h) ∧
      t.policy = { s.policy with banks := s.policy.banks.set b { s.bank b with withdrawn := ws } } ∧
      t.disp.modes = s.disp.modes ∧ (∀ h d, (h, d) ≠ (b, c) → (t.car h d).service = (s.car h d).service) ∧
      (∀ k ∈ s.disp.bookings, k.state = .riding → k ∈ t.disp.bookings) ∧
      ((s.bank b).withdrawn.has c = w → t.disp = s.disp) ∧
      ((w = false ∨ old.service ≠ .inService) →
        t.disp.bookings = s.disp.bookings ∧ t.disp.tickets = s.disp.tickets ∧
          ∀ q, (t.port q).memory = (s.port q).memory) ∧
      ((s.bank b).withdrawn.has c ≠ w →
        (w = true →
          ((old.service = .inService ∨ old.service = .carHeld ∨ old.service = .outOfContact ∨ old.service = .frozen) →
            (t.car b c).service = .withdrawn ∧
              (old.service = .inService →
                (∀ k ∈ t.disp.bookings, k.bank = b → k.car = c → k.state ≠ .waiting) ∧
                ∃ v, (((s.setStore t.store).setPolicy t.policy).setCar b c { old with service := .withdrawn }).movesAll
                    (s.waitingOn b c) v ∧
                  t.disp.bookings = v.disp.bookings ∧ t.disp.tickets = v.disp.tickets ∧
                  (∀ q, (t.port q).memory = (v.port q).memory) ∧
                  t.host =
                    (v.host.post
                      { cls := .urgent, clock := s.part.clock, gap := false,
                        body := .carService b c .inService .withdrawn }).repliesDone)) ∧
          ((old.service = .absent ∨ old.service = .recalled ∨ old.service = .withdrawn) →
            (t.car b c).service = old.service)) ∧
        (w = false →
          (old.service ≠ .withdrawn → (t.car b c).service = old.service) ∧
          (old.service = .withdrawn →
            (silent → (t.car b c).service = .outOfContact) ∧
            (¬ silent → ∀ st, old.status = some st →
              (t.car b c).service =
                if old.stale = 10 then .frozen else if st.carMode = .normal then .inService else .carHeld))) ∧
        (s.host.enables.getLsbD 5 = true → s.host.queue = [] → old.service ≠ .inService →
          (t.car b c).service ≠ old.service →
          ∃ x ∈ t.host.queue,
            x.cls =
                (if (t.car b c).service = .outOfContact ∨ (t.car b c).service = .frozen then .urgent else .routine) ∧
              x.clock = s.part.clock ∧ x.body = .carService b c old.service (t.car b c).service)) := by
  intro old silent
  have only := exec_changesOnly (exec_matched flight)
  have stores := s.matched_stores g
  by_cases same : (s.bank b).withdrawn.has c = w
  · obtain ⟨disp, policy, memory⟩ := State.matched_carService_same job same
    refine ⟨s.matched g, (s.bank b).withdrawn, exec_matched flight, only, stores, fun h => ?_, ?_, by rw [disp],
      fun h d _ => ?_, fun k hk _ => disp ▸ hk, fun _ => disp, fun _ => ⟨by rw [disp], by rw [disp], memory⟩,
      fun turns => absurd same turns⟩
    · split
      next e => rw [e, same]
      next => rfl
    · rw [policy]
      exact congrArg (fun v => { s.policy with banks := v }) (Vector.set_get_self _ _).symm
    · unfold State.car
      rw [disp]
  · have set : ∀ h, (putCar (s.bank b).withdrawn c w).has h = if h = c then w else (s.bank b).withdrawn.has h :=
      fun h => putCar_has _ _ _ _
    cases after : s.serviceAfter b (s.car b c) w with
    | none =>
      obtain ⟨disp, policy, memory⟩ := State.matched_carService_none job same after
      have cars : ∀ h d, (s.matched g).car h d = s.car h d := fun h d => by
        unfold State.car
        rw [disp]
      refine ⟨s.matched g, _, exec_matched flight, only, stores, set, policy, by rw [disp],
        fun h d _ => by rw [cars], fun k hk _ => disp ▸ hk, fun e => absurd e same,
        fun _ => ⟨by rw [disp], by rw [disp], memory⟩, fun _ => ⟨fun on => ⟨fun four => ?_, fun _ => by rw [cars]⟩,
          fun off => ⟨fun _ => by rw [cars], fun withdrawn => ?_⟩, fun _ _ _ ne => absurd (by rw [cars]) ne⟩⟩
      · rcases State.serviceAfter_none_iff.1 after with ⟨-, three⟩ | ⟨off, -⟩
        · rcases three with e | e | e <;> rw [e] at four <;> simp at four
        · exact absurd (on.symm.trans off) Bool.noConfusion
      · rcases State.serviceAfter_none_iff.1 after with ⟨on, -⟩ | ⟨-, ne⟩
        · exact absurd (on.symm.trans off) Bool.noConfusion
        · exact absurd withdrawn ne
    | some new =>
      obtain ⟨u, h⟩ := State.exists_restaffed job same after
      have service := h.service
      have cases := State.serviceAfter_some_iff.1 after
      have withdraws : w = true → new = .withdrawn := fun on =>
        cases.elim (fun h => h.2.2) fun h => absurd (on.symm.trans h.1) Bool.noConfusion
      have restores : w = false → new = s.restoredState b (s.car b c) := fun off =>
        cases.elim (fun h => absurd (h.1.symm.trans off) Bool.noConfusion) fun h => h.2.2
      refine ⟨s.matched g, _, exec_matched flight, only, stores, set, h.policy, h.modes, h.other,
        fun k hk rides => h.riding ok.1 hk rides, fun e => absurd e same, fun keeps => ?_,
        fun _ => ⟨fun on => ⟨fun four => ⟨?_, fun was => ?_⟩, fun three => ?_⟩,
          fun off => ⟨fun ne => ?_, fun withdrawn => ⟨fun quiet => ?_, fun heard st held => ?_⟩⟩,
          fun enabled empty out ne => ?_⟩⟩
      · obtain ⟨bookings, tickets, memory, -⟩ := h.kept fun ⟨was, ne⟩ => by
          rcases cases with ⟨on, -⟩ | ⟨-, withdrawn, -⟩
          · rcases keeps with off | out
            · exact Bool.noConfusion (on.symm.trans off)
            · exact out was
          · exact Service.noConfusion (was.symm.trans withdrawn)
        exact ⟨bookings, tickets, memory⟩
      · rw [service, withdraws on]
      · exact h.lost was (withdraws on) (s.matched_store g)
      · rcases cases with ⟨-, four, -⟩ | ⟨off, -⟩
        · rcases three with e | e | e <;> rw [e] at four <;> simp at four
        · exact absurd (on.symm.trans off) Bool.noConfusion
      · rcases cases with ⟨on, -⟩ | ⟨-, withdrawn, -⟩
        · exact absurd (on.symm.trans off) Bool.noConfusion
        · exact absurd withdrawn ne
      · rw [service, restores off, State.restoredState_of_silent (State.silent_iff.2 quiet)]
      · rw [service, restores off, State.restoredState_of_heard (fun e => heard (State.silent_iff.1 e)) held]
      · rw [service] at ne ⊢
        exact h.reports enabled empty out ne

/-- Settles O22: the change of the car count car by car, and R161's table with the moves of R98. -/
theorem bankAndCarVerifyMatchTakeEffect : Obligations.BankAndCarVerifyMatchTakeEffect :=
  ⟨exec_verifyMatch_bank, exec_verifyMatch_carService⟩

end Sys2Proof.Machine
end

section
/-! PROOF. O23: the completion of an ERASE (R16). -/

namespace Sys2Proof.Machine

/-! ### Page 2085: every reader takes its default (R58) -/

theorem State.reloadPorts_policy (s : State) (ps : List PortNo) : (ps.foldl State.reloadPort s).policy = s.policy := by
  induction ps generalizing s with
  | nil => rfl
  | cons p ps ih => exact ih (s.reloadPort p)

theorem State.reloadPorts_disp (s : State) (ps : List PortNo) : (ps.foldl State.reloadPort s).disp = s.disp := by
  induction ps generalizing s with
  | nil => rfl
  | cons p ps ih => exact ih (s.reloadPort p)

theorem State.reloadPorts_port {ps : List PortNo} (once : ps.Nodup) (s : State) (q : PortNo) :
    (ps.foldl State.reloadPort s).port q =
      if q ∈ ps then (s.port q).reloaded (s.reader q).enabled else s.port q := by
  induction ps generalizing s with
  | nil => rfl
  | cons p ps ih =>
    obtain ⟨fresh, once⟩ := List.nodup_cons.1 once
    rw [List.foldl_cons, ih once]
    have reader : (s.reloadPort p).reader q = s.reader q := rfl
    rw [reader, State.reloadPort]
    by_cases own : q = p
    · subst own
      rw [if_neg fresh, if_pos List.mem_cons_self, State.port_setPort_self]
    · rw [State.port_setPort_ne _ _ _ _ (Ne.symm own)]
      simp [own]

/-! ### Page 2084: every WITHDRAWN car restored, the car counts taken (R161, R31) -/

/-- R161: what R16 makes of a car before the counts take effect. -/
def State.restored (s : State) (b : Bank) (c : CarNo) : Car :=
  if (s.car b c).service = .withdrawn then { s.car b c with service := s.restoredState b (s.car b c) } else s.car b c

/-- A change of cars and reports alone. -/
structure State.staffs (s t : State) : Prop where
  policy : t.policy = s.policy
  part : t.part = s.part
  ports : t.ports = s.ports
  bookings : t.disp.bookings = s.disp.bookings
  tickets : t.disp.tickets = s.disp.tickets
  modes : t.disp.modes = s.disp.modes

theorem State.staffs.refl (s : State) : s.staffs s := ⟨rfl, rfl, rfl, rfl, rfl, rfl⟩

theorem State.staffs.trans {s t u : State} (h : s.staffs t) (k : t.staffs u) : s.staffs u :=
  ⟨k.policy.trans h.policy, k.part.trans h.part, k.ports.trans h.ports, k.bookings.trans h.bookings,
    k.tickets.trans h.tickets, k.modes.trans h.modes⟩

theorem State.carsOnly.staffs {s t : State} (h : s.carsOnly t) : s.staffs t :=
  ⟨h.policy, h.part, h.ports, h.bookings, h.tickets, h.modes⟩

/-- R161: one car restored if it is WITHDRAWN. -/
def State.restoreCar (s : State) (b : Bank) (c : CarNo) : State :=
  if (s.car b c).service = .withdrawn then s.withdrawCar b c false else s

section
variable (s : State) (b : Bank) (c : CarNo)

/-- A WITHDRAWN car was not IN_SERVICE, so nothing moves. -/
theorem State.restoreCar_eq :
    s.restoreCar b c =
      if (s.car b c).service = .withdrawn then
        (s.setCar b c (s.restored b c)).reportService b c .withdrawn (s.restoredState b (s.car b c))
      else s := by
  unfold State.restoreCar
  split
  next withdrawn =>
    have after : s.serviceAfter b (s.car b c) false = some (s.restoredState b (s.car b c)) :=
      State.serviceAfter_some_iff.2 (.inr ⟨rfl, withdrawn, rfl⟩)
    have keeps : ¬ s.loses b c (s.restoredState b (s.car b c)) := fun loses =>
      Service.noConfusion (loses.1.symm.trans withdrawn)
    rw [State.withdrawCar_some after, State.serviceSet, State.setService_of_keeps keeps, withdrawn, State.restored,
      if_pos withdrawn]
    rfl
  next => rfl

theorem State.restoreCar_disp : (s.restoreCar b c).disp = (s.setCar b c (s.restored b c)).disp := by
  rw [State.restoreCar_eq]
  split
  next => rw [State.reportService_disp]
  next other => rw [State.restored, if_neg other, State.setCar_car]

theorem State.restoreCar_staffs : s.staffs (s.restoreCar b c) := by
  have disp := s.restoreCar_disp b c
  have only : s.changesOnly [.disp, .host] (s.restoreCar b c) := by
    rw [State.restoreCar_eq]
    exact .ite (.step (State.reportService_only _ _ _ _ _) (.step (State.setCar_only _ _ _ _) (.refl _ _))) (.refl _ _)
  exact ⟨only .policy (by decide), only .part (by decide), only .ports (by decide), by rw [disp]; rfl, by rw [disp]; rfl,
    by rw [disp]; rfl⟩

theorem State.restoreCar_car_self : (s.restoreCar b c).car b c = s.restored b c := by
  unfold State.car
  rw [State.restoreCar_disp]
  exact State.car_setCar_self _ _ _ _

theorem State.restoreCar_car_ne {h : Bank} {d : CarNo} (ne : (h, d) ≠ (b, c)) : (s.restoreCar b c).car h d = s.car h d := by
  unfold State.car
  rw [State.restoreCar_disp]
  exact State.car_setCar_ne _ _ _ _ _ _ ne.symm

end

theorem State.staffs.silent {s t : State} (h : s.staffs t) (b : Bank) (age : Option Clock) : t.silent b age = s.silent b age := by
  unfold State.silent State.bank State.now
  rw [h.policy, h.part]

theorem State.staffs.restored {s t : State} (h : s.staffs t) {b : Bank} {c : CarNo} (same : t.car b c = s.car b c) :
    t.restored b c = s.restored b c := by
  unfold State.restored State.restoredState
  rw [same, h.silent]

section
variable (b : Bank)

theorem State.restoreCars_staffs (s : State) (cs : List CarNo) : s.staffs (cs.foldl (fun s c => s.restoreCar b c) s) := by
  induction cs generalizing s with
  | nil => exact .refl s
  | cons c cs ih => exact (s.restoreCar_staffs b c).trans (ih _)

theorem State.restoreCars_other (s : State) (cs : List CarNo) {h : Bank} (ne : h ≠ b) (d : CarNo) :
    (cs.foldl (fun s c => s.restoreCar b c) s).car h d = s.car h d := by
  induction cs generalizing s with
  | nil => rfl
  | cons c cs ih => exact (ih _).trans (s.restoreCar_car_ne b c fun e => ne (Prod.mk.inj e).1)

theorem State.restoreCars_car {cs : List CarNo} (once : cs.Nodup) (s : State) (d : CarNo) :
    (cs.foldl (fun s c => s.restoreCar b c) s).car b d = if d ∈ cs then s.restored b d else s.car b d := by
  induction cs generalizing s with
  | nil => rfl
  | cons c cs ih =>
    obtain ⟨fresh, once⟩ := List.nodup_cons.1 once
    rw [List.foldl_cons, ih once]
    by_cases own : d = c
    · subst own
      rw [if_neg fresh, if_pos List.mem_cons_self, State.restoreCar_car_self]
    · have same := s.restoreCar_car_ne b c (h := b) (d := d) fun e => own (Prod.mk.inj e).2
      rw [same, (s.restoreCar_staffs b c).restored same]
      simp [own]

theorem State.restoreAll_staffs (s : State) : s.staffs (s.restoreAll b) := s.restoreCars_staffs b allCars

theorem State.restoreAll_other (s : State) {h : Bank} (ne : h ≠ b) (d : CarNo) : (s.restoreAll b).car h d = s.car h d :=
  s.restoreCars_other b allCars ne d

theorem State.restoreAll_car (s : State) (d : CarNo) : (s.restoreAll b).car b d = s.restored b d :=
  (State.restoreCars_car b nodup_allCars s d).trans (if_pos (mem_allCars d))

end

theorem State.restoredState_ne_absent (s : State) (b : Bank) (car : Car) : s.restoredState b car ≠ .absent := by
  unfold State.restoredState serviceByReport
  repeat' split
  all_goals exact fun e => nomatch e

theorem State.restored_of_withdrawn {s : State} {b : Bank} {c : CarNo} (withdrawn : (s.car b c).service = .withdrawn) :
    s.restored b c = { s.car b c with service := s.restoredState b (s.car b c) } := if_pos withdrawn

theorem State.restored_of_ne {s : State} {b : Bank} {c : CarNo} (ne : (s.car b c).service ≠ .withdrawn) :
    s.restored b c = s.car b c := if_neg ne

theorem State.restored_absent_iff {s : State} {b : Bank} {c : CarNo} :
    (s.restored b c).service = .absent ↔ (s.car b c).service = .absent := by
  by_cases withdrawn : (s.car b c).service = .withdrawn
  · rw [State.restored_of_withdrawn withdrawn, withdrawn]
    exact iff_of_false (State.restoredState_ne_absent _ _ _) fun e => nomatch e
  · rw [State.restored_of_ne withdrawn]

/-- R16: one bank of an erased page 2084. -/
def State.eraseBank (s : State) (b : Bank) : State := (s.restoreAll b).recount b

/-- R16, R161, R31: what an erased page 2084 makes of a car. -/
def State.bankErased (s : State) (b : Bank) (c : CarNo) (old new : Car) : Prop :=
  (c ≠ 0 → new.service = .absent ∧ (old.service ≠ .absent → new.stops = [] ∧ new.enabled = 0)) ∧
    (c = 0 →
      (old.service = .absent → new.service = if s.mode b = some .fireRecall then .recalled else .outOfContact) ∧
      (old.service = .withdrawn →
        (s.silent b old.age = true → new.service = .outOfContact) ∧
        (¬ s.silent b old.age = true → ∀ st, old.status = some st →
          new.service = if old.stale = 10 then .frozen else if st.carMode = .normal then .inService else .carHeld)) ∧
      (old.service ≠ .absent → old.service ≠ .withdrawn → new = old))

section
variable (s : State) (b : Bank)

theorem State.eraseBank_staffs : s.staffs (s.eraseBank b) :=
  (s.restoreAll_staffs b).trans (State.recount_carsOnly _ b).staffs

theorem State.eraseBank_other {h : Bank} (ne : h ≠ b) (c : CarNo) : (s.eraseBank b).car h c = s.car h c := by
  rw [State.eraseBank, State.recount_other _ _ ne, s.restoreAll_other b ne]

/-- R161, R31: a car restored, and counted by a bank of one car. -/
theorem State.eraseBank_car (erased : s.bank b = BankRec.erased) (c : CarNo) :
    s.bankErased b c (s.car b c) ((s.eraseBank b).car b c) := by
  have staffs := s.restoreAll_staffs b
  have car := s.restoreAll_car b c
  have counted : (s.restoreAll b).counted b c = Decidable.decide (c.val < 1) := by
    unfold State.counted State.bank
    rw [staffs.policy]
    show Decidable.decide (c.val < (s.bank b).carCount) = _
    rw [erased]
    rfl
  rw [State.eraseBank, State.recount_car]
  constructor
  · intro ne
    have out : (s.restoreAll b).counted b c = false :=
      counted.trans (decide_eq_false fun lt => ne (Fin.ext (by omega)))
    rw [State.recounted_of_uncounted out, car]
    by_cases absent : (s.restored b c).service = .absent
    · rw [if_pos absent]
      exact ⟨absent, fun was => absurd (State.restored_absent_iff.1 absent) was⟩
    · rw [if_neg absent]
      exact ⟨rfl, fun _ => ⟨rfl, rfl⟩⟩
  · rintro rfl
    have isIn : (s.restoreAll b).counted b 0 = true := counted
    refine ⟨fun absent => ?_, fun withdrawn => ?_, fun present other => ?_⟩
    · have fresh : ((s.restoreAll b).car b 0).service = .absent := car ▸ State.restored_absent_iff.2 absent
      rw [State.recounted_fresh isIn fresh, State.freshCar]
      unfold State.mode
      rw [staffs.modes]
      by_cases fire : s.disp.modes.get b = some .fireRecall
      · rw [if_pos fire, if_pos fire]
        rfl
      · rw [if_neg fire, if_neg fire]
    · have present : ((s.restoreAll b).car b 0).service ≠ .absent := by
        rw [car, Ne, State.restored_absent_iff, withdrawn]
        exact fun e => nomatch e
      rw [State.recounted_of_counted isIn present, car, State.restored_of_withdrawn withdrawn]
      exact ⟨fun silent => State.restoredState_of_silent silent, fun heard st held => State.restoredState_of_heard heard held⟩
    · have kept : (s.restoreAll b).car b 0 = s.car b 0 := car.trans (State.restored_of_ne other)
      have still : ((s.restoreAll b).car b 0).service ≠ .absent := by
        rw [kept]
        exact present
      rw [State.recounted_of_counted isIn still, kept]

end

/-- R16: the banks of an erased page 2084, one after the other. -/
def State.eraseBankList (s : State) (bs : List Bank) : State := bs.foldl (fun t b => t.eraseBank b) s

section
variable (s : State)

theorem State.eraseBankList_nil : s.eraseBankList [] = s := rfl

theorem State.eraseBankList_cons (b : Bank) (bs : List Bank) :
    s.eraseBankList (b :: bs) = (s.eraseBank b).eraseBankList bs := List.foldl_cons ..

theorem State.eraseBankList_staffs (bs : List Bank) : s.staffs (s.eraseBankList bs) := by
  induction bs generalizing s with
  | nil => exact .refl s
  | cons b bs ih =>
    rw [State.eraseBankList_cons]
    exact (s.eraseBank_staffs b).trans (ih _)

theorem State.eraseBankList_other {bs : List Bank} {b : Bank} (out : b ∉ bs) (c : CarNo) :
    (s.eraseBankList bs).car b c = s.car b c := by
  induction bs generalizing s with
  | nil => rfl
  | cons d bs ih =>
    rw [List.mem_cons, not_or] at out
    rw [State.eraseBankList_cons]
    exact (ih (s.eraseBank d) out.2).trans (s.eraseBank_other d out.1 c)

theorem State.staffs.bankErased {s t : State} (h : s.staffs t) {b : Bank} {c : CarNo} {old new : Car}
    (erased : t.bankErased b c old new) : s.bankErased b c old new := by
  unfold State.bankErased State.mode at *
  rwa [h.modes, h.silent] at erased

theorem State.eraseBankList_car {bs : List Bank} (once : bs.Nodup) (erased : ∀ b, s.bank b = BankRec.erased) {b : Bank}
    (hb : b ∈ bs) (c : CarNo) : s.bankErased b c (s.car b c) ((s.eraseBankList bs).car b c) := by
  induction bs generalizing s with
  | nil => cases hb
  | cons d bs ih =>
    obtain ⟨fresh, once⟩ := List.nodup_cons.1 once
    have staffs := s.eraseBank_staffs d
    rw [State.eraseBankList_cons]
    by_cases own : b = d
    · subst own
      rw [(s.eraseBank b).eraseBankList_other fresh]
      exact s.eraseBank_car b (erased b) c
    · have same := s.eraseBank_other d own c
      have still : ∀ h, (s.eraseBank d).bank h = BankRec.erased := fun h => by
        rw [← erased h]
        unfold State.bank
        rw [staffs.policy]
      have rest := ih (s.eraseBank d) once still ((List.mem_cons.1 hb).resolve_left own)
      rw [same] at rest
      exact staffs.bankErased rest

end

/-! ### What an ERASE's completion does, by page (R10) -/

section
variable (s : State) {p : Nat}

theorem State.erasedPage_credential (page : p < 2048 ∨ 2086 ≤ p) : s.erasedPage p = s := by
  rw [State.erasedPage, if_neg (by omega), if_neg (by omega), if_neg (by omega), if_neg (by omega)]

theorem State.erasedPage_items (low : 2048 ≤ p) (high : p < 2076) : s.erasedPage p = s.setPolicy (s.policy.eraseItems p) :=
  if_pos ⟨low, high⟩

theorem State.erasedPage_floors (low : 2076 ≤ p) (high : p < 2084) :
    s.erasedPage p = s.changeFloors ((floorsOnPage p).map fun f => (f, FloorRec.erased)) := by
  rw [State.erasedPage, if_neg (by omega), if_pos ⟨low, high⟩]

theorem State.erasedPage_banks : s.erasedPage 2084 =
    (s.setPolicy { s.policy with banks := Vector.replicate 4 BankRec.erased, ticketLife := 600 }).eraseBankList allBanks := by
  rw [State.erasedPage, if_neg (by omega), if_neg (by omega), if_pos rfl]
  rfl

theorem State.erasedPage_readers : s.erasedPage 2085 =
    allPorts.foldl State.reloadPort (s.setPolicy { s.policy with readers := Vector.replicate 16 ReaderRec.erased }) := by
  rw [State.erasedPage, if_neg (by omega), if_neg (by omega), if_neg (by omega), if_pos rfl]
  rfl

end

theorem mem_floorsOnPage {p : Nat} {f : Floor} : f ∈ floorsOnPage p ↔ 2076 + f.val / 16 = p := by
  simp [floorsOnPage, allFloors]

section
variable {s : State} {g : Program} (job : g.job = .erase)
include job

theorem State.jobDone_erase : s.jobDone g = (s.setStore (s.store.complete g)).erasedPage g.page := by
  unfold State.jobDone State.jobCompleted
  rw [job]

/-- A page without floors and banks leaves the Dispatch Engine. -/
theorem State.matched_erase_disp
    (disp : ((s.setStore (s.store.complete g)).erasedPage g.page).disp = s.disp) : (s.matched g).disp = s.disp := by
  have done := State.jobDone_erase (s := s) job
  have same : (s.jobDone g).disp = s.disp := done ▸ disp
  rw [s.matched_disp g, State.closeCars_of_cars_eq, same]
  intro b c
  unfold State.car
  rw [same]

end

theorem State.erasedPage_modes (s : State) (p : Nat) : (s.erasedPage p).disp.modes = s.disp.modes := by
  by_cases out : p < 2048 ∨ 2086 ≤ p
  · rw [s.erasedPage_credential out]
  by_cases items : p < 2076
  · rw [s.erasedPage_items (by omega) items]
    exact congrArg DispatchBlock.modes (s.setPolicy_only (s.policy.eraseItems p) .disp (by decide))
  by_cases floors : p < 2084
  · rw [s.erasedPage_floors (by omega) floors, State.changeFloors_modes]
  obtain rfl | rfl : p = 2084 ∨ p = 2085 := by omega
  · rw [s.erasedPage_banks, (State.eraseBankList_staffs _ _).modes]
    rfl
  · rw [s.erasedPage_readers, State.reloadPorts_disp]
    rfl

/-- R16: the floors that an ERASE closes. -/
theorem State.shutKind_erased (s : State) (p : Nat) :
    s.shutKind (floorsOnPage p) FloorRec.erased = fun k =>
      k.state = .waiting &&
        ((2076 + k.origin.val / 16 = p && (s.floor k.origin).state = .isOpen) ||
          (2076 + k.dest.val / 16 = p && (s.floor k.dest).state = .isOpen)) := by
  have shuts : ∀ f, s.shuts (floorsOnPage p) FloorRec.erased f =
      (Decidable.decide (2076 + f.val / 16 = p) && Decidable.decide ((s.floor f).state = .isOpen)) := fun f => by
    rw [Bool.eq_iff_iff, State.shuts_iff, mem_floorsOnPage, Bool.and_eq_true, decide_eq_true_eq, decide_eq_true_eq]
    exact and_congr_right fun _ => and_iff_left rfl
  funext k
  rw [State.shutKind, shuts, shuts]

/-- R16: the state in which the banks of an erased page 2084 are at their defaults. -/
def State.banksErased (s : State) : State :=
  s.setPolicy { s.policy with banks := Vector.replicate 4 BankRec.erased, ticketLife := 600 }

theorem State.banksErased_bank (s : State) (b : Bank) : s.banksErased.bank b = BankRec.erased := get_replicate _ _

theorem State.banksErased_silent {s : State} {b : Bank} {age : Option Clock} :
    s.banksErased.silent b age = true ↔ age = none ∨ ∃ a, age = some a ∧ 30 < (s.part.clock - a).toNat := by
  rw [State.silent_iff, State.banksErased_bank]
  exact Iff.rfl

/-- Settles O23: the erased page's items, page by page. -/
theorem erasedPageTakesItsDefaults : Obligations.ErasedPageTakesItsDefaults := by
  intro s g pages canonical scanned flight job image
  obtain ⟨s0, stored⟩ : ∃ s0, s0 = s.setStore (s.store.complete g) := ⟨_, rfl⟩
  have done : s.jobDone g = s0.erasedPage g.page := stored ▸ State.jobDone_erase job
  have policy0 : s0.policy = s.policy := by rw [stored]; rfl
  have disp0 : s0.disp = s.disp := by rw [stored]; rfl
  have policy : (s.matched g).policy = (s0.erasedPage g.page).policy := (s.matched_policy g).trans (by rw [done])
  have keeps : (s0.erasedPage g.page).disp = s.disp → (s.matched g).disp = s.disp := fun h =>
    State.matched_erase_disp job (stored ▸ h)
  have scannedPages : s.store.badPages ≠ none := by rw [scanned]; exact fun e => nomatch e
  have length : g.image.length = 512 := by rw [image, List.length_replicate]
  have page := s.matched_store g
  refine ⟨s.matched g, exec_matched flight, exec_changesOnly (exec_matched flight), s.matched_stores g, ?_, fun i hi => ?_,
    fun k hk => ?_, ?_, fun out => ?_, fun low high => ?_, fun low high ok => ?_, fun at_ unbooked => ?_, fun at_ => ?_⟩
  · rw [page]
    exact s.store.complete_good g scannedPages
  · rw [page, s.store.complete_read_in g canonical length hi, image]
    exact List.getD_replicate _ hi
  · rw [page]
    exact StoreBlock.complete_record_erased canonical image hk
  · rw [s.matched_modes g, done, State.erasedPage_modes, disp0]
  · have same := s0.erasedPage_credential out
    exact ⟨by rw [policy, same, policy0], keeps (by rw [same, disp0])⟩
  · have items := s0.erasedPage_items low high
    have leaves : (s0.setPolicy (s0.policy.eraseItems g.page)).disp = s0.disp :=
      s0.setPolicy_only _ .disp (by decide)
    have set : (s0.setPolicy (s0.policy.eraseItems g.page)).policy = s.policy.eraseItems g.page := by
      rw [← policy0]
      rfl
    rw [policy, items, set]
    refine ⟨keeps (by rw [items, leaves, disp0]), fun n => ?_, fun n => ?_, fun n => ?_, ?_, ?_, ?_, ?_⟩
    all_goals simp only [Policy.eraseItems, Vector.get_ofFn]
  · intro shut gone
    have floors := s0.erasedPage_floors low high
    have kind : s0.shutKind (floorsOnPage g.page) FloorRec.erased = gone := by
      rw [State.shutKind_erased, stored]
      rfl
    refine ⟨fun f => ?_, ?_, ?_, fun q => ?_, ?_⟩
    · unfold State.floor
      rw [policy, floors, ← policy0]
      refine (s0.changeFloors_floor (floorsOnPage g.page) FloorRec.erased f).trans ?_
      simp only [mem_floorsOnPage]
      rfl
    · rw [s.matched_tickets g, done, floors, State.changeFloors_tickets, kind, stored]
      rfl
    · rw [s.matched_bookings g, done, floors, State.changeFloors_bookings _ _ _ (by rw [disp0]; exact ok.1), kind, disp0]
    · rw [s.matched_port g, Port.wake_memory, done, floors, State.changeFloors_memory, kind, stored]
      rfl
    · rw [s.matched_host g, done, floors, State.changeFloors_host, kind, stored]
      rfl
  · obtain ⟨u, erased⟩ : ∃ u, u = s0.banksErased.eraseBankList allBanks := ⟨_, rfl⟩
    have banks : s0.erasedPage g.page = u := by
      rw [at_, s0.erasedPage_banks, erased]
      rfl
    have staffs : s0.banksErased.staffs u := erased ▸ State.eraseBankList_staffs _ _
    have policyU : (s.matched g).policy = s0.banksErased.policy := by rw [policy, banks, staffs.policy]
    refine ⟨fun b => ?_, ?_, ?_, ?_, ?_, ?_, fun b c => ?_⟩
    · unfold State.bank
      rw [policyU]
      exact get_replicate _ _
    · rw [policyU]
      rfl
    · rw [policyU, ← policy0]
      rfl
    · rw [policyU, ← policy0]
      rfl
    · rw [s.matched_bookings g, done, banks, staffs.bookings, ← unbooked, ← disp0]
      rfl
    · rw [s.matched_tickets g, done, banks, staffs.tickets, ← disp0]
      rfl
    · have car : (s.matched g).car b c = Car.closeGeneration (s.car b c) (u.car b c) := by
        rw [s.matched_car g, done, banks]
      have old : s0.banksErased.car b c = s.car b c := by rw [stored]; rfl
      have mode : s0.banksErased.mode b = s.mode b := by rw [stored]; rfl
      have part0 : s0.part = s.part := by rw [stored]; rfl
      have result := s0.banksErased.eraseBankList_car nodup_allBanks s0.banksErased_bank (mem_allBanks b) c
      rw [← erased, old] at result
      unfold State.bankErased at result
      rw [mode, State.banksErased_silent, part0] at result
      obtain ⟨others, first⟩ := result
      rw [car]
      refine ⟨fun ne => ?_, fun zero => ?_⟩
      · rw [Car.closeGeneration_service, Car.closeGeneration_stops, Car.closeGeneration_enabled]
        exact others ne
      · obtain ⟨absent, withdrawn, kept⟩ := first zero
        rw [Car.closeGeneration_service]
        refine ⟨absent, withdrawn, fun present other => ?_⟩
        rw [kept present other]
        exact Car.closeGeneration_self _
  · obtain ⟨s1, reset⟩ : ∃ s1, s1 =
      s0.setPolicy { s0.policy with readers := Vector.replicate 16 ReaderRec.erased } := ⟨_, rfl⟩
    have readers : s0.erasedPage g.page = allPorts.foldl State.reloadPort s1 := by
      rw [at_, s0.erasedPage_readers, reset]
    have reader : ∀ p, s1.reader p = ReaderRec.erased := fun p => by
      rw [reset]
      exact get_replicate _ _
    refine ⟨keeps ?_, fun p => ?_⟩
    · rw [readers, State.reloadPorts_disp, reset, ← disp0]
      rfl
    · have port : (s.matched g).port p = (s.port p).reloaded false := by
        rw [s.matched_port g, done, readers, State.reloadPorts_port (ps := allPorts) (List.nodup_finRange 16),
          if_pos (show p ∈ allPorts from List.mem_finRange p), reader, reset, stored]
        exact Port.wake_of_ne (Port.reloaded_fields _ _).2.2.2
      obtain ⟨memory, -⟩ := Port.reloaded_fields (s.port p) false
      rw [port]
      refine ⟨?_, memory, fun idle => ?_, fun busy => ?_⟩
      · unfold State.reader
        rw [policy, readers, State.reloadPorts_policy]
        exact reader p
      · rw [Port.reloaded_idle idle]
        exact ⟨rfl, rfl⟩
      · rw [Port.reloaded_busy busy]
        exact ⟨rfl, rfl, rfl⟩

end Sys2Proof.Machine
end

section
/-! PROOF. O47: the contact, abandon and ticket timers (R96, R97, R124) and a due second advance (R35, R38). -/

namespace Sys2Proof.Machine

theorem State.closesWith_ports (s u : State) (h : HostPort) : (s.closesWith u h).ports = u.ports :=
  s.closeCars_only (u.setHost h) .ports (by decide)

/-! ### Contact timer (R96) -/

theorem Service.timed_iff {v : Service} : v.timed = true ↔ v = .inService ∨ v = .carHeld ∨ v = .frozen := by
  cases v <;> simp [Service.timed]

theorem State.contactLost_iff {s : State} {b : Bank} {c : CarNo} :
    s.contactLost b c = true ↔
      ∃ a, (s.car b c).age = some a ∧ 10 * (s.bank b).contactTime < (s.part.clock - a).toNat := by
  unfold State.contactLost
  cases (s.car b c).age with
  | none => simp
  | some a =>
    simp only [decide_eq_true_eq, Option.some.injEq, exists_eq_left']
    rfl

theorem exec_contactTimer_lost {s : State} {b : Bank} {c : CarNo} (running : s.part.state = .running)
    (timed : (s.car b c).service.timed = true) (lost : s.contactLost b c = true) :
    exec (.contactTimer b c) s = .next (s.closeCars (s.loseContact b c)).choose :=
  if_pos ⟨decide_eq_true running, timed, lost⟩

theorem exec_contactTimer_keeps {s : State} {b : Bank} {c : CarNo}
    (keeps : ¬ ((s.car b c).service.timed = true ∧ s.contactLost b c = true)) :
    exec (.contactTimer b c) s = .next s := if_neg fun h => keeps h.2

theorem exec_contactTimer_effect (s : State) (b : Bank) (c : CarNo) (running : s.part.state = .running) :
    let old := (s.car b c).service
    ((∃ a, (s.car b c).age = some a ∧ 10 * (s.bank b).contactTime < (s.part.clock - a).toNat) →
      (old = .inService ∨ old = .carHeld ∨ old = .frozen) →
      let lost := s.setCar b c { s.car b c with service := .outOfContact }
      ∃ t v, exec (.contactTimer b c) s = .next t ∧ s.changesOnly [.ports, .disp, .lines, .host] t ∧
        (old = .inService → lost.movesAll (s.waitingOn b c) v) ∧ (old ≠ .inService → v = lost) ∧
        t.disp.bookings = v.disp.bookings ∧ t.disp.tickets = v.disp.tickets ∧ t.disp.serial = s.disp.serial ∧
        t.ports = v.ports ∧
        t.host =
          (v.host.post { cls := .urgent, clock := s.part.clock, gap := false,
                         body := .carService b c old .outOfContact }).choose ∧
        (∀ h d, t.car h d = { v.car h d with gen := (t.car h d).gen, confirmed := (t.car h d).confirmed }) ∧
        (t.car b c).service = .outOfContact ∧ t.disp.modes = s.disp.modes ∧
        (∀ h d, (h, d) ≠ (b, c) → (t.car h d).service = (s.car h d).service) ∧
        (s.host.enables.getLsbD 5 = true → s.host.queue = [] → old ≠ .inService →
          ∃ r ∈ t.host.queue, r.cls = .urgent ∧ r.clock = s.part.clock ∧ r.body = .carService b c old .outOfContact)) ∧
    ((old = .absent ∨ old = .outOfContact ∨ old = .withdrawn ∨ old = .recalled ∨ (s.car b c).age = none ∨
        ∃ a, (s.car b c).age = some a ∧ (s.part.clock - a).toNat ≤ 10 * (s.bank b).contactTime) →
      exec (.contactTimer b c) s = .next s) := by
  intro old
  refine ⟨?_, fun other => exec_contactTimer_keeps ?_⟩
  · intro silent timed lost
    have ne : old ≠ .outOfContact := by rcases timed with e | e | e <;> rw [e] <;> exact fun h => nomatch h
    obtain ⟨v, set⟩ : ∃ v, v = s.setService b c .outOfContact := ⟨_, rfl⟩
    let report : Report :=
      { cls := .urgent, clock := s.part.clock, gap := false, body := .carService b c old .outOfContact }
    obtain ⟨t, ends⟩ : ∃ t, t = s.closesWith v (v.host.post report) := ⟨_, rfl⟩
    have reported : s.loseContact b c = v.setHost (v.host.post report) := by
      have cls : serviceClass old .outOfContact = .urgent := if_pos (.inr (.inl rfl))
      rw [State.loseContact, ← set, State.reportService_eq _ _ _ ne, cls, set, s.setService_part b c .outOfContact]
    have run : exec (.contactTimer b c) s = .next t := by
      rw [exec_contactTimer_lost running (Service.timed_iff.2 timed) (State.contactLost_iff.2 silent), reported, ends,
        State.closesWith]
    have car : ∀ h d, t.car h d = Car.closeGeneration (s.car h d) (v.car h d) := fun h d => by
      rw [ends, State.closesWith_car]
    have keeps : old ≠ .inService → v = lost := fun out => set.trans (State.setService_of_keeps fun loses => out loses.1)
    refine ⟨t, v, run, exec_changesOnly run, fun was => ?_, keeps, ?_, ?_, ?_, ?_, ?_, fun h d => ?_, ?_, ?_,
      fun h d other => ?_, fun enabled empty out => ?_⟩
    · have loses : s.loses b c .outOfContact := ⟨was, fun e => nomatch e⟩
      rw [set, State.setService_of_loses loses]
      exact State.loseCar_movesAll (s.withService b c .outOfContact) b c
    · rw [ends, State.closesWith_bookings]
    · rw [ends, State.closesWith_tickets]
    · rw [ends, State.closesWith_serial, set, State.setService_serial]
    · rw [ends, State.closesWith_ports]
    · rw [ends, State.closesWith_host]
    · rw [car]
      exact Car.closeGeneration_fields _ _
    · rw [car, Car.closeGeneration_service, set, State.setService_service]
    · rw [ends, State.closesWith_modes, set, State.setService_modes]
    · rw [car, Car.closeGeneration_service, set, s.setService_service_other _ _ _ other]
    · have same : v.host = s.host := by rw [keeps out]; rfl
      rw [ends, State.closesWith_host, same]
      exact HostPort.mem_choose (HostPort.mem_post (r := report) enabled (by rw [empty]; exact Nat.zero_lt_succ _))
  · rintro ⟨timed, silent⟩
    obtain ⟨a, age, late⟩ := State.contactLost_iff.1 silent
    rcases other with e | e | e | e | e | ⟨x, held, within⟩
    iterate 4 exact absurd timed (by rw [show (s.car b c).service = _ from e]; exact Bool.false_ne_true)
    · exact nomatch age.symm.trans e
    · obtain rfl := Option.some.inj (age.symm.trans held)
      omega

/-! ### Abandon timer (R97) -/

theorem exec_abandonTimer_effect (s : State) (running : s.part.state = .running) (ok : s.bookingsOk) :
    let gone : Booking → Bool := fun k =>
      k.state = .waiting && 10 * (s.bank k.bank).maxWait < (s.part.clock - k.created).toNat
    ∃ t, exec .abandonTimer s = .next t ∧ s.changesOnly [.ports, .disp, .lines, .host] t ∧
      t.disp.bookings = s.disp.bookings.filter (fun k => !gone k) ∧ t.disp.tickets = s.ticketsWithout gone ∧
      t.disp.serial = s.disp.serial ∧ t.disp.modes = s.disp.modes ∧
      (∀ q, t.port q = { s.port q with memory := s.memoryWithout gone q }) ∧
      t.host = (s.host.posts (s.cancelReports .abandoned gone)).choose ∧
      (∀ b c,
        t.car b c =
          { s.car b c with
            stops := (t.car b c).stops, planned := (t.car b c).planned, gen := (t.car b c).gen,
            confirmed := (t.car b c).confirmed } ∧
        ((∀ k ∈ s.disp.bookings, gone k = true → (k.bank, k.car) ≠ (b, c)) → t.car b c = s.car b c)) ∧
      (∀ b c, (t.car b c).service = (s.car b c).service) ∧
      ∀ p m, (t.port p).memory = some m → (s.port p).memory = some m := by
  intro gone
  obtain ⟨u, cancelled⟩ : ∃ u, u = s.cancelKind .abandoned gone := ⟨_, rfl⟩
  obtain ⟨t, ends⟩ : ∃ t, t = s.closesWith u u.host := ⟨_, rfl⟩
  have run : exec .abandonTimer s = .next t := by
    have opens : exec .abandonTimer s = .next (s.closeCars (s.cancelKind .abandoned gone)).choose :=
      if_pos (decide_eq_true running)
    rw [opens, ends, ← cancelled]
    rfl
  have waits : ∀ k ∈ serialOrder (s.disp.bookings.filter gone), k.state = .waiting := fun k hk => by
    rw [mem_serialOrder, List.mem_filter, Bool.and_eq_true, decide_eq_true_eq] at hk
    exact hk.2.1
  have lists : ∀ b c, (s.car b c).listOnly (u.car b c) := fun b c => by
    rw [cancelled]
    exact State.cancelAll_listOnly .abandoned waits s b c
  have car : ∀ b c, t.car b c = Car.closeGeneration (s.car b c) (u.car b c) := fun b c => by
    rw [ends, State.closesWith_car]
  have port : ∀ q, t.port q = { s.port q with memory := s.memoryWithout gone q } := fun q => by
    rw [← s.cancelKind_port .abandoned gone q, ← cancelled, ends, State.closesWith_port]
  refine ⟨t, run, exec_changesOnly run, ?_, ?_, ?_, ?_, port, ?_, fun b c => ⟨?_, fun off => ?_⟩, fun b c => ?_,
    fun p m held => ?_⟩
  · rw [← s.cancelKind_bookings .abandoned gone ok.1, ← cancelled, ends, State.closesWith_bookings]
  · rw [← s.cancelKind_tickets .abandoned gone, ← cancelled, ends, State.closesWith_tickets]
  · rw [← s.cancelKind_serial .abandoned gone, ← cancelled, ends, State.closesWith_serial]
  · rw [← s.cancelKind_modes .abandoned gone, ← cancelled, ends, State.closesWith_modes]
  · rw [← s.cancelKind_host .abandoned gone, ← cancelled, ends, State.closesWith_host]
  · rw [car, Car.closeGeneration_fields, lists b c]
  · rw [car, cancelled, s.cancelKind_other .abandoned gone off]
    exact Car.closeGeneration_self _
  · rw [car, Car.closeGeneration_service, (lists b c).service]
  · rw [port] at held
    exact (Option.filter_eq_some_iff.1 held).1

/-! ### Ticket expiry (R124) -/

theorem insertTicket_perm (x : Ticket) (xs : List Ticket) : (insertTicket x xs).Perm (x :: xs) := by
  induction xs with
  | nil => exact List.Perm.refl _
  | cons y ys ih =>
    unfold insertTicket
    split
    · exact List.Perm.refl _
    · exact (ih.cons y).trans (List.Perm.swap x y ys)

theorem badgeOrder_perm (xs : List Ticket) : (badgeOrder xs).Perm xs := by
  induction xs with
  | nil => exact List.Perm.refl _
  | cons x xs ih => exact (insertTicket_perm x _).trans (ih.cons x)

theorem insertTicket_sorted (x : Ticket) {xs : List Ticket} (sorted : xs.Pairwise fun a b => a.badge.toNat ≤ b.badge.toNat) :
    (insertTicket x xs).Pairwise fun a b => a.badge.toNat ≤ b.badge.toNat := by
  induction xs with
  | nil => exact List.pairwise_singleton _ _
  | cons y ys ih =>
    obtain ⟨first, rest⟩ := List.pairwise_cons.1 sorted
    unfold insertTicket
    split
    next le =>
      refine List.pairwise_cons.2 ⟨fun z hz => ?_, sorted⟩
      rcases List.mem_cons.1 hz with rfl | hz
      · exact le
      · exact Nat.le_trans le (first z hz)
    next gt =>
      refine List.pairwise_cons.2 ⟨fun z hz => ?_, ih rest⟩
      rcases List.mem_cons.1 ((insertTicket_perm x ys).mem_iff.1 hz) with rfl | hz
      · exact Nat.le_of_not_le gt
      · exact first z hz

theorem badgeOrder_sorted (xs : List Ticket) : (badgeOrder xs).Pairwise fun a b => a.badge.toNat ≤ b.badge.toNat := by
  induction xs with
  | nil => exact List.Pairwise.nil
  | cons x xs ih => exact insertTicket_sorted x ih

/-- R173: ROUTINE reports of enabled kinds join in order while there is room. -/
theorem HostPort.posts_of_room {rs : List Report} (routine : ∀ r ∈ rs, r.cls = .routine) (h : HostPort)
    (enabled : ∀ r ∈ rs, h.enables.getLsbD r.body.kind = true) (room : h.queue.length + rs.length ≤ 32) :
    h.posts rs = { h with queue := h.queue ++ rs } := by
  induction rs generalizing h with
  | nil => rw [List.append_nil]; rfl
  | cons r rs ih =>
    obtain ⟨first, rest⟩ := List.forall_mem_cons.1 routine
    obtain ⟨on, ons⟩ := List.forall_mem_cons.1 enabled
    rw [List.length_cons] at room
    rw [HostPort.posts_cons, HostPort.post_of_room on (by omega), HostPort.join_of_keeps (.inl first)]
    have joined := ih rest { h with queue := h.queue ++ [r] } ons
      (by simp only [List.length_append, List.length_singleton]; omega)
    rw [joined]
    simp only [List.append_assoc, List.singleton_append]

theorem State.reportExpiries (s : State) (xs : List Ticket) :
    xs.foldl State.reportExpiry s = s.setHost (s.host.posts (xs.map fun x =>
      { cls := .routine, clock := s.part.clock, body := .ticketExpired x.badge x.transfer x.dest x.firstLeg,
        gap := false })) := by
  induction xs generalizing s with
  | nil => rfl
  | cons x xs ih =>
    rw [List.foldl_cons, ih, List.map_cons, HostPort.posts_cons]
    rfl

theorem exec_ticketExpiry_effect (s : State) (running : s.part.state = .running) :
     ∃ t, exec .ticketExpiry s = .next t ∧ s.changesOnly [.disp, .host] t ∧
       t.disp = { s.disp with
         tickets := s.disp.tickets.filter fun x => 2147483648 ≤ (s.part.clock - x.expiry).toNat } ∧
       (s.host.enables.getLsbD 9 = true → s.host.tx ≠ .free →
         s.host.queue.length +
            (s.disp.tickets.filter fun x => (s.part.clock - x.expiry).toNat < 2147483648).length ≤ 32 →
         ∃ gone : List Ticket, gone.Pairwise (fun x y => x.badge.toNat ≤ y.badge.toNat) ∧
           gone.Perm (s.disp.tickets.filter fun x => (s.part.clock - x.expiry).toNat < 2147483648) ∧
           t.host.queue = s.host.queue ++ gone.map fun x =>
             { cls := .routine, clock := s.part.clock, body := .ticketExpired x.badge x.transfer x.dest x.firstLeg,
               gap := false }) := by
  let stay : List Ticket := s.disp.tickets.filter fun t => !s.expired t
  have stays : stay = s.disp.tickets.filter fun x => 2147483648 ≤ (s.part.clock - x.expiry).toNat :=
    List.filter_congr fun x _ => by
      rw [State.expired, ← decide_not]
      exact decide_eq_decide.2 Nat.not_lt
  let gone : List Ticket := badgeOrder (s.disp.tickets.filter s.expired)
  let reports : List Report := gone.map fun x =>
    { cls := .routine, clock := s.part.clock, body := .ticketExpired x.badge x.transfer x.dest x.firstLeg, gap := false }
  have run : exec .ticketExpiry s =
      .next ((s.setTickets stay).setHost (s.host.posts reports).choose) := by
    have opens : exec .ticketExpiry s = .next (gone.foldl State.reportExpiry (s.setTickets stay)).choose :=
      if_pos (decide_eq_true running)
    rw [opens, State.reportExpiries]
    rfl
  refine ⟨_, run, exec_changesOnly run, ?_, fun enabled busy room => ?_⟩
  · rw [← stays]
    rfl
  · have perm : gone.Perm (s.disp.tickets.filter fun x => (s.part.clock - x.expiry).toNat < 2147483648) :=
      badgeOrder_perm _
    have routine : ∀ r ∈ reports, r.cls = .routine := fun r hr => by
      obtain ⟨x, -, rfl⟩ := List.mem_map.1 hr
      rfl
    have on : ∀ r ∈ reports, s.host.enables.getLsbD r.body.kind = true := fun r hr => by
      obtain ⟨x, -, rfl⟩ := List.mem_map.1 hr
      exact enabled
    have few : s.host.queue.length + reports.length ≤ 32 := by
      rw [List.length_map, perm.length_eq]
      exact room
    refine ⟨gone, badgeOrder_sorted _, perm, ?_⟩
    show ((s.host.posts reports).choose).queue = s.host.queue ++ reports
    rw [HostPort.posts_of_room routine _ on few]
    exact congrArg HostPort.queue
      (HostPort.choose_of_ne (h := { s.host with queue := s.host.queue ++ reports }) busy)

/-! ### A due second advance (R35, R38) -/

theorem weekdayType_of_le {w : Fin 7} (h : w.val ≤ 4) : weekdayType w = .workday := if_pos h

theorem weekdayType_saturday {w : Fin 7} (h : w.val = 5) : weekdayType w = .saturday := by
  rw [weekdayType, if_neg (by omega), if_pos h]

theorem weekdayType_sunday {w : Fin 7} (h : w.val = 6) : weekdayType w = .sunday := by
  rw [weekdayType, if_neg (by omega), if_neg (by omega)]

section
variable (c : Calendar)

theorem Calendar.advance_within {x : Fin 60} (next : c.second.val + 1 = x.val) :
    c.advance = { c with second := x, lastAdvance := c.lastAdvance + 10 } := by
  have second : c.second + 1 = x := Fin.ext (by rw [Fin.val_add, Fin.val_one]; omega)
  rw [Calendar.advance, Calendar.nextSecond, if_neg (by omega), second]

theorem Calendar.advance_minute {m : Fin 1440} (last : c.second = 59) (next : c.minute.val + 1 = m.val) :
    c.advance = { c with second := 0, minute := m, lastAdvance := c.lastAdvance + 10 } := by
  have minute : c.minute + 1 = m := Fin.ext (by rw [Fin.val_add, Fin.val_one]; omega)
  rw [Calendar.advance, Calendar.nextSecond, if_pos (by rw [last]; rfl), if_neg (by omega), minute]

theorem Calendar.advance_day (isSet : c.isSet = true) (second : c.second = 59) (minute : c.minute = 1439) :
    c.advance =
      { isSet := true, second := 0, minute := 0, day := BitVec.ofNat 16 (c.day.toNat + 1),
        weekday := ⟨(c.weekday.val + 1) % 7, Nat.mod_lt _ (by decide)⟩,
        dayType := c.pendingType.getD (weekdayType ⟨(c.weekday.val + 1) % 7, Nat.mod_lt _ (by decide)⟩),
        pendingType := none, lastAdvance := c.lastAdvance + 10 } := by
  have weekday : c.weekday + 1 = ⟨(c.weekday.val + 1) % 7, Nat.mod_lt _ (by decide)⟩ := Fin.ext (Fin.val_add _ _)
  have day : c.day + 1 = BitVec.ofNat 16 (c.day.toNat + 1) := BitVec.eq_of_toNat_eq (by simp [BitVec.toNat_add])
  rw [Calendar.advance, Calendar.nextSecond, if_pos (by rw [second]; rfl), if_pos (by rw [minute]; rfl),
    Calendar.rollover, weekday, day, isSet]

end

/-- Settles O47: each timer by what it takes out and posts, and the advance by where the calendar stands. -/
theorem clockEventsTakeTheirEffects : Obligations.ClockEventsTakeTheirEffects := by
  refine ⟨exec_contactTimer_effect, exec_abandonTimer_effect, exec_ticketExpiry_effect, ?_⟩
  intro s c
  refine ⟨fun unset => ?_, fun isSet late => ?_⟩
  · refine exec_calendarSecondAdvance_early fun due => ?_
    obtain ⟨on, -⟩ := Calendar.due_iff.1 due
    exact Bool.noConfusion (on.symm.trans unset)
  · have run := exec_calendarSecondAdvance_due (Calendar.due_iff.2 ⟨isSet, late⟩)
    refine ⟨fun x next => ?_, fun m last next => ?_, fun second minute => ?_⟩
    · rw [run, Calendar.advance_within _ next]
    · rw [run, Calendar.advance_minute _ last next]
    · refine ⟨_, by rw [run, Calendar.advance_day _ isSet second minute], fun p pending => ?_,
        fun none => ⟨fun h => ?_, fun h => ?_, fun h => ?_⟩⟩
      · rw [pending]
        rfl
      all_goals rw [none, Option.getD_none]
      · exact weekdayType_of_le h
      · exact weekdayType_saturday h
      · exact weekdayType_sunday h

end Sys2Proof.Machine
end

section
/-! SUPPORT. The stages of the one STATUS event (R89 to R95): the fields, the service state with the moves of R98, the
floor served, the car calls and the enabled set. -/

namespace Sys2Proof.Machine

/-! ### Stages 1 to 3: the car's own fields (R89, R82, R90, R145) -/

/-- R89, R90: the car after the fields, the sorting and the confirmation. -/
def State.reported (s : State) (b : Bank) (c : CarNo) (kind : CommandKind) (st : Status) : Car :=
  (Car.resortFrom (s.car b c) ((s.car b c).takeFields s.now st)).confirm kind st

/-- R91: the service state a STATUS gives the car. -/
def State.serviceGiven (s : State) (b : Bank) (c : CarNo) (kind : CommandKind) (st : Status) : Service :=
  serviceByStatus (s.mode b) (s.car b c).service ((s.bank b).withdrawn.has c) (s.reported b c kind st).stale st.carMode

section
variable (old new : Car)

theorem Car.sorted_fields : new.sorted = { new with stops := new.sorted.stops } := rfl

theorem Car.resortFrom_fields : Car.resortFrom old new = { new with stops := (Car.resortFrom old new).stops } := by
  unfold Car.resortFrom
  split <;> rfl

theorem Car.resortFrom_perm : (Car.resortFrom old new).stops.Perm new.stops := by
  unfold Car.resortFrom
  split
  · exact List.Perm.refl _
  · exact sortStops_perm _ _ _

end

section
variable (c : Car) (kind : CommandKind) (st : Status)

/-- R90, R145: confirmation touches two fields. -/
theorem Car.confirm_eq :
    c.confirm kind st =
      { c with
        confirmed := if st.accepted = some c.gen then some c.gen else c.confirmed,
        recallDue := if kind = .recallCar ∧ st.carMode = .fire then false else c.recallDue } := by
  unfold Car.confirm
  by_cases accepted : st.accepted = some c.gen <;> by_cases fire : kind = .recallCar ∧ st.carMode = .fire <;>
    simp [accepted, fire]

/-- R89: the fields are the status, its age and the stale count. -/
theorem Car.takeFields_eq (now : Clock) :
    c.takeFields now st =
      { c with age := some now, status := (c.takeFields now st).status, stale := (c.takeFields now st).stale } := by
  unfold Car.takeFields
  split <;> rfl

end

section
variable (s : State) (b : Bank) (c : CarNo) (kind : CommandKind) (st : Status)

/-- What stages 1 to 3 leave of the car: service state, generation, planned direction, enabled set and FULL flag stay. -/
theorem State.reported_eq :
    s.reported b c kind st =
      { s.car b c with
        age := some s.now, status := ((s.car b c).takeFields s.now st).status,
        stale := ((s.car b c).takeFields s.now st).stale, stops := (s.reported b c kind st).stops,
        confirmed := if st.accepted = some (s.car b c).gen then some (s.car b c).gen else (s.car b c).confirmed,
        recallDue := if kind = .recallCar ∧ st.carMode = .fire then false else (s.car b c).recallDue } := by
  unfold State.reported
  rw [Car.confirm_eq, Car.resortFrom_fields, Car.takeFields_eq]

theorem State.reported_stops_perm : (s.reported b c kind st).stops.Perm (s.car b c).stops := by
  have stops : ((s.car b c).takeFields s.now st).stops = (s.car b c).stops := by rw [Car.takeFields_eq]
  unfold State.reported
  rw [Car.confirm_eq]
  exact stops ▸ Car.resortFrom_perm _ _

theorem State.reported_service : (s.reported b c kind st).service = (s.car b c).service := by rw [State.reported_eq]

theorem State.reported_gen : (s.reported b c kind st).gen = (s.car b c).gen := by rw [State.reported_eq]

theorem State.reported_enabled : (s.reported b c kind st).enabled = (s.car b c).enabled := by rw [State.reported_eq]

theorem State.reported_full : (s.reported b c kind st).full = (s.car b c).full := by rw [State.reported_eq]

theorem State.reported_callKeys_perm : (s.reported b c kind st).callKeys.Perm (s.car b c).callKeys :=
  ((s.reported_stops_perm b c kind st).filter _).map _

theorem State.reported_keys_perm : (s.reported b c kind st).keys.Perm (s.car b c).keys :=
  (s.reported_stops_perm b c kind st).map _

end

/-! ### Stage 4: the service state, with the moves of R98 -/

/-- The car in the service state of R91. -/
def State.shifted (s : State) (b : Bank) (c : CarNo) (kind : CommandKind) (st : Status) : Car :=
  { s.reported b c kind st with service := s.serviceGiven b c kind st }

/-- The state after the service state and the moves. -/
def State.moved (s : State) (b : Bank) (c : CarNo) (kind : CommandKind) (st : Status) : State :=
  (s.setCar b c (s.reported b c kind st)).setService b c (s.serviceGiven b c kind st)

/-- R98: the STATUS takes the car out of IN_SERVICE. -/
def State.leavesBy (s : State) (b : Bank) (c : CarNo) (kind : CommandKind) (st : Status) : Prop :=
  (s.car b c).service = .inService ∧ s.serviceGiven b c kind st ≠ .inService

section
variable (s : State) (b : Bank) (c : CarNo) (kind : CommandKind) (st : Status)

theorem State.withService_reported :
    (s.setCar b c (s.reported b c kind st)).withService b c (s.serviceGiven b c kind st) =
      s.setCar b c (s.shifted b c kind st) := by
  rw [State.withService, State.setCar_setCar, State.car_setCar_self]
  rfl

theorem State.loses_reported :
    (s.setCar b c (s.reported b c kind st)).loses b c (s.serviceGiven b c kind st) ↔ s.leavesBy b c kind st := by
  rw [State.loses, State.car_setCar_self, State.reported_service]
  exact Iff.rfl

theorem State.moved_of_leaves (leaves : s.leavesBy b c kind st) :
    s.moved b c kind st = (s.setCar b c (s.shifted b c kind st)).loseCar b c := by
  rw [State.moved, State.setService_of_loses ((s.loses_reported b c kind st).2 leaves), State.withService_reported]

theorem State.moved_of_stays (stays : ¬ s.leavesBy b c kind st) :
    s.moved b c kind st = s.setCar b c (s.shifted b c kind st) := by
  rw [State.moved, State.setService_of_keeps fun h => stays ((s.loses_reported b c kind st).1 h),
    State.withService_reported]

/-- Up to lists, the cars after the moves are those before. -/
theorem State.moved_listOnly (h : Bank) (d : CarNo) :
    ((s.setCar b c (s.shifted b c kind st)).car h d).listOnly ((s.moved b c kind st).car h d) := by
  rw [← State.withService_reported]
  exact State.setService_listOnly _ b c _ h d

theorem State.moved_listOnly_self : (s.shifted b c kind st).listOnly ((s.moved b c kind st).car b c) := by
  have lists := s.moved_listOnly b c kind st b c
  rwa [State.car_setCar_self] at lists

theorem State.moved_listOnly_other {h : Bank} {d : CarNo} (ne : (h, d) ≠ (b, c)) :
    (s.car h d).listOnly ((s.moved b c kind st).car h d) := by
  have lists := s.moved_listOnly b c kind st h d
  rwa [State.car_setCar_ne _ _ _ _ _ _ ne.symm] at lists

theorem State.moved_modes : (s.moved b c kind st).disp.modes = s.disp.modes := State.setService_modes _ b c _

theorem State.moved_serial : (s.moved b c kind st).disp.serial = s.disp.serial := State.setService_serial _ b c _

theorem State.moved_policy : (s.moved b c kind st).policy = s.policy := State.setService_policy _ b c _

theorem State.moved_part : (s.moved b c kind st).part = s.part := State.setService_part _ b c _

end

/-! ### Stages 5 to 7: the FULL flag, the floor served, the car calls -/

/-- R92: the FULL flag taken. -/
def State.flagged (s : State) (b : Bank) (c : CarNo) (threshold load : Nat) : State :=
  s.setCar b c { s.car b c with full := fullFlag threshold load (s.car b c).full }

/-- R93: the floor served, if the STATUS serves it. -/
def State.attended (s : State) (b : Bank) (c : CarNo) (st : Status) (new : Service) : State :=
  if servesNow st new then s.serveFloor b c st else s

/-- R94: the car calls of a FRESH report taken. -/
def State.called (s : State) (b : Bank) (c : CarNo) (st : Status) : State :=
  if st.fresh then s.takeCalls b c st.position [] st.calls else s

/-- R92 to R94: what stages 5 to 7 leave. -/
def State.attends (s : State) (b : Bank) (c : CarNo) (kind : CommandKind) (st : Status) : State :=
  (((s.moved b c kind st).flagged b c (s.bank b).fullThreshold st.load).attended b c st (s.serviceGiven b c kind st)).called
    b c st

theorem State.statusEvent_eq (s : State) (b : Bank) (c : CarNo) (kind : CommandKind) (st : Status) :
    s.statusEvent b c kind st =
      ((s.attends b c kind st).formEnabled b c).reportService b c (s.car b c).service (s.serviceGiven b c kind st) := rfl

/-- Bookings, tickets, memories and one car's list alone change. -/
structure State.listsCar (s t : State) (b : Bank) (c : CarNo) : Prop where
  only : s.changesOnly [.ports, .disp] t
  modes : t.disp.modes = s.disp.modes
  serial : t.disp.serial = s.disp.serial
  car : (s.car b c).listOnly (t.car b c)
  other : ∀ h d, (h, d) ≠ (b, c) → t.car h d = s.car h d

section
variable {s t u : State} {b : Bank} {c : CarNo}

theorem State.listsCar.refl (s : State) (b : Bank) (c : CarNo) : s.listsCar s b c := ⟨.refl _ _, rfl, rfl, rfl, fun _ _ _ => rfl⟩

theorem State.listsCar.trans (h : s.listsCar t b c) (k : t.listsCar u b c) : s.listsCar u b c :=
  ⟨.trans h.only k.only, k.modes.trans h.modes, k.serial.trans h.serial, h.car.trans k.car,
    fun x d ne => (k.other x d ne).trans (h.other x d ne)⟩

theorem State.listsCar.host (h : s.listsCar t b c) : t.host = s.host := h.only .host (by decide)

theorem State.listsCar.policy (h : s.listsCar t b c) : t.policy = s.policy := h.only .policy (by decide)

theorem State.listsCar.part (h : s.listsCar t b c) : t.part = s.part := h.only .part (by decide)

theorem State.resync_listsCar (s : State) (b : Bank) (c : CarNo) (calls : List Key) : s.listsCar (s.resync b c calls) b c := by
  refine ⟨.step (State.setCar_only _ _ _ _) (.refl _ _), rfl, rfl, ?_, fun h d ne => State.resync_other _ ne _⟩
  rw [State.resync_self]
  exact Car.resync_listOnly _ _ _

end

/-! ### The floor served (R93, R86) -/

section
variable (ks : List Booking)

theorem State.bookingDone_tickets (s : State) (k : Booking) :
    (s.bookingDone k).disp.tickets =
      s.disp.tickets.map fun y => if k.leads y = true then { y with firstLeg := none } else y := by
  unfold State.bookingDone State.clearFirstLeg
  split
  next first =>
    show s.disp.tickets.map _ = _
    congr 1
    funext y
    refine if_congr ?_ rfl rfl
    rw [Booking.leads, Bool.and_eq_true, Bool.and_eq_true, decide_eq_true_eq, decide_eq_true_eq, decide_eq_true_eq]
    exact ⟨fun h => ⟨⟨first, h.1.symm⟩, h.2⟩, fun h => ⟨h.1.2.symm, h.2⟩⟩
  next other =>
    have same : (fun y : Ticket => if k.leads y = true then { y with firstLeg := none } else y) = id := by
      funext y
      rw [Booking.not_leads other, if_neg Bool.false_ne_true]
      rfl
    rw [same, List.map_id]
    rfl

theorem State.bookingDone_bookings (s : State) (k : Booking) :
    (s.bookingDone k).disp.bookings = s.disp.bookings.filter fun x => x.id ≠ k.id := by
  unfold State.bookingDone State.clearFirstLeg
  split <;> rfl

theorem State.bookingDone_car (s : State) (k : Booking) (b : Bank) (c : CarNo) : (s.bookingDone k).car b c = s.car b c := by
  unfold State.bookingDone State.clearFirstLeg
  split <;> rfl

theorem State.bookingsDone_bookings (s : State) :
    (ks.foldl State.bookingDone s).disp.bookings = s.disp.bookings.filter fun x => ks.all fun k => x.id ≠ k.id := by
  induction ks generalizing s with
  | nil => exact (List.filter_eq_self.2 fun _ _ => rfl).symm
  | cons k ks ih =>
    rw [List.foldl_cons, ih, State.bookingDone_bookings, List.filter_filter]
    congr 1
    funext x
    rw [List.all_cons, Bool.and_comm]

theorem Ticket.forgets_twice (y : Ticket) (k : Booking) :
    (if (ks.any fun j => j.leads (if k.leads y = true then { y with firstLeg := none } else y)) = true then
      { (if k.leads y = true then { y with firstLeg := none } else y : Ticket) with firstLeg := none }
    else (if k.leads y = true then { y with firstLeg := none } else y : Ticket)) =
      if ((k :: ks).any fun j => j.leads y) = true then { y with firstLeg := none } else y := by
  by_cases first : k.leads y = true
  · simp only [first, if_true, List.any_cons, Bool.true_or]
    split <;> rfl
  · simp only [first, List.any_cons, Bool.false_or, if_false, Bool.false_eq_true]

theorem State.bookingsDone_tickets (s : State) :
    (ks.foldl State.bookingDone s).disp.tickets =
      s.disp.tickets.map fun y => if (ks.any fun k => k.leads y) = true then { y with firstLeg := none } else y := by
  induction ks generalizing s with
  | nil => exact (List.map_id _).symm
  | cons k ks ih =>
    rw [List.foldl_cons, ih, State.bookingDone_tickets, List.map_map]
    congr 1
    funext y
    exact Ticket.forgets_twice ks y k

theorem State.bookingsDone_car (s : State) (b : Bank) (c : CarNo) :
    (ks.foldl State.bookingDone s).car b c = s.car b c := by
  induction ks generalizing s with
  | nil => rfl
  | cons k ks ih => exact (ih _).trans (s.bookingDone_car k b c)

theorem State.bookingsDone_only (s : State) : s.changesOnly [.disp] (ks.foldl State.bookingDone s) :=
  .foldl (fun _ _ h => .step (State.bookingDone_only _ _) h) (.refl _ _)

theorem State.bookingsDone_modes (s : State) : (ks.foldl State.bookingDone s).disp.modes = s.disp.modes := by
  induction ks generalizing s with
  | nil => rfl
  | cons k ks ih =>
    refine (ih _).trans ?_
    unfold State.bookingDone State.clearFirstLeg
    split <;> rfl

theorem State.bookingsDone_serial (s : State) : (ks.foldl State.bookingDone s).disp.serial = s.disp.serial := by
  induction ks generalizing s with
  | nil => rfl
  | cons k ks ih =>
    refine (ih _).trans ?_
    unfold State.bookingDone State.clearFirstLeg
    split <;> rfl

end

section
variable (ks : List Booking)

/-- R93: a booking that is among those named boards. -/
def Booking.aboard (k : Booking) : Booking := if ks.any (fun j => k.id = j.id) then { k with state := .riding } else k

/-- R53: a memory of the booking at its port. -/
def Booking.knownTo (k : Booking) (q : PortNo) (m : GrantMemory) : Bool := k.port = q && k.id = m.booking

/-- R93, R53: the memory of a boarding booking goes. -/
theorem State.board_port (s : State) (k : Booking) (q : PortNo) :
    (s.board k).port q =
      { s.port q with memory := (s.port q).memory.filter fun m => !k.knownTo q m } := by
  show (State.announceLeft _ k.port k.id).port q = _
  by_cases same : k.port = q
  · subst same
    rw [State.announceLeft, State.port_setPort_self, Port.bookingLeft_eq]
    simp only [Booking.knownTo, decide_true, Bool.true_and]
    rfl
  · rw [State.announceLeft, State.port_setPort_ne _ _ _ _ same]
    exact ((s.port q).filter_all fun m => by simp [Booking.knownTo, same]).symm

theorem State.boards_bookings (s : State) :
    (ks.foldl State.board s).disp.bookings = s.disp.bookings.map (Booking.aboard ks) := by
  induction ks generalizing s with
  | nil => exact (List.map_id _).symm
  | cons k ks ih =>
    rw [List.foldl_cons, ih]
    show (s.disp.bookings.map _).map _ = _
    rw [List.map_map]
    refine List.map_congr_left fun x _ => ?_
    show Booking.aboard ks (if x.id = k.id then { x with state := .riding } else x) = Booking.aboard (k :: ks) x
    unfold Booking.aboard
    by_cases own : x.id = k.id
    · simp only [own, if_true, List.any_cons, decide_true, Bool.true_or]
      split <;> rfl
    · simp only [own, if_false, List.any_cons, decide_false, Bool.false_or]

theorem State.boards_port (s : State) (q : PortNo) :
    (ks.foldl State.board s).port q =
      { s.port q with memory := (s.port q).memory.filter fun m => !ks.any fun k => k.knownTo q m } := by
  induction ks generalizing s with
  | nil => exact ((s.port q).filter_all fun _ => rfl).symm
  | cons k ks ih =>
    rw [List.foldl_cons, ih, State.board_port]
    have both : ((s.port q).memory.filter fun m => !k.knownTo q m).filter
        (fun m => !ks.any fun j => j.knownTo q m) =
        (s.port q).memory.filter fun m => !(k :: ks).any fun j => j.knownTo q m := by
      cases (s.port q).memory with
      | none => rfl
      | some m => cases hk : k.knownTo q m <;> simp [Option.filter, hk]
    simp only [both]

theorem State.boards_only (s : State) : s.changesOnly [.ports, .disp] (ks.foldl State.board s) :=
  .foldl (fun _ _ h => .step (State.announceLeft_only _ _ _) (.step (State.setBookings_only _ _) h)) (.refl _ _)

theorem State.boards_disp (s : State) :
    (ks.foldl State.board s).disp = { s.disp with bookings := (ks.foldl State.board s).disp.bookings } := by
  induction ks generalizing s with
  | nil => rfl
  | cons k ks ih =>
    rw [List.foldl_cons, ih]
    rfl

end

/-! ### What the floor served leaves -/

/-- R86: a RIDING booking of the car for the floor. -/
def Booking.doneAt (b : Bank) (c : CarNo) (st : Status) (k : Booking) : Bool :=
  k.bank = b && k.car = c && k.state = .riding && k.dest = st.position

/-- R93: a WAITING booking of the car from the floor in the reported direction, or in either when none is reported. -/
def Booking.boardsAt (b : Bank) (c : CarNo) (st : Status) (k : Booking) : Bool :=
  k.bank = b && k.car = c && k.state = .waiting && k.origin = st.position &&
    (st.direction = none || st.direction = some k.dir)

/-- R93: the RIDING bookings for the floor, in serial order. -/
def State.riders (s : State) (b : Bank) (c : CarNo) (st : Status) : List Booking :=
  serialOrder ((s.carBookings b c).filter fun k => k.state = .riding ∧ k.dest = st.position)

/-- R93: the bookings that board, in serial order. -/
def State.boarders (s : State) (b : Bank) (c : CarNo) (st : Status) : List Booking :=
  (s.waitingOn b c).filter fun k => k.origin = st.position ∧ (st.direction = none ∨ st.direction = some k.dir)

/-- The state once the RIDING bookings for the floor are done. -/
def State.ridesDone (s : State) (b : Bank) (c : CarNo) (st : Status) : State := (s.riders b c st).foldl State.bookingDone s

/-- The state once the others have boarded. -/
def State.boarded (s : State) (b : Bank) (c : CarNo) (st : Status) : State :=
  ((s.ridesDone b c st).boarders b c st).foldl State.board (s.ridesDone b c st)

theorem State.serveFloor_eq (s : State) (b : Bank) (c : CarNo) (st : Status) :
    s.serveFloor b c st =
      (s.boarded b c st).resync b c (((s.ridesDone b c st).car b c).callKeys.filter fun k => k.floor ≠ st.position) := rfl

section
variable {s : State} {b : Bank} {c : CarNo} {st : Status}

theorem State.mem_riders {k : Booking} : k ∈ s.riders b c st ↔ k ∈ s.disp.bookings ∧ k.doneAt b c st = true := by
  simp only [State.riders, mem_serialOrder, List.mem_filter, State.carBookings, decide_eq_true_eq, Booking.doneAt,
    Bool.and_eq_true, and_assoc]

theorem State.mem_boarders {k : Booking} : k ∈ s.boarders b c st ↔ k ∈ s.disp.bookings ∧ k.boardsAt b c st = true := by
  simp only [State.boarders, List.mem_filter, State.mem_waitingOn, decide_eq_true_eq, Booking.boardsAt, Bool.and_eq_true,
    Bool.or_eq_true, and_assoc]

theorem Booking.not_boardsAt {k : Booking} (done : k.doneAt b c st = true) : k.boardsAt b c st = false := by
  simp only [Booking.doneAt, Bool.and_eq_true, decide_eq_true_eq] at done
  simp [Booking.boardsAt, done]

section
variable (once : (s.disp.bookings.map fun k => k.id).Nodup)
include once

theorem State.ridesDone_bookings :
    (s.ridesDone b c st).disp.bookings = s.disp.bookings.filter fun k => !k.doneAt b c st := by
  rw [State.ridesDone, State.bookingsDone_bookings]
  refine List.filter_congr fun j hj => ?_
  rw [Bool.eq_iff_iff, List.all_eq_true, Bool.not_eq_true']
  simp only [State.mem_riders, decide_eq_true_eq]
  constructor
  · intro other
    by_contra left
    exact other j ⟨hj, Bool.eq_true_of_not_eq_false left⟩ rfl
  · rintro stays k ⟨hk, leaves⟩ same
    rw [List.inj_on_of_nodup_map once hj hk same, leaves] at stays
    cases stays

theorem State.mem_boarders_ridesDone {k : Booking} :
    k ∈ (s.ridesDone b c st).boarders b c st ↔ k ∈ s.disp.bookings ∧ k.boardsAt b c st = true := by
  rw [State.mem_boarders, State.ridesDone_bookings once, List.mem_filter, Bool.not_eq_true', and_assoc]
  refine and_congr_right fun _ => and_iff_right_of_imp fun boards => ?_
  rw [← Bool.not_eq_true]
  intro done
  rw [Booking.not_boardsAt done] at boards
  cases boards

theorem State.boarded_bookings :
    (s.boarded b c st).disp.bookings =
      (s.disp.bookings.filter fun k => !k.doneAt b c st).map fun k =>
        if k.boardsAt b c st = true then { k with state := .riding } else k := by
  rw [State.boarded, State.boards_bookings, State.ridesDone_bookings once]
  refine List.map_congr_left fun j hj => ?_
  obtain ⟨hj, -⟩ := List.mem_filter.1 hj
  refine if_congr ?_ rfl rfl
  rw [List.any_eq_true]
  simp only [State.mem_boarders_ridesDone once, decide_eq_true_eq]
  constructor
  · rintro ⟨k, ⟨hk, boards⟩, same⟩
    rwa [List.inj_on_of_nodup_map once hj hk same]
  · exact fun boards => ⟨j, ⟨hj, boards⟩, rfl⟩

theorem State.boarded_memory (q : PortNo) (m : GrantMemory) :
    ((s.boarded b c st).port q).memory = some m ↔ (s.port q).memory = some m ∧
      ∀ k ∈ s.disp.bookings, k.boardsAt b c st = true → k.port = q → k.id ≠ m.booking := by
  have same : (s.ridesDone b c st).port q = s.port q :=
    congrArg (·.get q) (State.bookingsDone_only _ s .ports (by decide))
  rw [State.boarded, State.boards_port, same]
  simp only [Option.filter_eq_some_iff, Bool.not_eq_true', List.any_eq_false, State.mem_boarders_ridesDone once,
    Booking.knownTo, Bool.and_eq_true, decide_eq_true_eq, not_and, and_imp]

end

theorem State.boarded_tickets :
    (s.boarded b c st).disp.tickets =
      s.disp.tickets.map fun y =>
        if (s.disp.bookings.any fun k => k.doneAt b c st && k.leads y) = true then { y with firstLeg := none } else y := by
  rw [State.boarded, State.boards_disp]
  show (s.ridesDone b c st).disp.tickets = _
  rw [State.ridesDone, State.bookingsDone_tickets]
  refine List.map_congr_left fun y _ => if_congr ?_ rfl rfl
  rw [List.any_eq_true, List.any_eq_true]
  simp only [State.mem_riders, Bool.and_eq_true, and_assoc]

theorem State.boarded_car (h : Bank) (d : CarNo) : (s.boarded b c st).car h d = s.car h d := by
  unfold State.car
  rw [State.boarded, State.boards_disp]
  exact State.bookingsDone_car _ s h d

theorem State.boarded_listsCar : s.listsCar (s.boarded b c st) b c := by
  have disp := State.boards_disp ((s.ridesDone b c st).boarders b c st) (s.ridesDone b c st)
  refine ⟨.trans ((State.bookingsDone_only _ s).mono (by decide)) (State.boards_only _ _), ?_, ?_, ?_, fun h d _ => ?_⟩
  · rw [State.boarded, disp]
    exact State.bookingsDone_modes _ s
  · rw [State.boarded, disp]
    exact State.bookingsDone_serial _ s
  · rw [State.boarded_car]
    rfl
  · exact State.boarded_car h d

theorem State.serveFloor_listsCar : s.listsCar (s.serveFloor b c st) b c := by
  rw [State.serveFloor_eq]
  exact State.boarded_listsCar.trans (State.resync_listsCar _ _ _ _)

end

/-! ### Car calls (R94) -/

section
variable (b : Bank) (c : CarNo)

theorem State.takeCall_listsCar (s : State) (k : Key) : s.listsCar (s.takeCall b c k) b c := by
  unfold State.takeCall
  simp only
  split
  · exact s.resync_listsCar b c _
  · exact .refl s b c

theorem State.takeCalls_listsCar (p : Floor) (fs seen : List Floor) (s : State) :
    s.listsCar (s.takeCalls b c p seen fs) b c := by
  induction fs generalizing seen s with
  | nil => exact .refl s b c
  | cons f fs ih =>
    unfold State.takeCalls
    split
    · exact ih seen s
    · exact (s.takeCall_listsCar b c _).trans (ih _ _)

theorem State.takeCall_tables (s : State) (k : Key) :
    (s.takeCall b c k).disp.bookings = s.disp.bookings ∧ (s.takeCall b c k).disp.tickets = s.disp.tickets ∧
      (s.takeCall b c k).ports = s.ports := by
  unfold State.takeCall
  simp only
  split <;> exact ⟨rfl, rfl, rfl⟩

theorem State.takeCalls_tables (p : Floor) (fs seen : List Floor) (s : State) :
    (s.takeCalls b c p seen fs).disp.bookings = s.disp.bookings ∧
      (s.takeCalls b c p seen fs).disp.tickets = s.disp.tickets ∧ (s.takeCalls b c p seen fs).ports = s.ports := by
  induction fs generalizing seen s with
  | nil => exact ⟨rfl, rfl, rfl⟩
  | cons f fs ih =>
    unfold State.takeCalls
    split
    · exact ih seen s
    · obtain ⟨bookings, tickets, ports⟩ := ih (f :: seen) (s.takeCall b c { floor := f, dir := dirOf p f })
      obtain ⟨bookings', tickets', ports'⟩ := s.takeCall_tables b c { floor := f, dir := dirOf p f }
      exact ⟨bookings.trans bookings', tickets.trans tickets', ports.trans ports'⟩

end

end Sys2Proof.Machine
end

section
/-! SUPPORT. The events that change the tables, one for each command that has one (R83): what a command leaves is what
its event leaves, closed. -/

namespace Sys2Proof.Machine

/-- The working copies, bookings, modes and cars stay. -/
structure State.calm (s t : State) : Prop where
  policy : t.policy = s.policy
  bookings : t.disp.bookings = s.disp.bookings
  modes : t.disp.modes = s.disp.modes
  cars : t.disp.cars = s.disp.cars

theorem State.calm.refl (s : State) : s.calm s := ⟨rfl, rfl, rfl, rfl⟩

theorem State.calm.of_only {s t : State} {bs : List Block} (only : s.changesOnly bs t) (policy : .policy ∉ bs)
    (disp : .disp ∉ bs) : s.calm t := by
  have same := only .disp disp
  exact ⟨only .policy policy, by rw [same], by rw [same], by rw [same]⟩

theorem State.calm.trans {s t u : State} (h : s.calm t) (k : t.calm u) : s.calm u :=
  ⟨k.policy.trans h.policy, k.bookings.trans h.bookings, k.modes.trans h.modes, k.cars.trans h.cars⟩

theorem State.calm.car {s t : State} (h : s.calm t) (b : Bank) (c : CarNo) : t.car b c = s.car b c := by
  rw [State.car, h.cars, State.car]

/-- What each event makes of the tables before its close. -/
inductive State.tableEvent (s : State) : State → Prop
  /-- The completion of a program (R14). -/
  | completion (g : Program) (flight : s.store.programmer = some g) : State.tableEvent s (s.jobDone g)
  /-- An assertion edge of a recall input (R158). -/
  | recalled (b : Bank) (running : s.part.state = .running) :
    State.tableEvent s (((s.setRcl b true).post .urgent (.recallInput b true)).forceRecall b)
  /-- A decision (R62). -/
  | decision (pres : Presentation) (home : Floor) (banks : BankSet) : State.tableEvent s (s.decide pres home banks)
  /-- A good STATUS (R89). -/
  | answer (l : Bank) (c : CarNo) (kind : CommandKind) (st : Status) : State.tableEvent s (s.takeStatus l c kind st)
  /-- An expired contact timer (R96). -/
  | contact (b : Bank) (c : CarNo) (timed : (s.car b c).service.timed = true) : State.tableEvent s (s.loseContact b c)
  /-- The abandon timer (R97). -/
  | abandon : State.tableEvent s (s.cancelAll .abandoned (serialOrder (s.disp.bookings.filter s.abandoned)))

/-- `t` is the close of `u`, from the cars of `s`. -/
structure State.closesAs (s u t : State) : Prop where
  policy : t.policy = u.policy
  bookings : t.disp.bookings = u.disp.bookings
  modes : t.disp.modes = u.disp.modes
  car : ∀ b c, t.car b c = Car.closeGeneration (s.car b c) (u.car b c)

/-- A command that does to the tables what one event does. -/
def State.tabled (s t : State) : Prop :=
  ∃ s' u, s.changesOnly [.lines, .host] s' ∧ s'.tableEvent u ∧ s.closesAs u t

theorem State.closeCars_closesAs (s u : State) : s.closesAs u (s.closeCars u) :=
  ⟨s.closeCars_only u .policy (by decide), s.closeCars_bookings u, s.closeCars_modes u, s.closeCars_car u⟩

theorem State.closesAs.calm {s u t v : State} (h : s.closesAs u t) (calm : t.calm v) : s.closesAs u v :=
  ⟨calm.policy.trans h.policy, calm.bookings.trans h.bookings, calm.modes.trans h.modes,
    fun b c => (calm.car b c).trans (h.car b c)⟩

theorem State.closesAs.of_cars {s s' u t : State} (h : s'.closesAs u t) (cars : ∀ b c, s'.car b c = s.car b c) :
    s.closesAs u t := ⟨h.policy, h.bookings, h.modes, fun b c => cars b c ▸ h.car b c⟩

/-- An event, its close, and what follows in the same command. -/
theorem State.tabled.of_close {s u t : State} (event : s.tableEvent u) (calm : (s.closeCars u).calm t) : s.tabled t :=
  ⟨s, u, .refl _ _, event, (s.closeCars_closesAs u).calm calm⟩

/-! ### Answers (R131 to R136) -/

/-- What an answer leaves: the tables stay, or a STATUS is taken and no more is heard. -/
def State.hears (s t : State) (l : Bank) : Prop :=
  s.changesOnly [.lines, .host] t ∨ (s.tabled t ∧ (t.line l).listening = false)

theorem State.hears.bind {s t u : State} {l : Bank} (h : s.hears t l) (more : t.hears u l)
    (deaf : (t.line l).listening = false → u = t) : s.hears u l := by
  rcases h with stay | ⟨tabled, quiet⟩
  · rcases more with stays | ⟨⟨s', v, only, event, closes⟩, quiet⟩
    · exact .inl (stay.trans stays)
    · have cars : ∀ b c, t.car b c = s.car b c := fun b c => by
        rw [State.car, stay .disp (by decide), State.car]
      exact .inr ⟨⟨s', v, stay.trans only, event, closes.of_cars cars⟩, quiet⟩
  · rw [deaf quiet]
    exact .inr ⟨tabled, quiet⟩

theorem State.failAttempt_keeps (s : State) (l : Bank) : s.changesOnly [.lines, .host] (s.failAttempt l) :=
  s.failAttempt_only l

theorem State.takeAnswer_status (s : State) (l : Bank) (x : Transaction) (st : Status) :
    s.takeAnswer l x (some (.status st)) = (s.closeCars (s.takeStatus l x.car x.kind st)).endTransaction l x := rfl

theorem State.takeAnswer_hears (s : State) (l : Bank) (x : Transaction) (a : Option CarAnswer) :
    s.hears (s.takeAnswer l x a) l := by
  rcases a with - | st | - | -
  · exact .inl (s.failAttempt_keeps l)
  · have event : s.tableEvent (s.takeStatus l x.car x.kind st) := .answer l x.car x.kind st
    rw [State.takeAnswer_status]
    generalize s.takeStatus l x.car x.kind st = u at event
    exact .inr ⟨.of_close event (.of_only (State.endTransaction_only _ l x) (by decide) (by decide)),
      State.endTransaction_listening _ _ _⟩
  · exact .inl (s.answerHold_only l x)
  · exact .inl (s.answerResend_only l x)

theorem State.hear_hears {s : State} {l : Bank} {f : Transaction → State} (good : ∀ x, s.hears (f x) l) :
    s.hears (s.hear l f) l := by
  unfold State.hear
  split
  · split
    next x _ => exact good x
    next => exact .inl (.refl _ _)
  · exact .inl (.refl _ _)

theorem State.answerByte_hears (s : State) (l : Bank) (b : Byte) : s.hears (State.answerByte l s b) l := by
  refine State.hear_hears fun x => ?_
  split
  · exact .inl ((State.setLine_only _ _ _).mono (by decide))
  · exact s.takeAnswer_hears l x _

theorem State.answerBytes_hears (s : State) (l : Bank) (bytes : List Byte) :
    s.hears (bytes.foldl (State.answerByte l) s) l := by
  have all : ∀ (bytes : List Byte) (t : State), s.hears t l → s.hears (bytes.foldl (State.answerByte l) t) l := by
    intro bytes
    induction bytes with
    | nil => exact fun _ h => h
    | cons b bytes ih => exact fun t h => ih _ (h.bind (t.answerByte_hears l b) (State.hear_deaf _))
  exact all bytes s (.inl (.refl _ _))

theorem State.cutAnswer_hears (s : State) (l : Bank) : s.hears (s.cutAnswer l) l := by
  refine State.hear_hears fun x => ?_
  split
  · exact .inl (.refl _ _)
  · exact .inl (s.failAttempt_keeps l)

/-- The tables stay, or change by one event. -/
def State.steps (s t : State) : Prop := s.calm t ∨ s.tabled t

theorem State.hears.steps {s t u : State} {l : Bank} (h : s.hears t l) (calm : t.calm u) : s.steps u := by
  rcases h with stay | ⟨⟨s', v, only, event, closes⟩, -⟩
  · exact .inl ((State.calm.of_only stay (by decide) (by decide)).trans calm)
  · exact .inr ⟨s', v, only, event, closes.calm calm⟩

theorem State.calm_choose (s : State) : s.calm s.choose := .of_only (s.choose_only) (by decide) (by decide)

/-! ### Each command -/

/-- R131: the answers of a car. -/
theorem exec_answer_steps {s t : State} {l : Bank}
    (answer : (∃ address a, t = (s.hearAnswer l address a).choose) ∨
      (∃ bytes : List Byte, t = (bytes.foldl (State.answerByte l) s).choose) ∨
      ∃ bytes : List Byte, t = ((bytes.foldl (State.answerByte l) s).cutAnswer l).choose) : s.steps t := by
  obtain ⟨address, a, rfl⟩ | ⟨bytes, rfl⟩ | ⟨bytes, rfl⟩ := answer
  · exact (State.hear_hears fun x => s.takeAnswer_hears l x _).steps (State.calm_choose _)
  · exact (s.answerBytes_hears l bytes).steps (State.calm_choose _)
  · exact ((s.answerBytes_hears l bytes).bind (State.cutAnswer_hears _ l) (State.hear_deaf _)).steps (State.calm_choose _)

theorem exec_verifyMatch_steps {s t : State} (run : exec .verifyMatch s = .next t) : s.steps t := by
  cases flight : s.store.programmer with
  | none =>
    obtain rfl := execVerifyMatch_none flight run
    exact .inl (.refl _)
  | some g =>
    obtain rfl := Host.Outcome.next.inj ((exec_matched flight).symm.trans run)
    exact .inr ⟨s, s.jobDone g, .refl _ _, .completion g flight,
      ⟨s.matched_policy g, s.matched_bookings g, s.matched_modes g, s.matched_car g⟩⟩

theorem exec_recallAsserted_steps {s t : State} {b : Bank} (run : exec (.recallInputAsserted b) s = .next t) :
    s.steps t := by
  rcases next_ite_cases run with ⟨edge, rfl⟩ | ⟨_, rfl⟩
  · have event := State.tableEvent.recalled (s := s) b (of_decide_eq_true edge.1)
    generalize ((s.setRcl b true).post .urgent (.recallInput b true)).forceRecall b = u at event
    have closes := ((s.setRcl b true).closeCars_closesAs u).calm (State.calm_choose _)
    exact .inr ⟨s, u, .refl _ _, event, closes.of_cars fun _ _ => rfl⟩
  · exact .inl ⟨rfl, rfl, rfl, rfl⟩

theorem exec_decisionMoment_steps {s t : State} (run : exec .decisionMoment s = .next t) : s.steps t := by
  change execDecisionMoment s = _ at run
  unfold execDecisionMoment at run
  split at run <;> cases run
  next pres home banks _ _ =>
    have event := State.tableEvent.decision (s := s) pres home banks
    generalize s.decide pres home banks = u at event
    have closes := (s.closeCars_closesAs u).calm (v := (s.closeCars u).engineIdle) ⟨rfl, rfl, rfl, rfl⟩
    exact .inr ⟨s, u, .refl _ _, event, closes.calm (State.calm_choose _)⟩
  next => exact .inl (.refl s)

theorem exec_contactTimer_steps {s t : State} {b : Bank} {c : CarNo} (run : exec (.contactTimer b c) s = .next t) :
    s.steps t := by
  rcases next_ite_cases run with ⟨h, rfl⟩ | ⟨_, rfl⟩
  · have event := State.tableEvent.contact (s := s) b c h.2.1
    generalize s.loseContact b c = u at event
    exact .inr (.of_close event (State.calm_choose _))
  · exact .inl (.refl _)

theorem exec_abandonTimer_steps {s t : State} (run : exec .abandonTimer s = .next t) : s.steps t := by
  rcases next_ite_cases run with ⟨_, rfl⟩ | ⟨_, rfl⟩
  · have event := State.tableEvent.abandon (s := s)
    generalize s.cancelAll .abandoned (serialOrder (s.disp.bookings.filter s.abandoned)) = u at event
    exact .inr (.of_close event (State.calm_choose _))
  · exact .inl (.refl _)

theorem exec_ticketExpiry_steps {s t : State} (run : exec .ticketExpiry s = .next t) : s.steps t := by
  rcases next_ite_cases run with ⟨_, rfl⟩ | ⟨_, rfl⟩
  · rw [State.reportExpiries]
    exact .inl ⟨rfl, rfl, rfl, rfl⟩
  · exact .inl (.refl _)

/-- R167: a reply sent leaves the tables, or restarts the part. -/
theorem exec_replySent_steps {s t : State} (run : exec .replySent s = .next t) : s.steps t ∨ t = s.restartReset := by
  change execReplySent s = _ at run
  unfold execReplySent at run
  split at run
  · split at run <;> cases run
    next r _ =>
      unfold State.replyDone
      split
      · exact .inr rfl
      · exact .inl (.inl ⟨rfl, rfl, rfl, rfl⟩)
    all_goals exact .inl (.inl (.refl _))
  · cases run
    exact .inl (.inl (.refl _))

/-- A command whose blocks hold neither the working copies nor the Dispatch Engine. -/
theorem exec_steps_of_blocks {s t : State} {i : Instr} (run : exec i s = .next t) (policy : .policy ∉ blocksOf i)
    (disp : .disp ∉ blocksOf i) : s.steps t := .inl (.of_only (exec_changesOnly run) policy disp)

/-- R83: what every command, but the resets and the scan, does to the tables. -/
theorem exec_steps {s t : State} {i : Instr} (pin : i ≠ .resetPin) (release : i ≠ .resetPinRelease)
    (scan : i ≠ .startUpScanEnd) (reply : i = .replySent → t ≠ s.restartReset) (run : exec i s = .next t) : s.steps t := by
  cases i
  case resetPin => exact absurd rfl pin
  case resetPinRelease => exact absurd rfl release
  case startUpScanEnd => exact absurd rfl scan
  case replySent =>
    rcases exec_replySent_steps run with stay | restart
    · exact stay
    · exact absurd restart (reply rfl)
  case verifyMatch => exact exec_verifyMatch_steps run
  case recallInputAsserted => exact exec_recallAsserted_steps run
  case decisionMoment => exact exec_decisionMoment_steps run
  case contactTimer => exact exec_contactTimer_steps run
  case abandonTimer => exact exec_abandonTimer_steps run
  case ticketExpiry => exact exec_ticketExpiry_steps run
  case status b _ _ _ _ _ _ _ _ _ _ _ => exact exec_answer_steps (l := b) (.inl ⟨_, _, by cases run; rfl⟩)
  case hold b _ => exact exec_answer_steps (l := b) (.inl ⟨_, _, by cases run; rfl⟩)
  case resend b _ => exact exec_answer_steps (l := b) (.inl ⟨_, _, by cases run; rfl⟩)
  case badAnswer b _ => exact exec_answer_steps (l := b) (.inr (.inl ⟨_, by cases run; rfl⟩))
  case answerByteTimeout b _ => exact exec_answer_steps (l := b) (.inr (.inr ⟨_, by cases run; rfl⟩))
  all_goals exact exec_steps_of_blocks run (by simp only [blocksOf]; decide) (by simp only [blocksOf]; decide)

end Sys2Proof.Machine
end

section
/-! PROOF. O58 (R83, R90): the generation follows the stop set, event by event. -/

namespace Sys2Proof.Machine

/-! ### Stop sets -/

theorem Key.number_lt (k : Key) : k.number < 256 := by
  unfold Key.number
  split <;> omega

theorem Key.number_inj {j k : Key} (h : j.number = k.number) : j = k := by
  obtain ⟨f, x⟩ := j
  obtain ⟨g, y⟩ := k
  have floors : f.val = g.val → f = g := Fin.ext
  cases x <;> cases y <;> simp only [Key.number] at h
  · rw [floors h]
  · omega
  · omega
  · rw [floors (by omega)]

theorem keySet_bit (ks : List Key) (k : Key) : (keySet ks).getLsbD k.number = true ↔ k ∈ ks := by
  induction ks with
  | nil => simp [keySet]
  | cons j ks ih =>
    rw [keySet, BitVec.getLsbD_or, Bool.or_eq_true, ih, List.mem_cons, BitVec.getLsbD_ofNat, Nat.testBit_two_pow,
      decide_eq_true k.number_lt, Bool.true_and, decide_eq_true_eq]
    exact or_congr_left ⟨fun h => (Key.number_inj h).symm, fun h => h ▸ rfl⟩

theorem exists_key_number {i : Nat} (hi : i < 256) : ∃ k : Key, k.number = i := by
  by_cases low : i < 128
  · exact ⟨{ floor := ⟨i, low⟩, dir := .up }, rfl⟩
  · exact ⟨{ floor := ⟨i - 128, by omega⟩, dir := .down }, by simp only [Key.number]; omega⟩

theorem keySet_eq_iff {js ks : List Key} : keySet js = keySet ks ↔ ∀ k, k ∈ js ↔ k ∈ ks := by
  constructor
  · intro same k
    rw [← keySet_bit, ← keySet_bit, same]
  · intro same
    refine BitVec.eq_of_getLsbD_eq fun i hi => ?_
    obtain ⟨k, rfl⟩ := exists_key_number hi
    rw [Bool.eq_iff_iff, keySet_bit, keySet_bit, same]

/-- R83: the stop set is the set of keys with the enabled set. -/
theorem Car.stopSet_eq_iff {c d : Car} :
    c.stopSet = d.stopSet ↔ (∀ k, k ∈ c.keys ↔ k ∈ d.keys) ∧ c.enabled = d.enabled := by
  rw [Car.stopSet, Car.stopSet, Prod.mk.injEq, keySet_eq_iff]

/-- R83: the close of an event, by whether the stop set changed. -/
theorem Car.closeGeneration_cases {old new : Car} (was : old.service ≠ .absent) (is : new.service ≠ .absent) :
    let same : Prop := (∀ k, k ∈ new.keys ↔ k ∈ old.keys) ∧ new.enabled = old.enabled
    (same → Car.closeGeneration old new = new) ∧
      (¬ same → Car.closeGeneration old new = { new with gen := new.gen + 1, confirmed := none }) := by
  intro same
  have sets : old.stopSet = new.stopSet ↔ same := eq_comm.trans Car.stopSet_eq_iff
  unfold Car.closeGeneration
  rw [Car.configured_iff.2 was, Car.configured_iff.2 is]
  refine ⟨fun h => if_neg ?_, fun h => if_pos ?_⟩
  · simp [sets.2 h]
  · simp [sets, h]

theorem Car.closeGeneration_keys (old new : Car) : (Car.closeGeneration old new).keys = new.keys :=
  congrArg (List.map fun e : Stop => e.key) (Car.closeGeneration_stops old new)

/-! ### Events keep the generations -/

/-- Generations and confirmations stay. -/
def State.sameGens (s t : State) : Prop :=
  ∀ b c, (t.car b c).gen = (s.car b c).gen ∧ (t.car b c).confirmed = (s.car b c).confirmed

/-- The generation of a car that stays configured stays until the close, and its confirmation stays or is of it (R90). -/
def State.gensKept (s t : State) : Prop :=
  ∀ b c, (s.car b c).service ≠ .absent → (t.car b c).service ≠ .absent →
    (t.car b c).gen = (s.car b c).gen ∧
      ((t.car b c).confirmed = (s.car b c).confirmed ∨ (t.car b c).confirmed = some (s.car b c).gen)

section
variable {s t u : State}

theorem State.sameGens.refl (s : State) : s.sameGens s := fun _ _ => ⟨rfl, rfl⟩

theorem State.sameGens.trans (h : s.sameGens t) (k : t.sameGens u) : s.sameGens u := fun b c =>
  ⟨(k b c).1.trans (h b c).1, (k b c).2.trans (h b c).2⟩

theorem State.sameGens.of_tables (h : ∀ b c, (s.car b c).tableOnly (t.car b c)) : s.sameGens t := fun b c =>
  ⟨(h b c).gen, (h b c).confirmed⟩

theorem State.sameGens.of_cars (h : ∀ b c, t.car b c = s.car b c) : s.sameGens t := fun b c => by
  rw [h]
  exact ⟨rfl, rfl⟩

theorem State.gensKept.of_cars (h : t.gensKept u) (cars : ∀ b c, t.car b c = s.car b c) : s.gensKept u := fun b c was is => by
  rw [← cars] at was ⊢
  exact h b c was is

theorem State.sameGens.kept (h : s.sameGens t) : s.gensKept t := fun b c _ _ => ⟨(h b c).1, .inl (h b c).2⟩

end

section
variable (s : State) (b : Bank)

theorem State.eachConfigured_sameGens {f : Car → Car} (keeps : ∀ x : Car, (f x).gen = x.gen ∧ (f x).confirmed = x.confirmed) :
    s.sameGens (s.eachConfigured b f) := fun h c => by
  by_cases own : h = b
  · subst own
    rw [State.eachConfigured_car]
    split
    · exact keeps _
    · exact ⟨rfl, rfl⟩
  · rw [State.eachConfigured_other _ _ _ own]
    exact ⟨rfl, rfl⟩

theorem State.formBank_tableOnly (h : Bank) (c : CarNo) : (s.car h c).tableOnly ((s.formBank b).car h c) := by
  by_cases own : h = b
  · subst own
    rw [State.formBank_car]
    split
    · exact State.formedCar_tableOnly _ _ _
    · exact .refl _
  · rw [State.formBank_other _ _ own]
    exact .refl _

theorem State.formBank_sameGens : s.sameGens (s.formBank b) := .of_tables (s.formBank_tableOnly b)

theorem State.clearBank_sameGens (r : CancelReason) : s.sameGens (s.clearBank b r) := by
  have emptied : s.sameGens (s.emptied b r) := .of_tables (s.emptied_tableOnly b r)
  rw [State.clearBank_eq]
  generalize s.emptied b r = u at emptied
  exact emptied.trans (u.eachConfigured_sameGens b fun _ => ⟨rfl, rfl⟩)

theorem State.enterOut_sameGens : s.sameGens (s.enterOut b) := by
  have cleared := s.clearBank_sameGens b .bankOut
  rw [State.enterOut]
  generalize s.clearBank b .bankOut = u at cleared
  exact cleared.trans (u.formBank_sameGens b)

theorem State.enterFire_sameGens : s.sameGens (s.enterFire b) := by
  have cleared := s.clearBank_sameGens b .recalled
  rw [State.enterFire]
  generalize s.clearBank b .recalled = u at cleared
  exact cleared.trans (u.eachConfigured_sameGens b fun _ => ⟨rfl, rfl⟩)

theorem State.leaveFire_sameGens : s.sameGens (s.leaveFire b) := by
  have left : s.sameGens (s.eachConfigured b (s.leaveRecall b)) := s.eachConfigured_sameGens b fun _ => ⟨rfl, rfl⟩
  rw [State.leaveFire]
  generalize s.eachConfigured b (s.leaveRecall b) = u at left
  exact left.trans (u.formBank_sameGens b)

theorem State.modeLeft_sameGens (old new : BankMode) : s.sameGens (s.modeLeft b old new) := by
  have mode : s.sameGens (s.setMode b new) := .of_cars fun _ _ => rfl
  unfold State.modeLeft
  split
  · generalize s.setMode b new = u at mode
    exact mode.trans (u.leaveFire_sameGens b)
  · exact mode

theorem State.modeChanged_sameGens (old new : BankMode) : s.sameGens (s.modeChanged b old new) := by
  have left := s.modeLeft_sameGens b old new
  by_cases clears : new = .out ∨ new = .fireRecall
  · rcases clears with rfl | rfl
    · rw [State.modeChanged_out]
      generalize s.modeLeft b old .out = u at left
      exact left.trans (u.enterOut_sameGens b)
    · rw [State.modeChanged_fire]
      generalize s.modeLeft b old .fireRecall = u at left
      exact left.trans (u.enterFire_sameGens b)
  · rwa [s.modeChanged_keeps b old new clears]

theorem State.changeMode_sameGens (new : BankMode) (i : Bool) : s.sameGens (s.changeMode b new i) := by
  cases had : s.mode b with
  | none =>
    rw [State.changeMode, had]
    exact .refl s
  | some old =>
    rw [State.changeMode_eq had]
    have changed := s.modeChanged_sameGens b old new
    generalize s.modeChanged b old new = u at changed
    exact changed

end

/-! ### Bookings (R85, R87, R99) -/

section
variable (s : State)

theorem State.cancelAll_sameGens (r : CancelReason) (ks : List Booking) : s.sameGens (s.cancelAll r ks) :=
  .of_tables (State.cancelAll_tableOnly r ks s)

theorem State.setService_sameGens (b : Bank) (c : CarNo) (new : Service) : s.sameGens (s.setService b c new) := by
  intro h d
  have lists := (s.setService_listOnly b c new h d).tableOnly
  rw [lists.gen, lists.confirmed]
  by_cases own : (h, d) = (b, c)
  · obtain ⟨rfl, rfl⟩ := Prod.mk.inj own
    rw [State.withService_self]
    exact ⟨rfl, rfl⟩
  · rw [s.withService_other b c new own]
    exact ⟨rfl, rfl⟩

theorem State.serviceSet_sameGens (b : Bank) (c : CarNo) (new : Service) : s.sameGens (s.serviceSet b c new) := by
  have set := s.setService_sameGens b c new
  intro h d
  rw [State.serviceSet_car]
  exact set h d

theorem State.place_tableOnly (k : Booking) (h : Bank) (d : CarNo) : (s.car h d).tableOnly ((s.place k).car h d) := by
  show (s.car h d).tableOnly ((State.resyncKeep _ k.bank k.car).car h d)
  by_cases own : (h, d) = (k.bank, k.car)
  · obtain ⟨rfl, rfl⟩ := Prod.mk.inj own
    rw [State.resyncKeep, State.resync_self]
    exact (Car.resync_listOnly _ _ _).tableOnly
  · rw [State.resyncKeep, State.resync_other _ own]
    exact .refl _

theorem State.grantTicket_car (o : Bool) (t : Option Floor) (d : Floor) (used : Bool) (k : Booking) (b : Bank) (c : CarNo) :
    (s.grantTicket o t d used k).car b c = s.car b c := by
  unfold State.grantTicket
  split
  · rfl
  · split <;> rfl

theorem State.cancelSuperseded_tableOnly (o : Option Booking) (h : Bank) (d : CarNo) :
    (s.car h d).tableOnly ((s.cancelSuperseded o).car h d) := by
  cases o with
  | none => exact .refl _
  | some k => exact s.cancel_tableOnly .superseded k h d

theorem State.granted_tableOnly (pres : Presentation) (r : Credential) (home d : Floor) (id : Nat) (c : Choice) (used : Bool)
    (h : Bank) (x : CarNo) : (s.car h x).tableOnly ((s.granted pres r home d id c used).car h x) := by
  unfold State.granted
  rw [State.grantTicket_car]
  exact State.place_tableOnly (s.setDisp { s.disp with serial := s.disp.serial + 1 }) _ h x

theorem State.grant_tableOnly (pres : Presentation) (r : Credential) (home d : Floor) (id : Nat) (c : Choice) (used : Bool)
    (h : Bank) (x : CarNo) : (s.car h x).tableOnly ((s.grant pres r home d id c used).car h x) := by
  have booked := s.granted_tableOnly pres r home d id c used h x
  have cancelled := (s.granted pres r home d id c used).cancelSuperseded_tableOnly
    ((s.granted pres r home d id c used).superseded pres id) h x
  exact booked.trans cancelled

end

/-! ### A decision (R62 to R78) -/

/-- `t` is a grant for a presentation, of a credential that a slot holds, on tables that differ from those of `s` in the
tickets alone. -/
def State.grantedTo (s : State) (pres : Presentation) (home : Floor) (banks : BankSet) (t : State) : Prop :=
  ∃ (r : Credential) (p k : Nat) (u : State) (d : Floor) (id : Nat) (c : Choice) (used : Bool),
    s.store.lookup pres.badge = .found r p k ∧ s.calm u ∧ u.grants r home banks d id c ∧
      t = u.grant pres r home d id c used

/-- What a decision does to the tables: nothing, or a grant. -/
theorem State.decide_cases (s : State) (pres : Presentation) (home : Floor) (banks : BankSet) :
    s.calm (s.decide pres home banks) ∨ s.grantedTo pres home banks (s.decide pres home banks) := by
  have calmDeny : ∀ (u : State) (e : DenyReason) (o : Option Floor), s.calm u → s.calm (u.deny pres e o) :=
    fun u e o calm => calm.trans ⟨rfl, rfl, rfl, rfl⟩
  have calmRemove : s.calm (s.removeTicket pres.badge) := ⟨rfl, rfl, rfl, rfl⟩
  unfold State.decide
  split
  · exact .inl ⟨rfl, rfl, rfl, rfl⟩
  · exact .inl (calmDeny _ _ _ (.refl s))
  next r known =>
    obtain ⟨p, k, found⟩ := State.identify_ok known
    have trip : ∀ (u : State) (d : Floor) (used : Bool), s.calm u → (used = true → u = s) →
        s.calm (u.decideTrip pres r home banks d used) ∨
          s.grantedTo pres home banks (u.decideTrip pres r home banks d used) := by
      intro u d used calm own
      unfold State.decideTrip
      split
      · split
        next is => exact .inl (calmDeny _ _ _ (own is ▸ calmRemove))
        next => exact .inl (calmDeny _ _ _ calm)
      next id c ok => exact .inr ⟨r, p, k, u, d, id, c, used, found, calm, State.testTrip_ok ok, (by rfl)⟩
    unfold State.decideJourney
    simp only
    split
    next t _ => exact trip s t.dest true (.refl s) fun _ => rfl
    next =>
      have calm : s.calm (if supersededTicket (s.ticketAt pres.badge home) pres.floor then s.removeTicket pres.badge
          else s) := by
        split
        · exact calmRemove
        · exact .refl s
      generalize (if supersededTicket (s.ticketAt pres.badge home) pres.floor then s.removeTicket pres.badge else s) = u
        at calm
      split
      · exact .inl (calmDeny _ _ _ calm)
      next d _ => exact trip u d false calm fun e => nomatch e

theorem State.decide_sameGens (s : State) (pres : Presentation) (home : Floor) (banks : BankSet) :
    s.sameGens (s.decide pres home banks) := by
  rcases s.decide_cases pres home banks with calm | ⟨r, -, -, u, d, id, c, used, -, calm, -, e⟩
  · exact .of_cars calm.car
  · rw [e]
    exact .trans (.of_cars calm.car) (.of_tables (u.grant_tableOnly pres r home d id c used))

/-! ### A STATUS (R89, R90) -/

section
variable {s : State} {b : Bank} {c : CarNo} {kind : CommandKind} {st : Status}

theorem State.attends_listsCar :
    ((s.moved b c kind st).flagged b c (s.bank b).fullThreshold st.load).listsCar (s.attends b c kind st) b c := by
  have served : ((s.moved b c kind st).flagged b c (s.bank b).fullThreshold st.load).listsCar
      (((s.moved b c kind st).flagged b c (s.bank b).fullThreshold st.load).attended b c st (s.serviceGiven b c kind st))
      b c := by
    unfold State.attended
    split
    · exact State.serveFloor_listsCar
    · exact .refl _ b c
  refine served.trans ?_
  unfold State.attends State.called
  split
  · exact State.takeCalls_listsCar b c _ _ _ _
  · exact .refl _ b c

/-- What a STATUS leaves of its car, up to the list and the enabled set. -/
theorem State.statusEvent_car :
    ({ s.shifted b c kind st with full := fullFlag (s.bank b).fullThreshold st.load (s.car b c).full } : Car).tableOnly
      ((s.statusEvent b c kind st).car b c) := by
  have moved := (s.moved_listOnly_self b c kind st).tableOnly
  have full : (s.shifted b c kind st).full = (s.car b c).full := s.reported_full b c kind st
  have flagged : ({ s.shifted b c kind st with full := fullFlag (s.bank b).fullThreshold st.load (s.car b c).full } :
      Car).tableOnly (((s.moved b c kind st).flagged b c (s.bank b).fullThreshold st.load).car b c) := by
    rw [State.flagged, State.car_setCar_self]
    unfold Car.tableOnly at *
    rw [moved, ← full]
  have attends := (State.attends_listsCar (s := s) (b := b) (c := c) (kind := kind) (st := st)).car.tableOnly
  have formed := (s.attends b c kind st).formedCar_tableOnly b c
  rw [← State.formEnabled_self] at formed
  have reported : (s.statusEvent b c kind st).car b c = ((s.attends b c kind st).formEnabled b c).car b c := by
    rw [State.statusEvent_eq]
    unfold State.car
    rw [State.reportService_disp]
  rw [reported]
  exact (flagged.trans attends).trans formed

theorem State.statusEvent_other {h : Bank} {d : CarNo} (ne : (h, d) ≠ (b, c)) :
    (s.car h d).listOnly ((s.statusEvent b c kind st).car h d) := by
  have reported : (s.statusEvent b c kind st).car h d = ((s.attends b c kind st).formEnabled b c).car h d := by
    rw [State.statusEvent_eq]
    unfold State.car
    rw [State.reportService_disp]
  rw [reported, State.formEnabled_other _ ne, State.attends_listsCar.other h d ne, State.flagged,
    State.car_setCar_ne _ _ _ _ _ _ ne.symm]
  exact s.moved_listOnly_other b c kind st ne

theorem State.statusEvent_gensKept : s.gensKept (s.statusEvent b c kind st) := by
  intro h d _ _
  by_cases own : (h, d) = (b, c)
  · obtain ⟨rfl, rfl⟩ := Prod.mk.inj own
    have table := State.statusEvent_car (s := s) (b := h) (c := d) (kind := kind) (st := st)
    rw [table.gen, table.confirmed]
    have whole := s.reported_eq h d kind st
    refine ⟨s.reported_gen h d kind st, ?_⟩
    show (s.reported h d kind st).confirmed = _ ∨ (s.reported h d kind st).confirmed = _
    rw [whole]
    by_cases accepted : st.accepted = some (s.car h d).gen
    · exact .inr (if_pos accepted)
    · exact .inl (if_neg accepted)
  · have table := (State.statusEvent_other (s := s) (kind := kind) (st := st) own).tableOnly
    exact ⟨table.gen, .inl table.confirmed⟩

theorem State.takeStatus_gensKept : s.gensKept (s.takeStatus b c kind st) := by
  unfold State.takeStatus
  split
  · exact State.statusEvent_gensKept
  · exact (State.sameGens.refl s).kept

end

/-! ### A completed program (R12) -/

theorem State.recount_gensKept (s : State) (b : Bank) : s.gensKept (s.recount b) := by
  intro h c was is
  by_cases own : h = b
  · subst own
    rw [State.recount_car] at is ⊢
    cases counted : s.counted h c with
    | true =>
      rw [State.recounted_of_counted counted was]
      exact ⟨rfl, .inl rfl⟩
    | false =>
      rw [State.recounted_of_uncounted counted, if_neg was] at is
      exact absurd rfl is
  · rw [State.recount_other _ _ own]
    exact ⟨rfl, .inl rfl⟩

theorem State.changeFloors_tableOnly (s : State) (fs : List Floor) (r : FloorRec) (b : Bank) (c : CarNo) :
    (s.car b c).tableOnly ((s.changeFloors (fs.map fun f => (f, r))).car b c) := by
  have lists := (s.shut_listOnly fs r b c).tableOnly
  rw [State.changeFloors_car]
  simp only
  split
  · exact lists.trans (State.formedCar_tableOnly _ b c)
  · exact lists

/-- R16: where one bank of an erased page 2084 stands when its turn comes, and afterwards. -/
theorem State.eraseBankList_at {bs : List Bank} (once : bs.Nodup) (s : State) {b : Bank} (hb : b ∈ bs) :
    ∃ u, s.staffs u ∧ (∀ c, u.car b c = s.car b c) ∧ ∀ c, (s.eraseBankList bs).car b c = (u.eraseBank b).car b c := by
  induction bs generalizing s with
  | nil => cases hb
  | cons d bs ih =>
    obtain ⟨fresh, once⟩ := List.nodup_cons.1 once
    rw [State.eraseBankList_cons]
    by_cases own : b = d
    · subst own
      exact ⟨s, .refl s, fun _ => rfl, fun c => State.eraseBankList_other _ fresh c⟩
    · obtain ⟨u, staffs, cars, result⟩ := ih once (s.eraseBank d) ((List.mem_cons.1 hb).resolve_left own)
      exact ⟨u, (s.eraseBank_staffs d).trans staffs, fun c => (cars c).trans (s.eraseBank_other d own c), result⟩

theorem State.restored_gen (s : State) (b : Bank) (c : CarNo) :
    (s.restored b c).gen = (s.car b c).gen ∧ (s.restored b c).confirmed = (s.car b c).confirmed := by
  unfold State.restored
  split <;> exact ⟨rfl, rfl⟩

theorem State.eraseBanks_gensKept (s : State) : s.gensKept (s.eraseBankList allBanks) := by
  intro b c was is
  obtain ⟨u, -, cars, result⟩ := State.eraseBankList_at nodup_allBanks s (mem_allBanks b)
  have restored := u.restoreAll_car b c
  obtain ⟨gen, confirmed⟩ := u.restored_gen b c
  have present : (u.restored b c).service ≠ .absent := by
    rw [Ne, State.restored_absent_iff, cars]
    exact was
  rw [cars] at gen confirmed
  rw [result, State.eraseBank] at is ⊢
  generalize u.restoreAll b = v at restored is ⊢
  have kept := v.recount_gensKept b b c (restored.symm ▸ present) is
  rwa [restored, gen, confirmed] at kept

theorem State.erasedPage_gensKept (s : State) (p : Nat) : s.gensKept (s.erasedPage p) := by
  have still : ∀ {t : State}, t.disp = s.disp → s.gensKept t := fun {t} disp =>
    (State.sameGens.of_cars fun b c => by rw [State.car, disp, State.car]).kept
  by_cases out : p < 2048 ∨ 2086 ≤ p
  · rw [s.erasedPage_credential out]
    exact still rfl
  by_cases items : p < 2076
  · rw [s.erasedPage_items (by omega) items]
    exact still (s.setPolicy_only (s.policy.eraseItems p) .disp (by decide))
  by_cases floors : p < 2084
  · rw [s.erasedPage_floors (by omega) floors]
    exact (State.sameGens.of_tables (s.changeFloors_tableOnly _ _)).kept
  obtain rfl | rfl : p = 2084 ∨ p = 2085 := by omega
  · rw [s.erasedPage_banks]
    exact State.eraseBanks_gensKept
      (s.setPolicy { s.policy with banks := Vector.replicate 4 BankRec.erased, ticketLife := 600 })
  · rw [s.erasedPage_readers]
    exact still ((State.reloadPorts_disp _ _).trans rfl)

theorem State.jobDone_gensKept (s : State) (g : Program) : s.gensKept (s.jobDone g) := by
  have still : ∀ {t : State}, t.disp = s.disp → s.gensKept t := fun {t} disp =>
    (State.sameGens.of_cars fun b c => by rw [State.car, disp, State.car]).kept
  obtain ⟨s0, stored⟩ : ∃ s0, s0 = s.setStore (s.store.complete g) := ⟨_, rfl⟩
  have cars : ∀ b c, s0.car b c = s.car b c := fun b c => by rw [stored]; rfl
  cases job : g.job
  case credential => exact still (by rw [State.jobDone, State.jobCompleted, job]; rfl)
  case group | profile | tenant | site | reader => exact still (by rw [State.jobDone, State.jobCompleted, job]; rfl)
  case floor f r =>
    have done : s.jobDone g = s0.changeFloors ([f].map fun f => (f, r)) := by
      rw [State.jobDone, State.jobCompleted, job, stored]
      rfl
    rw [done]
    exact .of_cars (State.sameGens.of_tables (s0.changeFloors_tableOnly [f] r)).kept cars
  case bank b r =>
    rw [State.jobDone_bank job, ← stored]
    exact .of_cars (State.recount_gensKept _ b) cars
  case bankMode b m =>
    have done : s.jobDone g = (s.modeStored g b m).modeCompleted b m := by
      rw [State.jobDone, State.jobCompleted, job]
      rfl
    have base : s.sameGens (s.modeStored g b m) := .of_cars fun _ _ => rfl
    rw [done, State.modeCompleted]
    generalize s.modeStored g b m = u at base
    split
    · exact base.kept
    · split
      · exact base.kept
      · exact (base.trans (u.changeMode_sameGens b m false)).kept
  case carService b c w =>
    rw [State.jobDone_carService job]
    split
    · exact still rfl
    · have base : s.sameGens (s.withdrawnStored g b c w) := .of_cars fun _ _ => rfl
      generalize s.withdrawnStored g b c w = u at base
      cases after : u.serviceAfter b (u.car b c) w with
      | none =>
        rw [State.withdrawCar_none after]
        exact base.kept
      | some new =>
        rw [State.withdrawCar_some after]
        exact (base.trans (u.serviceSet_sameGens b c new)).kept
  case erase =>
    rw [State.jobDone_erase job, ← stored]
    exact .of_cars (s0.erasedPage_gensKept g.page) cars

/-! ### Every event -/

theorem State.tableEvent.gensKept {s u : State} (event : s.tableEvent u) : s.gensKept u := by
  cases event with
  | completion g _ => exact s.jobDone_gensKept g
  | recalled b _ =>
    have base : s.sameGens ((s.setRcl b true).post .urgent (.recallInput b true)) := .of_cars fun _ _ => rfl
    rw [State.forceRecall]
    generalize (s.setRcl b true).post .urgent (.recallInput b true) = u at base
    split
    · exact base.kept
    · exact (base.trans (u.changeMode_sameGens b .fireRecall true)).kept
  | decision pres home banks => exact (s.decide_sameGens pres home banks).kept
  | answer l c kind st => exact State.takeStatus_gensKept
  | contact b c _ => exact (s.serviceSet_sameGens b c .outOfContact).kept
  | abandon => exact (s.cancelAll_sameGens _ _).kept

/-- R83: the rule for one car. -/
theorem Car.closeGeneration_follows {old new : Car} (was : old.service ≠ .absent) (is : new.service ≠ .absent)
    (gen : new.gen = old.gen) (confirmed : new.confirmed = old.confirmed ∨ new.confirmed = some old.gen) :
    let r := Car.closeGeneration old new
    let same : Prop := (∀ k, k ∈ r.keys ↔ k ∈ old.keys) ∧ r.enabled = old.enabled
    (same → r.gen = old.gen ∧ (r.confirmed = old.confirmed ∨ r.confirmed = some old.gen)) ∧
      (¬ same → r.gen = old.gen + 1 ∧ r.confirmed = none) := by
  intro r same
  obtain ⟨stays, goes⟩ := Car.closeGeneration_cases was is
  have sets : same ↔ (∀ k, k ∈ new.keys ↔ k ∈ old.keys) ∧ new.enabled = old.enabled := by
    rw [← Car.closeGeneration_keys old new, ← Car.closeGeneration_enabled old new]
  refine ⟨fun h => ?_, fun h => ?_⟩
  · have whole : r = new := stays (sets.1 h)
    rw [whole]
    exact ⟨gen, confirmed⟩
  · have whole : r = { new with gen := new.gen + 1, confirmed := none } := goes fun e => h (sets.2 e)
    rw [whole]
    exact ⟨congrArg (· + 1) gen, rfl⟩

/-- Settles O58: event by event, up to the close, generations stay. -/
theorem generationFollowsTheStopSet : Obligations.GenerationFollowsTheStopSet := by
  intro i s t b c pin reply scan run was is same
  have unmoved : t.car b c = s.car b c → (same →
      (t.car b c).gen = (s.car b c).gen ∧
        ((t.car b c).confirmed = (s.car b c).confirmed ∨ (t.car b c).confirmed = some (s.car b c).gen)) ∧
      (¬ same → (t.car b c).gen = (s.car b c).gen + 1 ∧ (t.car b c).confirmed = none) := fun e => by
    refine ⟨fun _ => ?_, fun other => absurd ⟨fun k => ?_, ?_⟩ other⟩
    · rw [e]
      exact ⟨rfl, .inl rfl⟩
    all_goals rw [e]
  by_cases release : i = .resetPinRelease
  · subst release
    refine unmoved ?_
    rw [State.car, exec_changesOnly run .disp (by simp only [blocksOf]; decide), State.car]
  · rcases exec_steps pin release scan (fun e => absurd e reply) run with calm | ⟨s', u, only, event, closes⟩
    · exact unmoved (calm.car b c)
    · have car : s'.car b c = s.car b c := by
        rw [State.car, only .disp (by decide), State.car]
      have present : (u.car b c).service ≠ .absent := by
        rwa [closes.car, Car.closeGeneration_service] at is
      obtain ⟨gen, confirmed⟩ := event.gensKept b c (car ▸ was) present
      rw [car] at gen confirmed
      have rule := Car.closeGeneration_follows was present gen confirmed
      rw [← closes.car b c] at rule
      exact rule

end Sys2Proof.Machine
end

section
/-! PROOF. O44 (R89 to R92, R132, R138, R145): a good STATUS, what its bytes hold and what it leaves. -/

namespace Sys2Proof.Machine

/-! ### Reports while there is room (R173, R176) -/

section
variable (h : HostPort)

theorem HostPort.post_length_le (r : Report) (room : h.queue.length < 32) :
    (h.post r).queue.length ≤ h.queue.length + 1 ∧ ∀ x ∈ h.queue, x ∈ (h.post r).queue := by
  by_cases enabled : h.enables.getLsbD r.body.kind = true
  · rw [HostPort.post_of_room enabled room, HostPort.join_queue]
    exact ⟨by simp, fun x hx => List.mem_append_left _ hx⟩
  · rw [HostPort.post_of_disabled (by simpa using enabled)]
    exact ⟨Nat.le_succ _, fun _ hx => hx⟩

/-- While there is room for every report, none is lost. -/
theorem HostPort.posts_length_le (rs : List Report) (room : h.queue.length + rs.length ≤ 32) :
    (h.posts rs).queue.length ≤ h.queue.length + rs.length ∧ ∀ x ∈ h.queue, x ∈ (h.posts rs).queue := by
  induction rs generalizing h with
  | nil => exact ⟨Nat.le_refl _, fun _ hx => hx⟩
  | cons r rs ih =>
    rw [List.length_cons] at room
    obtain ⟨le, keeps⟩ := h.post_length_le r (by omega)
    obtain ⟨le', keeps'⟩ := ih (h.post r) (by omega)
    rw [HostPort.posts_cons, List.length_cons]
    exact ⟨by omega, fun x hx => keeps' x (keeps x hx)⟩

/-- A report posted after others is in the queue, while there is room for all. -/
theorem HostPort.mem_posts_of_room {rs rest : List Report} {r : Report} (enabled : h.enables.getLsbD r.body.kind = true)
    (room : h.queue.length + rs.length + rest.length < 32) : r ∈ (h.posts (rs ++ r :: rest)).queue := by
  obtain ⟨le, -⟩ := h.posts_length_le rs (by omega)
  rw [HostPort.posts_append, HostPort.posts_cons]
  have joined : r ∈ ((h.posts rs).post r).queue :=
    HostPort.mem_post (by rw [HostPort.posts_enables]; exact enabled) (by omega)
  obtain ⟨le', -⟩ := (h.posts rs).post_length_le r (by omega)
  exact (((h.posts rs).post r).posts_length_le rest (by omega)).2 r joined

end

/-- R99: moving a booking posts one report at most. -/
theorem State.moveBooking_host (s : State) (k : Booking) :
    ∃ rs : List Report, rs.length ≤ 1 ∧ (s.moveBooking k).host = s.host.posts rs := by
  rcases s.moveBooking_cases k with e | ⟨d, -, e⟩
  · exact ⟨[s.cancelledReport .noCar k], Nat.le_refl _, by rw [e, State.cancel_host]; rfl⟩
  · exact ⟨[], Nat.zero_le _, by rw [e]; rfl⟩

theorem State.foldl_move_host (ks : List Booking) (s : State) :
    ∃ rs : List Report, rs.length ≤ ks.length ∧ (ks.foldl (fun s k => s.moveBooking k) s).host = s.host.posts rs := by
  induction ks generalizing s with
  | nil => exact ⟨[], Nat.le_refl _, rfl⟩
  | cons k ks ih =>
    obtain ⟨rs, one, first⟩ := s.moveBooking_host k
    obtain ⟨rs', few, rest⟩ := ih (s.moveBooking k)
    refine ⟨rs ++ rs', ?_, ?_⟩
    · rw [List.length_append, List.length_cons]
      omega
    · rw [List.foldl_cons, rest, first, HostPort.posts_append]

theorem State.waitingOn_length_le (s : State) (b : Bank) (c : CarNo) : (s.waitingOn b c).length ≤ s.disp.bookings.length := by
  rw [State.waitingOn, (serialOrder_perm _).length_eq]
  exact (List.length_filter_le _ _).trans (List.length_filter_le _ _)

/-- R98: the moves of a car post at most a report a booking. -/
theorem State.moved_host (s : State) (b : Bank) (c : CarNo) (kind : CommandKind) (st : Status) :
    ∃ rs : List Report, rs.length ≤ s.disp.bookings.length ∧ (s.moved b c kind st).host = s.host.posts rs := by
  by_cases leaves : s.leavesBy b c kind st
  · rw [State.moved_of_leaves _ _ _ _ _ leaves]
    obtain ⟨rs, few, host⟩ := State.foldl_move_host ((s.setCar b c (s.shifted b c kind st)).waitingOn b c)
      (s.setCar b c (s.shifted b c kind st))
    exact ⟨rs, few.trans (State.waitingOn_length_le _ b c), host⟩
  · rw [State.moved_of_stays _ _ _ _ _ leaves]
    exact ⟨[], Nat.zero_le _, rfl⟩

/-! ### The host port after a STATUS (R95, R138) -/

/-- R95: the report of a change of service state, if it changed. -/
def State.serviceReports (s : State) (b : Bank) (c : CarNo) (old new : Service) : List Report :=
  if old = new then []
  else [{ cls := serviceClass old new, clock := s.part.clock, gap := false, body := .carService b c old new }]

theorem State.reportService_host (s : State) (b : Bank) (c : CarNo) (old new : Service) :
    (s.reportService b c old new).host = s.host.posts (s.serviceReports b c old new) := by
  unfold State.reportService State.serviceReports
  split <;> rfl

section
variable (s : State) (b : Bank) (c : CarNo) (kind : CommandKind) (st : Status)

theorem State.statusEvent_host :
    (s.statusEvent b c kind st).host =
      (s.moved b c kind st).host.posts (s.serviceReports b c (s.car b c).service (s.serviceGiven b c kind st)) := by
  have lists := State.attends_listsCar (s := s) (b := b) (c := c) (kind := kind) (st := st)
  have only := (s.attends b c kind st).formEnabled_carsOnly b c
  have part : ((s.attends b c kind st).formEnabled b c).part = s.part := by
    rw [only.part, lists.part, ← s.moved_part b c kind st]
    rfl
  rw [State.statusEvent_eq, State.reportService_host, only.host, lists.host]
  unfold State.serviceReports
  rw [part]
  rfl

theorem State.statusEvent_policy : (s.statusEvent b c kind st).policy = s.policy := by
  rw [State.statusEvent_eq, State.reportService_policy, (State.formEnabled_carsOnly _ b c).policy,
    State.attends_listsCar.policy, ← s.moved_policy b c kind st]
  rfl

theorem State.statusEvent_modes : (s.statusEvent b c kind st).disp.modes = s.disp.modes := by
  rw [State.statusEvent_eq, State.reportService_disp, (State.formEnabled_carsOnly _ b c).modes,
    State.attends_listsCar.modes, ← s.moved_modes b c kind st]
  rfl

theorem State.statusEvent_serial : (s.statusEvent b c kind st).disp.serial = s.disp.serial := by
  rw [State.statusEvent_eq, State.reportService_disp, (State.formEnabled_carsOnly _ b c).serial,
    State.attends_listsCar.serial, ← s.moved_serial b c kind st]
  rfl

theorem State.statusEvent_part : (s.statusEvent b c kind st).part = s.part := s.statusEvent_only b c kind st .part (by decide)

theorem State.statusEvent_lines : (s.statusEvent b c kind st).lines = s.lines := s.statusEvent_only b c kind st .lines (by decide)

end

/-! ### What a STATUS leaves of its line (R132, R138, R140, R142) -/

/-- A good STATUS heard: `e` is the event at the Car Table, `u` what the command leaves. -/
structure State.hearsStatus (s : State) (l : Bank) (t : Transaction) (e u : State) : Prop where
  line : u.line l =
    ({ ({ s.line l with queue := ((s.closeCars e).line l).queue } : Line).finish t (s.bank l).carCount with
      state := .idle } : Line).cleared
  car : ∀ b c, u.car b c = Car.closeGeneration (s.car b c) (e.car b c)
  modes : u.disp.modes = e.disp.modes
  serial : u.disp.serial = e.disp.serial
  bookings : u.disp.bookings = e.disp.bookings
  tickets : u.disp.tickets = e.disp.tickets
  ports : u.ports = e.ports
  host : u.host = (e.host.posts (if (s.line l).faultMark = true ∧ (s.line l).mismatches = 0 then
    [{ cls := .routine, clock := s.part.clock, body := .lineState l .fault .idle, gap := false }] else [])).choose

theorem State.hearsStatus_of (s : State) (l : Bank) (t : Transaction) (e : State) (lines : e.lines = s.lines)
    (policy : e.policy = s.policy) (part : e.part = s.part) :
    s.hearsStatus l t e ((s.closeCars e).endTransaction l t).choose := by
  obtain ⟨v, closed⟩ : ∃ v, v = s.closeCars e := ⟨_, rfl⟩
  have ends := v.endTransaction_only l t
  have old : v.line l = { s.line l with queue := (v.line l).queue } := by
    have keeps := s.closeCars_line_keeps e l
    rwa [← closed, State.line, State.line, lines] at keeps
  have bank : v.bank l = s.bank l := by
    rw [State.bank, closed, s.closeCars_only e .policy (by decide), policy, State.bank]
  have disp : (v.endTransaction l t).disp = v.disp := ends .disp (by decide)
  have partV : v.part = s.part := by rw [closed, s.closeCars_only e .part (by decide), part]
  have hostV : v.host = e.host := by rw [closed, s.closeCars_only e .host (by decide)]
  rw [← closed]
  refine ⟨?_, fun b c => ?_, ?_, ?_, ?_, ?_, ?_, ?_⟩
  · rw [State.line_choose, State.endTransaction_line_self, bank, ← closed, ← old]
  · rw [← s.closeCars_car e b c, ← closed]
    unfold State.car
    rw [← disp]
    rfl
  · exact (congrArg DispatchBlock.modes disp).trans (by rw [closed, State.closeCars_modes])
  · exact (congrArg DispatchBlock.serial disp).trans (by rw [closed, State.closeCars_serial])
  · exact (congrArg DispatchBlock.bookings disp).trans (by rw [closed, State.closeCars_bookings])
  · exact (congrArg DispatchBlock.tickets disp).trans (by rw [closed, State.closeCars_tickets])
  · exact (ends .ports (by decide)).trans (by rw [closed, s.closeCars_only e .ports (by decide)])
  · show (v.endTransaction l t).host.choose = _
    have mark : (v.line l).faultMark = (s.line l).faultMark := by rw [old]
    have count : (v.line l).mismatches = (s.line l).mismatches := by rw [old]
    rw [State.endTransaction_host, mark, count, partV, hostV]
    split <;> rfl

section
variable {s : State} {l : Bank} {t : Transaction}
  {a position direction motion doors carMode load freshness held accepted : Byte} {calls : List Byte} {st : Status}

theorem exec_status_taken (awaiting : (s.line l).state = .awaiting) (open' : (s.line l).pausing = false)
    (inHand : (s.line l).inHand = some t) (address : a.toNat = t.car.val)
    (good : checkStatus position direction motion doors carMode load freshness held accepted calls = some st) :
    exec (.status l a position direction motion doors carMode load freshness held accepted calls) s =
      .next ((s.closeCars (s.takeStatus l t.car t.kind st)).endTransaction l t).choose := by
  have run : exec (.status l a position direction motion doors carMode load freshness held accepted calls) s =
      .next (s.hearAnswer l a
        ((checkStatus position direction motion doors carMode load freshness held accepted calls).map .status)).choose := rfl
  rw [run, good, State.hearAnswer_own awaiting open' inHand address]
  exact congrArg (fun u => Host.Outcome.next (State.choose u)) (State.takeAnswer_status s l t st)

end

/-! ### What the bytes of a STATUS hold (R131, R178, R182) -/

theorem directionOf_some {b : Byte} {d : Option Dir} (h : directionOf b = some d) :
    d = if b = 0 then none else if b = 1 then some .up else some .down := by
  simp only [← BitVec.toNat_inj]
  unfold directionOf at h
  split at h <;> cases h <;> simp [*]

theorem Motion.ofCode_some {b : Byte} {d : Motion} (h : Motion.ofCode b = some d) :
    d = if b = 0 then .stopped else .moving := by
  simp only [← BitVec.toNat_inj]
  unfold Motion.ofCode at h
  split at h <;> cases h <;> simp [*]

theorem Doors.ofCode_some {b : Byte} {d : Doors} (h : Doors.ofCode b = some d) :
    d = if b = 0 then .closed else if b = 1 then .opening else if b = 2 then .opened else .closing := by
  simp only [← BitVec.toNat_inj]
  unfold Doors.ofCode at h
  split at h <;> cases h <;> simp [*]

theorem CarMode.ofCode_some {b : Byte} {d : CarMode} (h : CarMode.ofCode b = some d) :
    d = if b = 0 then .normal else if b = 1 then .independent else if b = 2 then .inspection else .fire := by
  simp only [← BitVec.toNat_inj]
  unfold CarMode.ofCode at h
  split at h <;> cases h <;> simp [*]

theorem freshOf_some {b : Byte} {d : Bool} (h : freshOf b = some d) : d = true ↔ b = 1 := by
  rw [← BitVec.toNat_inj]
  unfold freshOf at h
  split at h <;> cases h <;> simp [*]

theorem callFloors_some {bs : List Byte} {fs : List Floor} (h : callFloors bs = some fs) :
    fs.map (fun f => f.val) = bs.map fun b => b.toNat := by
  induction bs generalizing fs with
  | nil =>
    cases h
    rfl
  | cons b bs ih =>
    rw [callFloors] at h
    split at h
    next f gs floor rest =>
      cases h
      rw [List.map_cons, List.map_cons, ih rest, floorOf_eq_some_iff.1 floor]
    next => cases h

theorem checkStatus_fields {position direction motion doors carMode load freshness held accepted : Byte} {calls : List Byte}
    {st : Status} (good : checkStatus position direction motion doors carMode load freshness held accepted calls = some st) :
    floorOf position.toNat = some st.position ∧ directionOf direction = some st.direction ∧
      Motion.ofCode motion = some st.motion ∧ Doors.ofCode doors = some st.doors ∧
      CarMode.ofCode carMode = some st.carMode ∧ freshOf freshness = some st.fresh ∧ callFloors calls = some st.calls ∧
      st.load = min load.toNat 150 ∧ st.accepted = if held.toNat = 0 then none else some accepted := by
  unfold checkStatus at good
  split at good
  · cases good
  · split at good
    next p d m dr cm fr cs hp hd hm hdr hcm hfr hcs =>
      cases good
      exact ⟨hp, hd, hm, hdr, hcm, hfr, hcs, rfl, rfl⟩
    next => cases good

theorem checkStatus_holds (position direction motion doors carMode load freshness held accepted : Byte) (calls : List Byte) :
    (checkStatus position direction motion doors carMode load freshness held accepted calls = none ↔
      statusBad position direction motion doors carMode freshness calls) ∧
    ∀ st, checkStatus position direction motion doors carMode load freshness held accepted calls = some st →
      st.position.val = position.toNat ∧
      st.direction = (if direction = 0 then none else if direction = 1 then some .up else some .down) ∧
      st.motion = (if motion = 0 then .stopped else .moving) ∧
      st.doors = (if doors = 0 then .closed else if doors = 1 then .opening else if doors = 2 then .opened else .closing) ∧
      st.carMode =
        (if carMode = 0 then .normal else if carMode = 1 then .independent else if carMode = 2 then .inspection
         else .fire) ∧
      st.load = min 150 load.toNat ∧ (st.fresh = true ↔ freshness = 1) ∧
      st.accepted = (if held = 0 then none else some accepted) ∧
      st.calls.map (fun f => f.val) = calls.map (fun f => f.toNat) := by
  refine ⟨checkStatus_eq_none_iff, fun st good => ?_⟩
  obtain ⟨position', direction', motion', doors', carMode', fresh', calls', load', accepted'⟩ := checkStatus_fields good
  refine ⟨floorOf_eq_some_iff.1 position', directionOf_some direction', Motion.ofCode_some motion',
    Doors.ofCode_some doors', CarMode.ofCode_some carMode', load'.trans (Nat.min_comm _ _), freshOf_some fresh', ?_,
    callFloors_some calls'⟩
  rw [accepted']
  exact if_congr byte_toNat_eq_zero_iff rfl rfl

/-! ### A STATUS for an ABSENT car (R89, R148) -/

theorem State.takeStatus_absent {s : State} {b : Bank} {c : CarNo} (absent : (s.car b c).service = .absent)
    (kind : CommandKind) (st : Status) : s.takeStatus b c kind st = s :=
  if_neg (by rw [Car.not_configured absent]; exact Bool.false_ne_true)

theorem State.takeStatus_configured {s : State} {b : Bank} {c : CarNo} (present : (s.car b c).service ≠ .absent)
    (kind : CommandKind) (st : Status) : s.takeStatus b c kind st = s.statusEvent b c kind st :=
  if_pos (Car.configured_iff.2 present)

theorem exec_status_absent (s : State) (l : Bank) (t : Transaction)
    (a position direction motion doors carMode load freshness held accepted : Byte) (calls : List Byte) (st : Status) :
    let r := s.line l
    let clears : Prop := r.faultMark = true ∧ r.mismatches = 0
    r.state = .awaiting → r.pausing = false → r.inHand = some t → a.toNat = t.car.val → s.transmitterOk →
    (s.car l t.car).service = .absent →
    checkStatus position direction motion doors carMode load freshness held accepted calls = some st →
    ∃ u, exec (.status l a position direction motion doors carMode load freshness held accepted calls) s = .next u ∧
      s.changesOnly [.lines, .host] u ∧ (∀ h, h ≠ l → u.line h = s.line h) ∧
      (u.line l).state = .idle ∧ (u.line l).inHand = none ∧ (u.line l).history = (t.kind :: r.history).take 2 ∧
      (t.source = .delivery → (u.line l).sweep = r.sweep ∧
        (t.car ∉ r.queue → (u.line l).queue = r.queue) ∧
        (t.car ∈ r.queue → (u.line l).queue = (r.queue.filter fun c => c ≠ t.car) ++ [t.car])) ∧
      (t.source = .sweep → (u.line l).queue = r.queue ∧
        ∀ p, r.sweep = some p → (u.line l).sweep = if p + 1 < (s.bank l).carCount then some (p + 1) else none) ∧
      (clears →
        (u.line l).faultMark = false ∧
          u.host = (s.host.post { cls := .routine, clock := s.part.clock, body := .lineState l .fault .idle,
                                  gap := false }).choose) ∧
      (¬ clears → (u.line l).faultMark = r.faultMark ∧ u.host = s.host) := by
  intro r clears awaiting open' inHand address sound absent good
  have closed : s.closeCars s = s := State.closeCars_of_cars_eq fun _ _ => rfl
  have run := exec_status_taken awaiting open' inHand address good
  rw [State.takeStatus_absent absent, closed] at run
  have line : (s.endTransaction l t).choose.line l =
      ({ r.finish t (s.bank l).carCount with state := .idle } : Line).cleared := State.endTransaction_line_self s l t
  obtain ⟨-, hand, history, -, mismatches, mark, -⟩ := Line.finish_fields r t (s.bank l).carCount
  obtain ⟨bySweep, byDelivery⟩ := Line.finish_source r t (s.bank l).carCount
  have host : (s.endTransaction l t).choose.host = (s.endTransaction l t).host.choose := rfl
  refine ⟨_, run, ?_, fun h ne => s.endTransaction_line_ne l t ne, ?_⟩
  · exact .step (State.choose_only _) ((s.endTransaction_only l t).mono (by decide))
  rw [line, host, State.endTransaction_host]
  refine ⟨rfl, hand, history, fun delivery => ?_, fun sweep => bySweep sweep, fun clears => ⟨?_, ?_⟩, fun stays => ⟨?_, ?_⟩⟩
  · obtain ⟨sweep, queue⟩ := byDelivery delivery
    exact ⟨sweep, fun out => queue.trans (if_neg out), fun listed => queue.trans (if_pos listed)⟩
  · show ((r.finish t (s.bank l).carCount).faultMark && _) = false
    rw [mark, mismatches, clears.2]
    exact Bool.and_false _
  · rw [if_pos clears]
  · show ((r.finish t (s.bank l).carCount).faultMark && !Decidable.decide ((r.finish t (s.bank l).carCount).mismatches = 0)) = _
    rw [mark, mismatches]
    cases marked : r.faultMark with
    | false => rfl
    | true =>
      have nonzero : r.mismatches ≠ 0 := fun e => stays ⟨marked, e⟩
      simp [nonzero]
  · rw [if_neg stays]
    exact congrArg State.host (State.choose_of_transmitterOk sound)

/-! ### A STATUS for a configured car -/

section
variable {s : State} {l : Bank} {t : Transaction} {st : Status} {u : State}
  (h : s.hearsStatus l t (s.statusEvent l t.car t.kind st) u)
include h

/-- The car after the close, up to its list, enabled set and generations. -/
theorem State.hearsStatus.car_eq :
    u.car l t.car =
      { s.shifted l t.car t.kind st with
        full := fullFlag (s.bank l).fullThreshold st.load (s.car l t.car).full, stops := (u.car l t.car).stops,
        planned := (u.car l t.car).planned, enabled := (u.car l t.car).enabled, gen := (u.car l t.car).gen,
        confirmed := (u.car l t.car).confirmed } := by
  have table := State.statusEvent_car (s := s) (b := l) (c := t.car) (kind := t.kind) (st := st)
  have fields := Car.closeGeneration_fields (s.car l t.car) ((s.statusEvent l t.car t.kind st).car l t.car)
  rw [← h.car] at fields
  generalize u.car l t.car = new at fields ⊢
  rw [fields, table]

theorem State.hearsStatus.service : (u.car l t.car).service = s.serviceGiven l t.car t.kind st :=
  congrArg Car.service h.car_eq

theorem State.hearsStatus.age : (u.car l t.car).age = some s.part.clock :=
  (congrArg Car.age h.car_eq).trans (congrArg Car.age (s.reported_eq l t.car t.kind st))

theorem State.hearsStatus.status : (u.car l t.car).status = ((s.car l t.car).takeFields s.now st).status := by
  rw [h.car_eq]
  show (s.reported l t.car t.kind st).status = _
  rw [State.reported_eq]

theorem State.hearsStatus.stale : (u.car l t.car).stale = (s.reported l t.car t.kind st).stale := by
  rw [h.car_eq]
  rfl

theorem State.hearsStatus.stale_eq : (u.car l t.car).stale = ((s.car l t.car).takeFields s.now st).stale := by
  rw [h.stale, State.reported_eq]

theorem State.hearsStatus.full :
    (u.car l t.car).full = fullFlag (s.bank l).fullThreshold st.load (s.car l t.car).full := congrArg Car.full h.car_eq

theorem State.hearsStatus.recallDue :
    (u.car l t.car).recallDue =
      if t.kind = .recallCar ∧ st.carMode = .fire then false else (s.car l t.car).recallDue :=
  (congrArg Car.recallDue h.car_eq).trans (congrArg Car.recallDue (s.reported_eq l t.car t.kind st))

/-- R83, R90: the generation and its confirmation. -/
theorem State.hearsStatus.generation (present : (s.car l t.car).service ≠ .absent) (still : (u.car l t.car).service ≠ .absent) :
    let old := s.car l t.car
    let new := u.car l t.car
    let same : Prop := (∀ k, k ∈ new.keys ↔ k ∈ old.keys) ∧ new.enabled = old.enabled
    (same → new.gen = old.gen ∧
      new.confirmed = (if st.accepted = some old.gen then some old.gen else old.confirmed)) ∧
    (¬ same → new.gen = old.gen + 1 ∧ new.confirmed = none) := by
  intro old new same
  obtain ⟨e, event⟩ : ∃ e, e = (s.statusEvent l t.car t.kind st).car l t.car := ⟨_, rfl⟩
  have closed : new = Car.closeGeneration old e := event ▸ h.car l t.car
  have table := State.statusEvent_car (s := s) (b := l) (c := t.car) (kind := t.kind) (st := st)
  rw [← event] at table
  have gen : e.gen = old.gen := table.gen.trans (s.reported_gen l t.car t.kind st)
  have confirmed : e.confirmed = if st.accepted = some old.gen then some old.gen else old.confirmed :=
    table.confirmed.trans (congrArg Car.confirmed (s.reported_eq l t.car t.kind st))
  have is : e.service ≠ .absent := by
    rw [show new.service = e.service by rw [closed, Car.closeGeneration_service]] at still
    exact still
  obtain ⟨stays, goes⟩ := Car.closeGeneration_cases present is
  have sets : same ↔ (∀ k, k ∈ e.keys ↔ k ∈ old.keys) ∧ e.enabled = old.enabled := by
    show ((∀ k, k ∈ new.keys ↔ k ∈ old.keys) ∧ new.enabled = old.enabled) ↔ _
    rw [closed, Car.closeGeneration_keys, Car.closeGeneration_enabled]
  refine ⟨fun yes => ?_, fun no => ?_⟩
  · rw [closed, stays (sets.1 yes)]
    exact ⟨gen, confirmed⟩
  · rw [closed, goes fun e => no (sets.2 e)]
    exact ⟨congrArg (· + 1) gen, rfl⟩

/-- R132, R138: the line after the end of its transaction. -/
theorem State.hearsStatus.line_fields :
    (u.line l).state = .idle ∧ (u.line l).inHand = none ∧ (u.line l).history = (t.kind :: (s.line l).history).take 2 ∧
      (u.line l).lastSweep = (s.line l).lastSweep ∧
      ((u.line l).faultMark = true ↔ (s.line l).faultMark = true ∧ (s.line l).mismatches ≠ 0) ∧
      (t.source = .sweep → ∀ p, (s.line l).sweep = some p →
        (u.line l).sweep = if p + 1 < (s.bank l).carCount then some (p + 1) else none) ∧
      (t.source = .delivery → (u.line l).sweep = (s.line l).sweep) := by
  rw [h.line]
  obtain ⟨r, hr⟩ : ∃ r : Line, r =
    { s.line l with queue := ((s.closeCars (s.statusEvent l t.car t.kind st)).line l).queue } := ⟨_, rfl⟩
  have sweeps : r.sweep = (s.line l).sweep := by rw [hr]
  have marks : r.faultMark = (s.line l).faultMark := by rw [hr]
  have counts : r.mismatches = (s.line l).mismatches := by rw [hr]
  have lasts : r.lastSweep = (s.line l).lastSweep := by rw [hr]
  have kinds : r.history = (s.line l).history := by rw [hr]
  rw [← hr]
  obtain ⟨-, hand, history, last, mismatches, mark, -⟩ := Line.finish_fields r t (s.bank l).carCount
  obtain ⟨bySweep, byDelivery⟩ := Line.finish_source r t (s.bank l).carCount
  rw [kinds] at history
  refine ⟨rfl, hand, history, last.trans lasts, ?_, fun sweep p held => (bySweep sweep).2 p (sweeps.trans held),
    fun delivery => (byDelivery delivery).1.trans sweeps⟩
  unfold Line.cleared
  simp only [mark, mismatches, marks, counts, Bool.and_eq_true, Bool.not_eq_true', decide_eq_false_iff_not, ne_eq]

/-- R95, R98, R138: the reports of a STATUS, from what its moves left of the host port. -/
theorem State.hearsStatus.host_eq :
    u.host = ((s.moved l t.car t.kind st).host.posts
      (s.serviceReports l t.car (s.car l t.car).service (s.serviceGiven l t.car t.kind st) ++
        if (s.line l).faultMark = true ∧ (s.line l).mismatches = 0 then
          [{ cls := .routine, clock := s.part.clock, body := .lineState l .fault .idle, gap := false }]
        else [])).choose := by
  rw [h.host, State.statusEvent_host, HostPort.posts_append]

end

theorem State.serviceReports_length_le (s : State) (b : Bank) (c : CarNo) (old new : Service) :
    (s.serviceReports b c old new).length ≤ 1 := by
  unfold State.serviceReports
  split
  · exact Nat.zero_le _
  · exact Nat.le_refl _

theorem fullFlag_of_ge {threshold load : Nat} (old : Bool) (h : threshold ≤ load) : fullFlag threshold load old = true := if_pos h

theorem fullFlag_of_lt {threshold load : Nat} (old : Bool) (h : load + 10 < threshold) :
    fullFlag threshold load old = false := by
  rw [fullFlag, if_neg (by omega), if_pos (by omega)]

theorem fullFlag_between {threshold load : Nat} (old : Bool) (low : load < threshold) (high : threshold ≤ load + 10) :
    fullFlag threshold load old = old := by
  rw [fullFlag, if_neg (by omega), if_neg (by omega)]

theorem Car.takeFields_fresh {c : Car} {now : Clock} {st : Status} (fresh : st.fresh = true) :
    (c.takeFields now st).status = some st ∧ (c.takeFields now st).stale = 0 := by
  unfold Car.takeFields
  rw [if_pos fresh]
  exact ⟨rfl, rfl⟩

theorem Car.takeFields_stale {c : Car} {now : Clock} {st : Status} (stale : st.fresh = false) :
    (c.takeFields now st).stale = min 10 (c.stale + 1) ∧
      ∃ x, (c.takeFields now st).status = some x ∧ x.carMode = st.carMode ∧ x.load = st.load ∧ x.accepted = st.accepted ∧
        (∀ y, c.status = some y → x.position = y.position ∧ x.direction = y.direction ∧ x.motion = y.motion ∧
          x.doors = y.doors ∧ x.calls = y.calls) ∧
        (c.status = none → x.position = 0 ∧ x.direction = none ∧ x.motion = .stopped ∧ x.doors = .closed ∧
          x.calls = []) := by
  unfold Car.takeFields
  rw [if_neg (by rw [stale]; exact Bool.false_ne_true)]
  refine ⟨rfl, _, rfl, rfl, rfl, rfl, fun y held => ?_, fun none => ?_⟩
  · rw [held]
    exact ⟨rfl, rfl, rfl, rfl, rfl⟩
  · rw [none]
    exact ⟨rfl, rfl, rfl, rfl, rfl⟩

/-- R91: a STATUS makes no configured car ABSENT. -/
theorem State.serviceGiven_ne_absent (s : State) (b : Bank) (c : CarNo) (kind : CommandKind) (st : Status) :
    s.serviceGiven b c kind st ≠ .absent := by
  unfold State.serviceGiven serviceByStatus serviceByReport
  repeat' split
  all_goals exact fun e => nomatch e

section
variable {s : State} {l : Bank} {t : Transaction} {st : Status} {u : State}
  (h : s.hearsStatus l t (s.statusEvent l t.car t.kind st) u)
include h

/-- R138: the LINE_STATE report of a cleared mark is in the queue, while there is room. -/
theorem State.hearsStatus.reports_cleared (mark : (s.line l).faultMark = true) (none : (s.line l).mismatches = 0)
    (enabled : s.host.enables.getLsbD 6 = true) (room : s.host.queue.length + s.disp.bookings.length + 2 ≤ 32) :
    ∃ x ∈ u.host.queue, x.cls = .routine ∧ x.clock = s.part.clock ∧ x.body = .lineState l .fault .idle := by
  obtain ⟨rs, few, moved⟩ := s.moved_host l t.car t.kind st
  have one := s.serviceReports_length_le l t.car (s.car l t.car).service (s.serviceGiven l t.car t.kind st)
  rw [h.host_eq, if_pos ⟨mark, none⟩, moved, ← HostPort.posts_append, ← List.append_assoc]
  exact HostPort.mem_choose (HostPort.mem_posts_of_room (rest := []) _ enabled (by
    rw [List.length_append, List.length_nil]
    omega))

/-- R95, R138: the reports of a STATUS, as the statement lists them. -/
theorem State.hearsStatus.posts (old new : Service) (was : old = (s.car l t.car).service)
    (is : new = (u.car l t.car).service) :
    let leaves : Prop := old = .inService ∧ new ≠ .inService
    let report : ReportClass → ReportBody → Report := fun cls body =>
      { cls := cls, clock := s.part.clock, body := body, gap := false }
    ∃ (x : Car) (v : State), x.service = new ∧
      (leaves → (s.setCar l t.car x).movesAll (s.waitingOn l t.car) v) ∧ (¬ leaves → v = s) ∧
      u.host =
        (v.host.posts
          ((if new = old then []
            else
              [report (if old = .inService ∨ new = .outOfContact ∨ new = .frozen then .urgent else .routine)
                (.carService l t.car old new)]) ++
            if (s.line l).faultMark = true ∧ (s.line l).mismatches = 0 then [report .routine (.lineState l .fault .idle)]
            else [])).choose := by
  intro leaves report
  have given : new = s.serviceGiven l t.car t.kind st := is.trans h.service
  have reports : s.serviceReports l t.car (s.car l t.car).service (s.serviceGiven l t.car t.kind st) =
      if new = old then []
      else [report (if old = .inService ∨ new = .outOfContact ∨ new = .frozen then .urgent else .routine)
        (.carService l t.car old new)] := by
    rw [← given, ← was]
    exact if_congr eq_comm rfl rfl
  have goes : leaves ↔ s.leavesBy l t.car t.kind st := by
    show (old = .inService ∧ new ≠ .inService) ↔ _
    rw [was, given]
    exact Iff.rfl
  have host := h.host_eq
  rw [reports] at host
  by_cases leave : s.leavesBy l t.car t.kind st
  · refine ⟨s.shifted l t.car t.kind st, s.moved l t.car t.kind st, given.symm, fun _ => ?_, fun no => absurd (goes.2 leave) no,
      host⟩
    rw [State.moved_of_leaves _ _ _ _ _ leave]
    exact State.loseCar_movesAll (s.setCar l t.car (s.shifted l t.car t.kind st)) l t.car
  · have same : (s.moved l t.car t.kind st).host = s.host := by
      rw [State.moved_of_stays _ _ _ _ _ leave]
      rfl
    rw [same] at host
    exact ⟨s.shifted l t.car t.kind st, s, given.symm, fun yes => absurd (goes.1 yes) leave, fun _ => rfl, host⟩

end

theorem exec_status_configured (s : State) (l : Bank) (t : Transaction)
    (a position direction motion doors carMode load freshness held accepted : Byte) (calls : List Byte) (st : Status) :
    let r := s.line l
    let old := s.car l t.car
    r.state = .awaiting → r.pausing = false → r.inHand = some t → a.toNat = t.car.val → old.service ≠ .absent →
    checkStatus position direction motion doors carMode load freshness held accepted calls = some st →
    ∃ u, exec (.status l a position direction motion doors carMode load freshness held accepted calls) s = .next u ∧
      s.changesOnly [.ports, .disp, .lines, .host] u ∧
      (u.line l).state = .idle ∧ (u.line l).inHand = none ∧ (u.line l).history = (t.kind :: r.history).take 2 ∧
      ((u.line l).faultMark = true ↔ r.faultMark = true ∧ r.mismatches ≠ 0) ∧
      (r.faultMark = true → r.mismatches = 0 → s.host.enables.getLsbD 6 = true →
        s.host.queue.length + s.disp.bookings.length + 2 ≤ 32 →
        ∃ x ∈ u.host.queue, x.cls = .routine ∧ x.clock = s.part.clock ∧ x.body = .lineState l .fault .idle) ∧
      u.disp.modes = s.disp.modes ∧ u.disp.serial = s.disp.serial ∧
      let new := u.car l t.car
      new.age = some s.part.clock ∧
      (st.fresh = true → new.status = some st ∧ new.stale = 0) ∧
      (st.fresh = false → new.stale = min 10 (old.stale + 1) ∧
        ∃ x, new.status = some x ∧ x.carMode = st.carMode ∧ x.load = st.load ∧ x.accepted = st.accepted ∧
          (∀ y, old.status = some y → x.position = y.position ∧ x.direction = y.direction ∧ x.motion = y.motion ∧
            x.doors = y.doors ∧ x.calls = y.calls) ∧
          (old.status = none → x.position = 0 ∧ x.direction = none ∧ x.motion = .stopped ∧ x.doors = .closed ∧
            x.calls = [])) ∧
      new.service =
        (if s.mode l = some .fireRecall then .recalled
         else if old.service = .recalled ∧ st.carMode ≠ .normal then .recalled
         else if (s.bank l).withdrawn.has t.car then .withdrawn
         else if new.stale = 10 then .frozen
         else if st.carMode = .normal then .inService
         else .carHeld) ∧
      ((s.bank l).fullThreshold ≤ st.load → new.full = true) ∧
      (st.load + 10 < (s.bank l).fullThreshold → new.full = false) ∧
      (st.load < (s.bank l).fullThreshold → (s.bank l).fullThreshold ≤ st.load + 10 → new.full = old.full) ∧
      new.recallDue = (if t.kind = .recallCar ∧ st.carMode = .fire then false else old.recallDue) ∧
      let same : Prop := (∀ k, k ∈ new.keys ↔ k ∈ old.keys) ∧ new.enabled = old.enabled
      (same →
        new.gen = old.gen ∧
          new.confirmed = (if st.accepted = some old.gen then some old.gen else old.confirmed)) ∧
      (¬ same → new.gen = old.gen + 1 ∧ new.confirmed = none) ∧
      (u.line l).lastSweep = r.lastSweep ∧
      (t.source = .sweep → ∀ p, r.sweep = some p →
        (u.line l).sweep = if p + 1 < (s.bank l).carCount then some (p + 1) else none) ∧
      (t.source = .delivery → (u.line l).sweep = r.sweep) ∧
      (s.dirtyOk →
        (t.source = .sweep → (u.line l).queue = s.dirtyOrder u l) ∧
        (t.source = .delivery → (u.line l).queue = deliveredOrder (s.dirtyOrder u l) t.car)) ∧
      let leaves : Prop := old.service = .inService ∧ new.service ≠ .inService
      let report : ReportClass → ReportBody → Report := fun cls body =>
        { cls := cls, clock := s.part.clock, body := body, gap := false }
      ∃ (x : Car) (v : State), x.service = new.service ∧
        (leaves → (s.setCar l t.car x).movesAll (s.waitingOn l t.car) v) ∧ (¬ leaves → v = s) ∧
        u.host =
          (v.host.posts
            ((if new.service = old.service then []
              else
                [report
                  (if old.service = .inService ∨ new.service = .outOfContact ∨ new.service = .frozen then .urgent
                   else .routine)
                  (.carService l t.car old.service new.service)]) ++
              if r.faultMark = true ∧ r.mismatches = 0 then [report .routine (.lineState l .fault .idle)]
              else [])).choose := by
  intro r old awaiting open' inHand address present good
  have run := exec_status_taken awaiting open' inHand address good
  rw [State.takeStatus_configured present] at run
  have h := s.hearsStatus_of l t _ (s.statusEvent_lines l t.car t.kind st) (s.statusEvent_policy l t.car t.kind st)
    (s.statusEvent_part l t.car t.kind st)
  generalize ((s.closeCars (s.statusEvent l t.car t.kind st)).endTransaction l t).choose = u at run h
  obtain ⟨idle, hand, history, last, mark, bySweep, byDelivery⟩ := h.line_fields
  have still : (u.car l t.car).service ≠ .absent := by
    rw [h.service]
    exact State.serviceGiven_ne_absent _ _ _ _ _
  obtain ⟨same, differs⟩ := h.generation present still
  refine ⟨u, run, exec_changesOnly run, idle, hand, history, mark, fun marked zero enabled room =>
    h.reports_cleared marked zero enabled room, ?_, ?_, h.age, fun fresh => ?_, fun stale => ?_, ?_, fun full => ?_,
    fun light => ?_, fun low high => ?_, h.recallDue, same, differs, last, bySweep, byDelivery, fun exact => ?_,
    h.posts _ _ rfl rfl⟩
  · rw [h.modes, State.statusEvent_modes]
  · rw [h.serial, State.statusEvent_serial]
  · rw [h.status, h.stale_eq]
    exact Car.takeFields_fresh fresh
  · rw [h.status, h.stale_eq]
    exact Car.takeFields_stale stale
  · rw [h.service, h.stale]
    rfl
  · rw [h.full]
    exact fullFlag_of_ge _ full
  · rw [h.full]
    exact fullFlag_of_lt _ light
  · rw [h.full]
    exact fullFlag_between _ low high
  · obtain ⟨goesOn, delivered⟩ := stepKeepsTheDirtyQueuesExact.2.2 _ s u l exact (by simp) (by simp) (by simp) run
    refine ⟨fun sweep => goesOn fun x ends => ?_, fun delivery => delivered t ⟨inHand, delivery, hand, by simp⟩⟩
    obtain ⟨held, delivery, -⟩ := ends
    obtain rfl := Option.some.inj (inHand.symm.trans held)
    rw [sweep] at delivery
    cases delivery

/-- Settles O44. -/
theorem statusIsTakenByTheCar : Obligations.StatusIsTakenByTheCar :=
  ⟨exec_status_configured, checkStatus_holds, exec_status_absent⟩

end Sys2Proof.Machine
end

section
/-! PROOF of O6 (R21, R46, R80, R84, R128, R149, R168): what the end of the start-up scan leaves in every block. -/

namespace Sys2Proof.Machine

/-! ### URGENT reports posted together (R173, R176) -/

/-- The host port after URGENT reports with these bodies, posted one after another at one moment. -/
def HostPort.urgents (h : HostPort) (clock : Clock) (bodies : List ReportBody) : HostPort :=
  bodies.foldl (fun h x => h.post { cls := .urgent, clock := clock, body := x, gap := false }) h

theorem HostPort.urgents_append (h : HostPort) (clock : Clock) (xs ys : List ReportBody) :
    h.urgents clock (xs ++ ys) = (h.urgents clock xs).urgents clock ys := List.foldl_append

theorem State.foldl_post_urgent {α : Type} (f : α → ReportBody) (xs : List α) (s : State) :
    xs.foldl (fun s x => s.post .urgent (f x)) s = s.setHost (s.host.urgents s.part.clock (xs.map f)) := by
  induction xs generalizing s with
  | nil => rfl
  | cons x xs ih =>
    rw [List.foldl_cons, ih]
    rfl

theorem dropUnsentRoutine_cons_urgent {r : Report} {q q' : List Report} {sending : Bool} (urgent : r.cls = .urgent)
    (drops : dropUnsentRoutine sending (r :: q) = some q') : q'.head? = some r := by
  have ne : r.cls ≠ .routine := by rw [urgent]; simp
  cases sending with
  | true =>
    rw [dropUnsentRoutine, if_pos rfl, if_neg ne] at drops
    obtain ⟨rest, -, rfl⟩ := Option.map_eq_some_iff.1 drops
    rfl
  | false =>
    rw [dropUnsentRoutine, if_neg Bool.false_ne_true, dropLastRoutine] at drops
    split at drops
    · cases drops
      rfl
    · rw [if_neg ne] at drops
      cases drops

/-- R176: an URGENT report at the head of the queue stays there when another is posted. -/
theorem HostPort.post_head {h : HostPort} {r x : Report} (urgent : x.cls = .urgent) (head : h.queue.head? = some x) :
    (h.post r).queue.head? = some x := by
  obtain ⟨q, queue⟩ : ∃ q, h.queue = x :: q := by
    cases hq : h.queue with
    | nil => rw [hq] at head; cases head
    | cons y q => rw [hq] at head; cases head; exact ⟨q, rfl⟩
  by_cases enabled : h.enables.getLsbD r.body.kind = true
  · by_cases room : h.queue.length < 32
    · rw [HostPort.post_of_room enabled room, HostPort.join_queue, queue]
      rfl
    · have full := Nat.le_of_not_lt room
      cases cls : r.cls with
      | routine => rw [HostPort.post_of_full_routine enabled full cls]; exact head
      | urgent =>
        cases goes : dropUnsentRoutine (h.tx = .sendingReport .routine) h.queue with
        | none => rw [HostPort.post_of_full_lost enabled full cls goes]; exact head
        | some q' =>
          rw [HostPort.post_of_full_replaces enabled full cls goes, HostPort.join_queue]
          rw [queue] at goes
          rw [List.head?_append, dropUnsentRoutine_cons_urgent urgent goes]
          rfl
  · rw [HostPort.post_of_disabled (Bool.eq_false_of_not_eq_true enabled)]
    exact head

theorem HostPort.urgents_head {x : Report} (urgent : x.cls = .urgent) (clock : Clock) (bodies : List ReportBody)
    {h : HostPort} (head : h.queue.head? = some x) : (h.urgents clock bodies).queue.head? = some x := by
  induction bodies generalizing h with
  | nil => exact head
  | cons y ys ih => exact ih (HostPort.post_head urgent head)

theorem HostPort.choose_head {h : HostPort} {x : Report} (head : h.queue.head? = some x) :
    h.choose.queue.head?.map (fun r => (r.cls, r.clock, r.body)) = some (x.cls, x.clock, x.body) := by
  have marked (cls : ReportClass) (g : Bool) :
      (markOldest cls g h.queue).head?.map (fun r => (r.cls, r.clock, r.body)) = some (x.cls, x.clock, x.body) := by
    cases hq : h.queue with
    | nil => rw [hq] at head; cases head
    | cons y q =>
      rw [hq] at head
      cases head
      unfold markOldest
      split <;> rfl
  unfold HostPort.choose
  split
  · split
    · rw [head]; rfl
    · split
      · rw [head]; rfl
      · split
        · rw [head]; rfl
        · exact marked _ _
  · rw [head]; rfl

/-! ### The state the scan leaves -/

theorem State.startCar_uncounted {s : State} {b : Bank} {c : CarNo} (off : (s.bank b).carCount ≤ c.val) :
    s.startCar b c = Car.reset ∧ s.startEnabled b c = 0 := by
  have no : s.counted b c = false := by simpa [State.counted] using off
  constructor
  · rw [State.startCar, if_neg (by simp [no])]
  · rw [State.startEnabled, if_neg (by simp [no])]

theorem State.startCar_fire {s : State} {b : Bank} {c : CarNo} (on : c.val < (s.bank b).carCount)
    (fire : s.startMode b = .fireRecall) :
    s.startCar b c = { Car.reset with service := .recalled, recallDue := true } ∧ s.startEnabled b c = 0 := by
  have yes : s.counted b c = true := by simpa [State.counted] using on
  constructor
  · rw [State.startCar, if_pos yes, if_pos fire]
  · rw [State.startEnabled, if_neg fun h => h.2 fire]

theorem State.startCar_ne {s : State} {b : Bank} {c : CarNo} (on : c.val < (s.bank b).carCount)
    (ne : s.startMode b ≠ .fireRecall) :
    s.startCar b c = { Car.reset with service := .outOfContact } ∧ s.startEnabled b c = s.openFree b := by
  have yes : s.counted b c = true := by simpa [State.counted] using on
  constructor
  · rw [State.startCar, if_pos yes, if_neg ne]
  · rw [State.startEnabled, if_pos ⟨yes, ne⟩]

theorem State.openFree_has (s : State) (b : Bank) (f : Floor) :
    (s.openFree b).has f = true ↔
      (s.floor f).state = .isOpen ∧ (s.floor f).kind ≠ .ordinary ∧ s.serves b f = true := by
  rw [State.openFree, has_floorSetOf_filter]
  simp [FloorRec.free, and_assoc]

theorem State.begun_mode (s : State) (b : Bank) : s.begun.mode b = some (s.startMode b) := by
  show Vector.get (Vector.ofFn _) _ = _
  rw [Vector.get_eq_getElem, Vector.getElem_ofFn]

/-- R80, R84, R154: a car of a bank in a mode at the end of the scan. -/
theorem State.begun_car_cases (s : State) (b : Bank) (c : CarNo) (x : Car) (hx : x = s.begun.car b c) :
    x.stops = [] ∧ x.status = none ∧ x.confirmed = none ∧ x.gen = 0 ∧ x.age = none ∧ x.stale = 0 ∧ x.planned = none ∧
      x.full = false ∧
      ((s.bank b).carCount ≤ c.val → x.service = .absent ∧ x.enabled = 0 ∧ x.recallDue = false) ∧
      (c.val < (s.bank b).carCount → s.startMode b = .fireRecall →
        x.service = .recalled ∧ x.enabled = 0 ∧ x.recallDue = true) ∧
      (c.val < (s.bank b).carCount → s.startMode b ≠ .fireRecall →
        x.service = .outOfContact ∧ x.recallDue = false ∧ ∀ f, x.enabled.has f = true ↔
          (s.floor f).state = .isOpen ∧ (s.floor f).kind ≠ .ordinary ∧ s.serves b f = true) := by
  rw [hx, State.begun_car]
  rcases Nat.lt_or_ge c.val (s.bank b).carCount with on | off
  · by_cases fire : s.startMode b = .fireRecall
    · obtain ⟨car, enabled⟩ := State.startCar_fire on fire
      rw [car, enabled]
      exact ⟨rfl, rfl, rfl, rfl, rfl, rfl, rfl, rfl, fun off => absurd on (Nat.not_lt.2 off),
        fun _ _ => ⟨rfl, rfl, rfl⟩, fun _ ne => absurd fire ne⟩
    · obtain ⟨car, enabled⟩ := State.startCar_ne on fire
      rw [car, enabled]
      exact ⟨rfl, rfl, rfl, rfl, rfl, rfl, rfl, rfl, fun off => absurd on (Nat.not_lt.2 off),
        fun _ h => absurd h fire, fun _ _ => ⟨rfl, rfl, s.openFree_has b⟩⟩
  · obtain ⟨car, enabled⟩ := State.startCar_uncounted off
    rw [car, enabled]
    exact ⟨rfl, rfl, rfl, rfl, rfl, rfl, rfl, rfl, fun _ => ⟨rfl, rfl, rfl⟩,
      fun on => absurd on (Nat.not_lt.2 off), fun on => absurd on (Nat.not_lt.2 off)⟩

/-- R21, R149: the two groups of reports, the one whole before the other. -/
theorem State.postStartGroups_host (s : State) :
    s.postStartGroups.host = s.host.urgents s.part.clock
        ((s.store.badPages.getD []).map (fun p => .storeFault p false) ++
          s.assertedBanks.map fun b => .recallInput b true) ∨
    s.postStartGroups.host = s.host.urgents s.part.clock
        (s.assertedBanks.map (fun b => .recallInput b true) ++
          (s.store.badPages.getD []).map fun p => .storeFault p false) := by
  have faultsFirst (s : State) : s.postScanFaults.postRecalls.host = s.host.urgents s.part.clock
      ((s.store.badPages.getD []).map (fun p => .storeFault p false) ++
        s.assertedBanks.map fun b => .recallInput b true) := by
    unfold State.postScanFaults State.postRecalls
    rw [State.foldl_post_urgent fun p => .storeFault p false, State.foldl_post_urgent fun b => .recallInput b true,
      HostPort.urgents_append]
    rfl
  have recallsFirst (s : State) : s.postRecalls.postScanFaults.host = s.host.urgents s.part.clock
      (s.assertedBanks.map (fun b => .recallInput b true) ++
        (s.store.badPages.getD []).map fun p => .storeFault p false) := by
    unfold State.postScanFaults State.postRecalls
    rw [State.foldl_post_urgent fun b => .recallInput b true, State.foldl_post_urgent fun p => .storeFault p false,
      HostPort.urgents_append]
    rfl
  unfold State.postStartGroups
  split
  · split
    · exact .inl (faultsFirst (s.setFree (s.freeCount + 1)))
    · exact .inr (recallsFirst (s.setFree (s.freeCount + 1)))
  · exact .inl (faultsFirst s)

/-- Settles O6. -/
theorem scanEndStartsEveryBlock : Obligations.ScanEndStartsEveryBlock := by
  intro s starting scanning faults recalls started posted
  have run : exec .startUpScanEnd s = .next (s.begun.post .urgent s.startedReport).postStartGroups.choose :=
    if_pos ⟨starting, scanning⟩
  have only := execStartUpScanEnd_only s
  have hosts := (s.begun.post .urgent s.startedReport).postStartGroups_host
  have host : (s.begun.post .urgent s.startedReport).postStartGroups.choose.host =
      (s.begun.post .urgent s.startedReport).postStartGroups.host.choose := rfl
  obtain ⟨t, ht⟩ : ∃ t, t = (s.begun.post .urgent s.startedReport).postStartGroups.choose := ⟨_, rfl⟩
  rw [← ht] at run only host
  have part := only .part (by decide)
  have disp := only .disp (by decide)
  have lines := only .lines (by decide)
  have ports := only .ports (by decide)
  have mode (b) : t.mode b = some (s.startMode b) :=
    (congrArg (fun d : DispatchBlock => d.modes.get b) disp).trans (s.begun_mode b)
  have car (b c) : t.car b c = s.begun.car b c := congrArg (fun d : DispatchBlock => d.cars.get (carIndex b c)) disp
  have line (l) : t.line l = s.startLine l := (congrArg (Vector.get · l) lines).trans (s.begun_line l)
  have groups : t.host = posted (started :: faults ++ recalls) ∨ t.host = posted (started :: recalls ++ faults) := by
    rw [host]
    exact hosts.imp (congrArg HostPort.choose) (congrArg HostPort.choose)
  refine ⟨t, run, part, mode, fun b c => ?_, fun l => ?_, fun p => ?_, congrArg DispatchBlock.bookings disp,
    congrArg DispatchBlock.tickets disp, congrArg DispatchBlock.serial disp, groups, fun empty enables => ?_, ?_⟩
  · obtain ⟨stops, status, confirmed, gen, age, stale, planned, full, off, fire, ne⟩ :=
      s.begun_car_cases b c (t.car b c) (car b c)
    rw [mode b]
    exact ⟨stops, status, confirmed, gen, age, stale, planned, full, off,
      fun on h => fire on (Option.some.inj h), fun on h => ne on fun e => h (congrArg some e)⟩
  · rw [line l]
    exact ⟨rfl, rfl, rfl, rfl, rfl, rfl, rfl, rfl, rfl, rfl, rfl, rfl⟩
  · exact (congrArg (Vector.get · p) ports).trans (s.begun_port p)
  · have on : HostPort.resetEnables.getLsbD 0 = true := by decide
    have first (h : HostPort) (bodies : List ReportBody) (eq : h = posted (started :: bodies)) :
        h.queue.head?.map (fun r => (r.cls, r.clock, r.body)) = some (.urgent, s.part.clock, started) := by
      rw [eq]
      refine HostPort.choose_head
        (x := { cls := .urgent, clock := s.part.clock, body := started, gap := false })
        (HostPort.urgents_head rfl s.part.clock bodies ?_)
      show (s.host.post _).queue.head? = _
      rw [HostPort.post_of_room (by rw [enables]; exact on) (by rw [empty]; decide), HostPort.join_queue, empty]
      rfl
    exact groups.elim (first _ _) (first _ _)
  · exact (s.begun_only.mono (cs := [.part, .ports, .disp, .lines, .host, .freeCount])).trans only.mono

end Sys2Proof.Machine
end

section
/-! PROOF of O35 and O36 (R64 to R73, R76, R77): the steps that deny, what step 6 resolves, and the ticket that leaves. -/

namespace Sys2Proof.Machine

/-! ### The tickets have no part in what a credential permits (R40) -/

theorem State.groupFloors_setTickets (s : State) (ts : List Ticket) (ns : List Byte) :
    (s.setTickets ts).groupFloors ns = s.groupFloors ns := by
  induction ns with
  | nil => rfl
  | cons n ns ih =>
    rw [State.groupFloors, ih]
    rfl

theorem State.permitted_setTickets (s : State) (ts : List Ticket) (r : Credential) :
    (s.setTickets ts).permitted r = s.permitted r := by
  unfold State.permitted
  rw [State.groupFloors_setTickets]
  rfl

/-! ### The badge's ticket for the home floor (R66) -/

section
variable {s : State} {x : Presentation} {home : Floor} {banks : BankSet} {r : Credential}

theorem State.ticketAt_some_iff (ok : s.ticketsOk) {y : Ticket} :
    s.ticketAt x.badge home = some y ↔ s.ticketHeld x home y := by
  obtain ⟨-, once, -⟩ := ok
  rw [State.ticketAt, State.ticketOf, Option.filter_eq_some_iff, decide_eq_true_eq]
  constructor
  · rintro ⟨found, transfer⟩
    exact ⟨List.mem_of_find?_eq_some found, by simpa using List.find?_some found, transfer⟩
  · rintro ⟨member, badge, transfer⟩
    refine ⟨?_, transfer⟩
    cases found : s.disp.tickets.find? fun t => t.badge = x.badge with
    | none => exact absurd badge (by simpa using List.find?_eq_none.1 found y member)
    | some z =>
      have same : z.badge = y.badge := by
        have := List.find?_some found
        rw [badge]
        simpa using this
      rw [List.inj_on_of_nodup_map once (List.mem_of_find?_eq_some found) member same]

theorem State.ticketAt_none_iff (ok : s.ticketsOk) :
    s.ticketAt x.badge home = none ↔ ∀ y, ¬ s.ticketHeld x home y := by
  rw [Option.eq_none_iff_forall_ne_some]
  exact forall_congr' fun y => not_congr (State.ticketAt_some_iff ok)

/-- R66: does the presentation use the badge's ticket? -/
def State.usesTicket (s : State) (x : Presentation) (home : Floor) : Bool :=
  (usedTicket (s.ticketAt x.badge home) x.floor).isSome

theorem State.usedTicket_some_iff (ok : s.ticketsOk) {y : Ticket} :
    usedTicket (s.ticketAt x.badge home) x.floor = some y ↔ s.ticketUsed x home y := by
  rw [usedTicket, Option.filter_eq_some_iff, State.ticketAt_some_iff ok, State.ticketUsed]
  simp

theorem State.usesTicket_iff (ok : s.ticketsOk) : s.usesTicket x home = true ↔ ∃ y, s.ticketUsed x home y := by
  rw [State.usesTicket, Option.isSome_iff_exists]
  exact exists_congr fun y => State.usedTicket_some_iff ok

theorem State.usedTicket_none_iff (ok : s.ticketsOk) :
    usedTicket (s.ticketAt x.badge home) x.floor = none ↔ ∀ y, ¬ s.ticketUsed x home y := by
  rw [Option.eq_none_iff_forall_ne_some]
  exact forall_congr' fun y => not_congr (State.usedTicket_some_iff ok)

/-! ### What step 6 resolves without a ticket (R67) -/

theorem State.route_isSome_iff {d : Floor} : (s.route home banks d).isSome = true ↔ s.reaches home banks d := by
  by_cases reach : s.reaches home banks d
  · simp only [reach, iff_true]
    by_cases near : ∃ b, s.direct home banks d b
    · rw [State.route_of_direct near]
      rfl
    · rw [State.route_of_transfer (not_exists.1 near) (reach.resolve_left near)]
      rfl
  · rw [State.route_of_not_reaches reach]
    simp [reach]

theorem State.mem_candidateFloors {f : Floor} :
    f ∈ s.candidateFloors (s.permitted r) home banks ↔ s.candidateFloor r home banks f := by
  rw [State.candidateFloors, List.mem_filter, State.candidateFloor, ← State.route_isSome_iff]
  simp [allFloors, FloorRec.free, and_assoc]

theorem State.candidateFloors_eq_singleton_iff {d : Floor} :
    s.candidateFloors (s.permitted r) home banks = [d] ↔ ∀ f, s.candidateFloor r home banks f ↔ f = d := by
  have once : (s.candidateFloors (s.permitted r) home banks).Nodup := (List.nodup_finRange 128).filter _
  constructor
  · intro only f
    rw [← State.mem_candidateFloors, only, List.mem_singleton]
  · intro only
    refine List.perm_singleton.1 ((List.perm_ext_iff_of_nodup once (List.nodup_singleton d)).2 fun f => ?_)
    rw [State.mem_candidateFloors, only, List.mem_singleton]

theorem State.ownDestination_of_floor {f : Floor} (keyed : x.floor = some f) :
    s.ownDestination r (s.permitted r) home banks x.floor = some f := by
  rw [keyed]
  rfl

/-- R67 items 2 and 3: what `favours` says is what the engine takes. -/
theorem State.ownDestination_of_favours {d : Option Floor} (favours : s.favours r home banks d) :
    s.ownDestination r (s.permitted r) home banks none = d := by
  have default_none (off : ∀ f, r.defaultFloor = some f → (s.permitted r).has f = false) :
      r.defaultFloor.filter (fun f => (s.permitted r).has f) = none := by
    rw [Option.filter_eq_none_iff]
    intro f hf
    exact Bool.eq_false_iff.1 (off f hf)
  unfold State.ownDestination
  cases d with
  | some d =>
    rcases favours with ⟨default, permitted⟩ | ⟨off, only⟩
    · rw [default, Option.filter_some_pos permitted]
    · rw [default_none off, State.candidateFloors_eq_singleton_iff.2 only]
  | none =>
    obtain ⟨off, several⟩ := favours
    rw [default_none off]
    dsimp only
    split
    next f only => exact absurd ⟨f, State.candidateFloors_eq_singleton_iff.1 only⟩ several
    · rfl

/-! ### The decision from step 6 on -/

/-- R66: the state after a ticket that is not used has left. -/
def State.ticketDropped (s : State) (x : Presentation) (home : Floor) : State :=
  if supersededTicket (s.ticketAt x.badge home) x.floor then s.removeTicket x.badge else s

theorem State.ticketDropped_cases (s : State) (x : Presentation) (home : Floor) :
    s.ticketDropped x home = s ∨
      ((s.ticketAt x.badge home).isSome = true ∧ s.usesTicket x home = false ∧
        s.ticketDropped x home = s.removeTicket x.badge) := by
  unfold State.ticketDropped
  split
  next dropped =>
    obtain ⟨held, unused⟩ := Bool.and_eq_true_iff.1 dropped
    exact .inr ⟨held, by rw [State.usesTicket, ← Option.not_isNone, unused]; rfl, rfl⟩
  · exact .inl rfl

theorem State.ticketDropped_of_used (used : s.usesTicket x home = true) : s.ticketDropped x home = s := by
  rcases s.ticketDropped_cases x home with same | ⟨-, unused, -⟩
  · exact same
  · rw [used] at unused
    cases unused

/-- The engine reads the same floors, permissions and routes after a ticket has left. -/
theorem State.ticketDropped_ownDestination (requested : Option Floor) :
    (s.ticketDropped x home).ownDestination r ((s.ticketDropped x home).permitted r) home banks requested =
      s.ownDestination r (s.permitted r) home banks requested := by
  rcases s.ticketDropped_cases x home with same | ⟨-, -, same⟩
  · rw [same]
  · rw [same, State.removeTicket, State.permitted_setTickets]
    rfl

theorem State.decideJourney_of_unused (unused : usedTicket (s.ticketAt x.badge home) x.floor = none) :
    s.decideJourney x r home banks =
      match (s.ticketDropped x home).ownDestination r ((s.ticketDropped x home).permitted r) home banks x.floor with
      | none => (s.ticketDropped x home).deny x .noDestination none
      | some d => (s.ticketDropped x home).decideTrip x r home banks d false := by
  rw [State.decideJourney, unused] <;> rfl

theorem State.decideJourney_of_none (ok : s.ticketsOk) (none : s.resolves x r home banks none) :
    s.decideJourney x r home banks = (s.ticketDropped x home).deny x .noDestination .none := by
  obtain ⟨unused, floor, favours⟩ := none
  have own : (s.ticketDropped x home).ownDestination r ((s.ticketDropped x home).permitted r) home banks x.floor = .none := by
    rw [State.ticketDropped_ownDestination, floor, State.ownDestination_of_favours favours]
  rw [State.decideJourney_of_unused ((State.usedTicket_none_iff ok).2 unused), own]

theorem State.decideJourney_of_some {d : Floor} (ok : s.ticketsOk) (some : s.resolves x r home banks (some d)) :
    s.decideJourney x r home banks =
      (s.ticketDropped x home).decideTrip x r home banks d (s.usesTicket x home) := by
  rcases some with ⟨y, used, rfl⟩ | ⟨unused, floor⟩
  · have is : s.usesTicket x home = true := (State.usesTicket_iff ok).2 ⟨y, used⟩
    rw [State.ticketDropped_of_used is, is]
    simp only [State.decideJourney, (State.usedTicket_some_iff ok).2 used]
  · have own : (s.ticketDropped x home).ownDestination r ((s.ticketDropped x home).permitted r) home banks x.floor =
        .some d := by
      rw [State.ticketDropped_ownDestination]
      rcases floor with keyed | ⟨floor, favours⟩
      · exact State.ownDestination_of_floor keyed
      · rw [floor, State.ownDestination_of_favours favours]
    have unusedTicket := (State.usedTicket_none_iff ok).2 unused
    rw [State.usesTicket, unusedTicket]
    rw [State.decideJourney_of_unused unusedTicket, own]
    rfl

/-! ### Steps 7 to 13 do not see whether the badge's own ticket has left -/

theorem State.findCar_setTickets {d : Floor} {override : Bool} {badge : Badge} {units : Nat} (ts : List Ticket)
    (room : ∀ q, (s.setTickets ts).ticketRoom badge q = s.ticketRoom badge q) :
    (s.setTickets ts).findCar badge override home banks d units = s.findCar badge override home banks d units := by
  have route : (s.setTickets ts).route home banks d = s.route home banks d := rfl
  have filter (q) : (s.setTickets ts).filterRoute override d q = s.filterRoute override d q := by cases q <;> rfl
  have free : (s.setTickets ts).freeId = s.freeId := rfl
  have choose (q) : (s.setTickets ts).chooseCar home d units q = s.chooseCar home d units q := by cases q <;> rfl
  simp only [State.findCar, route, filter, free, room, choose]

theorem State.ticketRoom_removeTicket (ok : s.ticketsOk) (held : (s.ticketAt x.badge home).isSome = true) (q : Route) :
    (s.removeTicket x.badge).ticketRoom x.badge q = s.ticketRoom x.badge q := by
  cases q with
  | direct bs => rfl
  | transfer ps =>
    obtain ⟨y, hy⟩ := Option.isSome_iff_exists.1 held
    obtain ⟨member, badge, -⟩ := (State.ticketAt_some_iff ok).1 hy
    have before : s.ticketRoom x.badge (.transfer ps) = true := by
      rw [← Bool.not_eq_false, State.ticketRoom_transfer_eq_false_iff]
      exact fun full => full.2 y member badge
    have fewer : (s.disp.tickets.filter fun t => t.badge ≠ x.badge).length < s.disp.tickets.length :=
      List.length_filter_lt_length_iff_exists.2 ⟨y, member, by simp [badge]⟩
    have after : (s.removeTicket x.badge).ticketRoom x.badge (.transfer ps) = true := by
      rw [← Bool.not_eq_false, State.ticketRoom_transfer_eq_false_iff]
      intro full
      have few := ok.1
      have many : 256 ≤ (s.disp.tickets.filter fun t => t.badge ≠ x.badge).length := full.1
      omega
    rw [before, after]

theorem State.ticketDropped_testTrip {d : Floor} (ok : s.ticketsOk) (badge : r.badge = x.badge) :
    (s.ticketDropped x home).testTrip r home banks d = s.testTrip r home banks d := by
  rcases s.ticketDropped_cases x home with same | ⟨held, -, same⟩
  · rw [same]
  · have found : (s.removeTicket x.badge).findCar r.badge (s.overrideFlag r) home banks d r.units =
        s.findCar r.badge (s.overrideFlag r) home banks d r.units :=
      State.findCar_setTickets _ (badge ▸ State.ticketRoom_removeTicket ok held)
    have floor : (s.removeTicket x.badge).testFloor ((s.removeTicket x.badge).permitted r) home d =
        s.testFloor (s.permitted r) home d := by
      rw [State.removeTicket, State.permitted_setTickets]
      rfl
    have override : (s.removeTicket x.badge).overrideFlag r = s.overrideFlag r := rfl
    rw [same, State.testTrip, State.testTrip, floor, override, found]

/-! ### Denials -/

/-- R76: the tickets that a DENY after step 6 leaves. -/
def State.ticketsDenied (s : State) (x : Presentation) (home : Floor) : List Ticket :=
  if (s.ticketAt x.badge home).isSome then s.disp.tickets.filter fun y => y.badge ≠ x.badge else s.disp.tickets

theorem State.ticketsDenied_eq {kept : List Ticket} (ok : s.ticketsOk)
    (held : (∃ y, s.ticketHeld x home y) → kept = s.disp.tickets.filter fun y => y.badge ≠ x.badge)
    (unheld : (∀ y, ¬ s.ticketHeld x home y) → kept = s.disp.tickets) : kept = s.ticketsDenied x home := by
  unfold State.ticketsDenied
  split
  next is =>
    obtain ⟨y, hy⟩ := Option.isSome_iff_exists.1 is
    exact held ⟨y, (State.ticketAt_some_iff ok).1 hy⟩
  next no => exact unheld ((State.ticketAt_none_iff ok).1 (by simpa using no))

theorem State.ticketDropped_of_unused (unused : s.usesTicket x home = false) :
    s.ticketDropped x home = s.setTickets (s.ticketsDenied x home) := by
  have unused' : (usedTicket (s.ticketAt x.badge home) x.floor).isNone = true := by
    rw [← Option.not_isSome]
    exact congrArg not unused
  unfold State.ticketDropped State.ticketsDenied supersededTicket
  rw [unused', Bool.and_true]
  split <;> rfl

/-- R76: the ticket for the home floor, used or not, has left when steps 7 to 13 deny. -/
theorem State.decideTrip_denies {d : Floor} {e : DenyReason} (ok : s.ticketsOk) (badge : r.badge = x.badge)
    (refused : s.testTrip r home banks d = .error e) :
    (s.ticketDropped x home).decideTrip x r home banks d (s.usesTicket x home) =
      (s.setTickets (s.ticketsDenied x home)).deny x e (some d) := by
  rw [State.decideTrip, State.ticketDropped_testTrip ok badge, refused]
  dsimp only
  cases used : s.usesTicket x home with
  | true =>
    have held : (s.ticketAt x.badge home).isSome = true := by
      cases h : s.ticketAt x.badge home with
      | none => rw [State.usesTicket, h] at used; cases used
      | some y => rfl
    rw [State.ticketDropped_of_used used, State.ticketsDenied, if_pos held]
    rfl
  | false => rw [State.ticketDropped_of_unused used] <;> rfl

/-- R60, R76, R77: the state after a decision that denies. -/
theorem exec_decisionMoment_denies {kept : List Ticket} {e : DenyReason} {d : Option Floor}
    (hand : s.engine.inHand = some x) (entry : s.engine.entryCopy = some (home, banks))
    (denied : s.decide x home banks = (s.setTickets kept).deny x e d) :
    exec .decisionMoment s =
      .next (((((s.setTickets kept).setPort x.port
        (({ s.port x.port with slot := none, state := .answering } : Port).send (.deny e))).setHost
        (s.host.post { cls := denyClass e, clock := s.part.clock, body := .deny x.port x.badge e x.floor d,
                       gap := false })).setEngine
        { inHand := none, entryCopy := none, pointer := s.engine.pointer }).choose) := by
  have same : s.closeCars ((s.setTickets kept).deny x e d) = (s.setTickets kept).deny x e d :=
    State.closeCars_of_cars_eq fun _ _ => rfl
  rw [exec_decisionMoment_inHand hand entry, denied, same]
  rfl

theorem State.testCredential_ok (active : r.state = .active) (valid : s.valid r = true)
    (normal : (s.policy.tenants.get r.tenant).state = .normal) : s.testCredential r = .ok r := by
  simp [State.testCredential, active, valid, normal]

theorem State.decide_of_ok {p k : Nat} (found : s.store.lookup x.badge = .found r p k) (active : r.state = .active)
    (valid : s.valid r = true) (normal : (s.policy.tenants.get r.tenant).state = .normal) :
    s.decide x home banks = s.decideJourney x r home banks := by
  rw [State.decide, State.identify, found]
  dsimp only
  rw [State.testCredential_ok active valid normal]

theorem State.decide_of_error {e : DenyReason} (identified : s.identify x.badge = some (.error e)) :
    s.decide x home banks = (s.setTickets s.disp.tickets).deny x e none := by
  rw [State.decide, identified] <;> rfl

/-- R64, R65: the reason of steps 1 to 4. -/
theorem State.identify_error {badge : Badge} {e : DenyReason}
    (fails : (s.store.lookup badge = .missingBad ∧ e = .storeFault) ∨ (s.store.lookup badge = .missing ∧ e = .unknown) ∨
      ∃ r p k, s.store.lookup badge = .found r p k ∧
        ((r.state = .lost ∧ e = .lost) ∨ (r.state = .suspended ∧ e = .suspended) ∨
          (r.state = .active ∧ s.valid r = false ∧ e = .expired) ∨
          (r.state = .active ∧ s.valid r = true ∧ (s.policy.tenants.get r.tenant).state = .locked ∧
            e = .tenantLocked))) : s.identify badge = some (.error e) := by
  rcases fails with ⟨lookup, rfl⟩ | ⟨lookup, rfl⟩ | ⟨r, p, k, lookup, why⟩
  · rw [State.identify, lookup]
  · rw [State.identify, lookup]
  · rw [State.identify, lookup]
    dsimp only
    rcases why with ⟨state, rfl⟩ | ⟨state, rfl⟩ | ⟨state, invalid, rfl⟩ | ⟨state, valid, locked, rfl⟩
    · simp [State.testCredential, state]
    · simp [State.testCredential, state]
    · simp [State.testCredential, state, invalid]
    · simp [State.testCredential, state, valid, locked]

end

/-- A DENY after step 1 to 4 other than LOST is ROUTINE. -/
theorem State.refuses_ne_lost {s : State} {r : Credential} {home d : Floor} {banks : BankSet} {e : DenyReason}
    (refuses : s.refuses r home banks d e) : e ≠ .lost := by
  rintro rfl
  simp [State.refuses, State.filterReason] at refuses

/-- Settles O36. -/
theorem destinationRouteAndRoomStepsDeny : Obligations.DestinationRouteAndRoomStepsDeny := by
  intro s x home banks r p k d e kept hand entry found active valid normal ok resolves why held unheld
  have badge : r.badge = x.badge := (StoreBlock.lookup_found found).2
  have ne : e ≠ .lost := by
    rcases why with ⟨-, rfl⟩ | ⟨f, -, refuses⟩
    · simp
    · exact State.refuses_ne_lost refuses
  have denied : s.decide x home banks = (s.setTickets kept).deny x e d := by
    rw [State.decide_of_ok found active valid normal, State.ticketsDenied_eq ok held unheld]
    rcases why with ⟨rfl, rfl⟩ | ⟨f, rfl, refuses⟩
    · have unused : s.usesTicket x home = false :=
        Bool.eq_false_iff.2 fun used => not_exists.2 resolves.1 ((State.usesTicket_iff ok).1 used)
      rw [State.decideJourney_of_none ok resolves, State.ticketDropped_of_unused unused]
    · rw [State.decideJourney_of_some ok resolves,
        State.decideTrip_denies ok badge ((State.testTrip_eq_error_iff e).2 refuses)]
  rw [exec_decisionMoment_denies hand entry denied, denyClass, if_neg ne]

/-- Settles O35. -/
theorem credentialAndFloorStepsDeny : Obligations.CredentialAndFloorStepsDeny := by
  refine ⟨fun s x home banks e hand entry fails => ?_,
    fun s x home d banks r p k e hand entry found active valid normal noTicket keyed why => ?_⟩
  · exact exec_decisionMoment_denies hand entry (State.decide_of_error (State.identify_error fails))
  · have noTicketAt : s.ticketAt x.badge home = none := by
      rw [State.ticketAt, Option.filter_eq_none_iff]
      intro t ht
      have badge : t.badge = x.badge := by simpa using List.find?_some ht
      simpa using noTicket t (List.mem_of_find?_eq_some ht) badge
    have refused : s.testFloor (s.permitted r) home d = some e := by
      rcases why with ⟨same, rfl⟩ | ⟨ne, closed, rfl⟩ | ⟨ne, opened, off, rfl⟩
      · simp [State.testFloor, same]
      · simp [State.testFloor, ne, closed]
      · rw [State.testFloor, if_neg ne, if_neg (by rw [opened]; simp), off]
        rfl
    have denied : s.decide x home banks = (s.setTickets s.disp.tickets).deny x e (some d) := by
      rw [State.decide_of_ok found active valid normal, State.decideJourney, noTicketAt]
      simp only [usedTicket, supersededTicket, Option.filter_none, Option.isSome_none, Bool.false_and, keyed,
        State.ownDestination, State.decideTrip, State.testTrip, refused, Bool.false_eq_true, if_false] <;> rfl
    have ne : e ≠ .lost := by
      rcases why with ⟨-, rfl⟩ | ⟨-, -, rfl⟩ | ⟨-, -, -, rfl⟩ <;> simp
    rw [exec_decisionMoment_denies hand entry denied, denyClass, if_neg ne, keyed] <;> rfl

end Sys2Proof.Machine
end

section
/-! PROOF of O37 (R52, R53, R57, R69 to R75, R78, R79, R85, R87, R112, R113, R119, R123): what a grant leaves. -/

namespace Sys2Proof.Machine

/-! ### The superseded booking (R75) -/

/-- R75: the booking that the presentation's superseding mark names, WAITING with its badge and port. -/
def Presentation.replaces (x : Presentation) (j : Booking) : Bool :=
  x.supersedes = some j.id && j.state = .waiting && j.badge = x.badge && j.port = x.port

theorem Presentation.replaces_iff {x : Presentation} {j : Booking} :
    x.replaces j = true ↔ x.supersedes = some j.id ∧ j.state = .waiting ∧ j.badge = x.badge ∧ j.port = x.port := by
  simp [Presentation.replaces, and_assoc]

/-- The list of the one element that a search finds. -/
theorem filter_eq_find?_toList {α : Type} {p : α → Bool} {xs : List α} (once : xs.Nodup)
    (one : ∀ a ∈ xs, ∀ b ∈ xs, p a = true → p b = true → a = b) : xs.filter p = (xs.find? p).toList := by
  induction xs with
  | nil => rfl
  | cons x xs ih =>
    obtain ⟨fresh, once⟩ := List.nodup_cons.1 once
    cases hx : p x with
    | false =>
      rw [List.filter_cons_of_neg (by simp [hx]), List.find?_cons_of_neg (by simp [hx])]
      exact ih once fun a ha b hb => one a (List.mem_cons_of_mem _ ha) b (List.mem_cons_of_mem _ hb)
    | true =>
      rw [List.filter_cons_of_pos hx, List.find?_cons_of_pos hx]
      have rest : xs.filter p = [] := List.filter_eq_nil_iff.2 fun a ha hp =>
        fresh (one x List.mem_cons_self a (List.mem_cons_of_mem _ ha) hx hp ▸ ha)
      rw [rest]
      rfl

section
variable {s : State} {x : Presentation} {r : Credential} {home d : Floor} {banks : BankSet} {id : Nat} {c : Choice}
  {used : Bool}

/-- The booking that leaves at a grant. -/
def State.replaced (s : State) (x : Presentation) : Option Booking := s.disp.bookings.find? x.replaces

section
variable (once : (s.disp.bookings.map fun j => j.id).Nodup)
include once

theorem State.filter_replaces : s.disp.bookings.filter x.replaces = (s.replaced x).toList := by
  refine filter_eq_find?_toList (List.Nodup.of_map _ once) fun a ha b hb pa pb => ?_
  obtain ⟨na, -⟩ := Presentation.replaces_iff.1 pa
  obtain ⟨nb, -⟩ := Presentation.replaces_iff.1 pb
  exact List.inj_on_of_nodup_map once ha hb (Option.some.inj (na.symm.trans nb))

theorem State.mem_replaced {j : Booking} : j ∈ (s.replaced x).toList ↔ j ∈ s.disp.bookings ∧ x.replaces j = true := by
  rw [← State.filter_replaces once, List.mem_filter]

/-- The booking taken for superseded after the new one has joined the table is the one found before (log 14). -/
theorem State.granted_superseded (fresh : ∀ j ∈ s.disp.bookings, j.id ≠ id) :
    (s.granted x r home d id c used).superseded x id = s.replaced x := by
  have mem (j) : (s.granted x r home d id c used).superseded x id = some j ↔ j ∈ s.disp.bookings ∧ x.replaces j = true := by
    rw [Presentation.replaces_iff]
    unfold State.superseded
    cases named : x.supersedes with
    | none => simp
    | some i =>
      dsimp only
      split
      next same =>
        simp only [reduceCtorEq, Option.some.injEq, false_iff]
        rintro ⟨hj, e, -⟩
        exact fresh j hj (e ▸ same)
      next ne =>
        rw [State.findBooking, State.granted_bookings, Option.filter_eq_some_iff]
        have found : (s.disp.bookings ++ [s.newBooking x home d r.units id c used]).find? (fun k => k.id = i) =
            s.disp.bookings.find? fun k => k.id = i := by
          rw [List.find?_append]
          have off : [s.newBooking x home d r.units id c used].find? (fun k => k.id = i) = none := by
            rw [List.find?_cons_of_neg fun h => ne (of_decide_eq_true h).symm]
            rfl
          rw [off, Option.or_none]
        rw [found]
        constructor
        · rintro ⟨found, holds⟩
          have is : j.id = i := by simpa using List.find?_some found
          simp only [Bool.and_eq_true, decide_eq_true_eq, and_assoc] at holds
          exact ⟨List.mem_of_find?_eq_some found, by rw [is], holds⟩
        · rintro ⟨hj, e, holds⟩
          refine ⟨?_, by simpa [and_assoc] using holds⟩
          cases found : s.disp.bookings.find? fun k => k.id = i with
          | none => exact absurd (Option.some.inj e).symm (by simpa using List.find?_eq_none.1 found j hj)
          | some k =>
            have is : k.id = i := by simpa using List.find?_some found
            rw [List.inj_on_of_nodup_map once (List.mem_of_find?_eq_some found) hj (is.trans (Option.some.inj e))]
  refine Option.ext fun j => ?_
  rw [mem j, ← State.mem_replaced once, Option.mem_toList]

end

/-! ### The tables after the grant -/

/-- R74, R75: the state of a grant with its superseded booking cancelled, before it answers. -/
def State.cleared (s : State) (x : Presentation) (r : Credential) (home d : Floor) (id : Nat) (c : Choice) (used : Bool) :
    State := (s.granted x r home d id c used).cancelAll .superseded (s.replaced x).toList

theorem State.cleared_eq (once : (s.disp.bookings.map fun j => j.id).Nodup) (fresh : ∀ j ∈ s.disp.bookings, j.id ≠ id) :
    (s.granted x r home d id c used).cancelSuperseded ((s.granted x r home d id c used).superseded x id) =
      s.cleared x r home d id c used := by
  rw [State.granted_superseded once fresh, State.cleared]
  cases s.replaced x <;> rfl

/-- R52, R57: the port after a grant. -/
def State.grantedPort (w : State) (s : State) (x : Presentation) (home d : Floor) (units id : Nat) (c : Choice)
    (used : Bool) : Port :=
  ((w.port x.port).remember (w.grantMemory d c (s.newBooking x home d units id c used))).decided (w.grantAnswer d c)

theorem State.grant_eq (once : (s.disp.bookings.map fun j => j.id).Nodup) (fresh : ∀ j ∈ s.disp.bookings, j.id ≠ id) :
    s.grant x r home d id c used =
      ((s.cleared x r home d id c used).setPort x.port
        ((s.cleared x r home d id c used).grantedPort s x home d r.units id c used)).post .routine
        (grantReport d c (s.newBooking x home d r.units id c used) (s.replaced x)) := by
  rw [← State.cleared_eq once fresh, ← State.granted_superseded (r := r) (home := home) (d := d) (c := c) (used := used)
    once fresh]
  rfl

theorem State.granted_host : (s.granted x r home d id c used).host = s.host := by
  unfold State.granted State.grantTicket
  split
  · rfl
  · split <;> rfl

theorem State.granted_part : (s.granted x r home d id c used).part = s.part := by
  unfold State.granted State.grantTicket
  split
  · rfl
  · split <;> rfl

theorem State.granted_policy : (s.granted x r home d id c used).policy = s.policy := by
  unfold State.granted State.grantTicket
  split
  · rfl
  · split <;> rfl

theorem State.granted_ports : (s.granted x r home d id c used).ports = s.ports := by
  unfold State.granted State.grantTicket
  split
  · rfl
  · split <;> rfl

theorem State.granted_serial : (s.granted x r home d id c used).disp.serial = s.disp.serial + 1 := by
  unfold State.granted State.grantTicket
  split
  · rfl
  · split <;> rfl

theorem State.cleared_bookings (once : (s.disp.bookings.map fun j => j.id).Nodup)
    (fresh : ∀ j ∈ s.disp.bookings, j.id ≠ id) :
    (s.cleared x r home d id c used).disp.bookings =
      (s.disp.bookings.filter fun j => !x.replaces j) ++ [s.newBooking x home d r.units id c used] := by
  rw [State.cleared, State.cancelAll_bookings, State.granted_bookings, List.filter_append]
  congr 1
  · refine List.filter_congr fun j hj => ?_
    rw [Bool.eq_iff_iff, List.all_eq_true, Bool.not_eq_true']
    simp only [State.mem_replaced once, decide_eq_true_eq]
    constructor
    · intro other
      by_contra leaves
      exact other j ⟨hj, Bool.eq_true_of_not_eq_false leaves⟩ rfl
    · rintro stays k ⟨hk, leaves⟩ same
      rw [List.inj_on_of_nodup_map once hj hk same, leaves] at stays
      cases stays
  · refine List.filter_eq_self.2 fun j hj => ?_
    rw [List.mem_singleton.1 hj, List.all_eq_true]
    intro k hk
    exact decide_eq_true (Ne.symm (fresh k ((State.mem_replaced once).1 hk).1))

theorem State.cleared_modes : (s.cleared x r home d id c used).disp.modes = s.disp.modes := by
  rw [State.cleared, State.cancelAll_modes, State.granted_modes]

theorem State.cleared_serial : (s.cleared x r home d id c used).disp.serial = s.disp.serial + 1 := by
  rw [State.cleared, State.cancelAll_serial, State.granted_serial]

theorem State.cleared_policy : (s.cleared x r home d id c used).policy = s.policy := by
  rw [State.cleared, State.cancelAll_policy, State.granted_policy]

theorem State.cleared_part : (s.cleared x r home d id c used).part = s.part := by
  rw [State.cleared, State.cancelAll_part, State.granted_part]

theorem State.cleared_tickets :
    (s.cleared x r home d id c used).disp.tickets =
      (s.granted x r home d id c used).disp.tickets.filter fun y => !(s.replaced x).toList.any fun k => k.leads y :=
  State.cancelAll_tickets _ _ _

theorem State.cleared_port (once : (s.disp.bookings.map fun j => j.id).Nodup) (q : PortNo) :
    (s.cleared x r home d id c used).port q = { s.port q with memory := s.memoryWithout x.replaces q } := by
  have port : (s.granted x r home d id c used).port q = s.port q := congrArg (Vector.get · q) State.granted_ports
  rw [State.cleared, State.cancelAll_port, port, ← State.filter_replaces once]
  unfold State.memoryWithout Booking.heldBy
  simp only [List.any_filter, Bool.and_assoc]

theorem serialOrder_toList (o : Option Booking) : serialOrder o.toList = o.toList := by
  cases o <;> rfl

theorem State.cleared_host (once : (s.disp.bookings.map fun j => j.id).Nodup) :
    (s.cleared x r home d id c used).host = s.host.posts (s.cancelReports .superseded x.replaces) := by
  have report : (s.granted x r home d id c used).cancelledReport .superseded = s.cancelledReport .superseded := by
    funext k
    rw [State.cancelledReport, State.granted_part]
    rfl
  rw [State.cleared, State.cancelAll_host, State.granted_host, report, State.cancelReports, State.filter_replaces once,
    serialOrder_toList]
  rfl

/-- R53: no memory of another port is touched. -/
theorem State.memoryWithout_replaces_ne {q : PortNo} (ne : q ≠ x.port) :
    s.memoryWithout x.replaces q = (s.port q).memory := by
  unfold State.memoryWithout
  have none (m : GrantMemory) : (s.disp.bookings.any fun k =>
      x.replaces k && k.state = .waiting && k.port = q && k.id = m.booking) = false := by
    rw [List.any_eq_false]
    intro k _ holds
    simp only [Bool.and_eq_true, decide_eq_true_eq, Presentation.replaces_iff] at holds
    obtain ⟨⟨⟨⟨-, -, -, port⟩, -⟩, own⟩, -⟩ := holds
    exact ne (own.symm.trans port)
  simp only [none, Bool.not_false]
  cases (s.port q).memory <;> rfl

/-! ### The car of the new booking (R81, R85) -/

/-- The car's list holds the pickup entry of its booking. -/
def Car.picksUp (x : Car) (k : Key) : Prop := ∃ y ∈ x.stops, y.key = k ∧ y.pickup = true

theorem Car.resync_picksUp (x : Car) {bs : List Booking} (calls : List Key) {k : Booking} (on : k ∈ bs)
    (waits : k.state = .waiting) : (x.resync bs calls).picksUp k.pickupKey := by
  refine ⟨makeStop bs calls k.pickupKey,
    (x.mem_resync_stops bs calls).2 ⟨k.pickupKey, mem_dutyKeys.2 (.inl ⟨k, on, waits, rfl⟩), rfl⟩, rfl, ?_⟩
  exact List.any_eq_true.2 ⟨k, on, by simp [waits]⟩

theorem State.mem_carBookings {k : Booking} {b : Bank} {a : CarNo} :
    k ∈ s.carBookings b a ↔ k ∈ s.disp.bookings ∧ k.bank = b ∧ k.car = a := by
  simp [State.carBookings]

theorem State.place_picksUp (k : Booking) (waits : k.state = .waiting) :
    ((s.place k).car k.bank k.car).picksUp k.pickupKey := by
  show ((State.resyncKeep _ k.bank k.car).car k.bank k.car).picksUp k.pickupKey
  rw [State.resyncKeep, State.resync_self]
  refine Car.resync_picksUp _ _ (State.mem_carBookings.2 ⟨?_, rfl, rfl⟩) waits
  exact List.mem_append_right _ (List.mem_singleton.2 rfl)

/-- R87: a WAITING booking that leaves takes no other booking's pickup entry with it. -/
theorem State.cancel_picksUp {k j : Booking} {reason : CancelReason} (leaves : k.state = .waiting)
    (stays : j ∈ s.disp.bookings) (ne : j.id ≠ k.id) (waits : j.state = .waiting)
    (had : (s.car j.bank j.car).picksUp j.pickupKey) : ((s.cancel reason k).car j.bank j.car).picksUp j.pickupKey := by
  by_cases own : (j.bank, j.car) = (k.bank, k.car)
  · obtain ⟨bank, car⟩ := Prod.mk.inj own
    rw [State.cancel_car_eq, State.offCar, leaves]
    show ((State.resyncKeep _ k.bank k.car).car j.bank j.car).picksUp j.pickupKey
    rw [bank, car, State.resyncKeep, State.resync_self]
    refine Car.resync_picksUp _ _ (State.mem_carBookings.2 ⟨List.mem_filter.2 ⟨stays, decide_eq_true ne⟩, bank, car⟩) waits
  · rw [State.cancel_other _ _ _ own]
    exact had

theorem State.cleared_picksUp (once : (s.disp.bookings.map fun j => j.id).Nodup)
    (fresh : ∀ j ∈ s.disp.bookings, j.id ≠ id) :
    ((s.cleared x r home d id c used).car c.bank c.car).picksUp
      { floor := home, dir := if home < c.transfer.getD d then .up else .down } := by
  obtain ⟨k, hk⟩ : ∃ k, k = s.newBooking x home d r.units id c used := ⟨_, rfl⟩
  have kid : k.id = id := by rw [hk]; rfl
  have waits : k.state = .waiting := by rw [hk]; rfl
  have placed : ((s.granted x r home d id c used).car k.bank k.car).picksUp k.pickupKey := by
    unfold State.granted
    rw [State.grantTicket_car, ← hk]
    exact State.place_picksUp k waits
  have listed : k ∈ (s.granted x r home d id c used).disp.bookings := by
    rw [State.granted_bookings, hk]
    exact List.mem_append_right _ (List.mem_singleton.2 rfl)
  have kept : ((s.cleared x r home d id c used).car k.bank k.car).picksUp k.pickupKey := by
    unfold State.cleared
    cases found : s.replaced x with
    | none => exact placed
    | some j =>
      obtain ⟨hj, leaves⟩ := (State.mem_replaced (x := x) once).1 (Option.mem_toList.2 found)
      obtain ⟨-, jWaits, -⟩ := Presentation.replaces_iff.1 leaves
      exact State.cancel_picksUp jWaits listed (by rw [kid]; exact (fresh j hj).symm) waits placed
  rw [hk] at kept
  exact kept

/-! ### The port (R47, R52, R57) -/

theorem Port.decided_remember (q : Port) (m : GrantMemory) (a : Answer) :
    ((q.remember m).decided a).slot = none ∧ ((q.remember m).decided a).state = .answering ∧
      (q.shifter = none → ((q.remember m).decided a).shifter = some a ∧ ((q.remember m).decided a).buffer = q.buffer) ∧
      (∀ a', q.shifter = some a' →
        ((q.remember m).decided a).shifter = some a' ∧ ((q.remember m).decided a).buffer = some a) ∧
      (q.reload ≠ some false → ((q.remember m).decided a).memory = some m) ∧
      (q.reload = some false → ((q.remember m).decided a).memory = q.memory) := by
  unfold Port.remember Port.decided Port.send
  by_cases off : q.reload = some false
  · rw [if_pos off]
    cases shifter : q.shifter with
    | none => exact ⟨rfl, rfl, fun _ => ⟨rfl, rfl⟩, fun a' h => by simp at h, fun h => absurd off h, fun _ => rfl⟩
    | some a0 => exact ⟨rfl, rfl, fun h => by simp at h, fun a' h => ⟨h, rfl⟩, fun h => absurd off h, fun _ => rfl⟩
  · rw [if_neg off]
    cases shifter : q.shifter with
    | none => exact ⟨rfl, rfl, fun _ => ⟨rfl, rfl⟩, fun a' h => by simp at h, fun _ => rfl, fun h => absurd h off⟩
    | some a0 => exact ⟨rfl, rfl, fun h => by simp at h, fun a' h => ⟨h, rfl⟩, fun _ => rfl, fun h => absurd h off⟩

end

/-! ### The tickets (R66, R119, R123) -/

theorem State.ticketDropped_eq (s : State) (x : Presentation) (home : Floor) :
    s.ticketDropped x home = s.setTickets (s.ticketDropped x home).disp.tickets := by
  rcases s.ticketDropped_cases x home with same | ⟨-, -, same⟩
  · rw [same] <;> rfl
  · rw [same] <;> rfl

theorem State.ticketDropped_others (s : State) (x : Presentation) (home : Floor) :
    ((s.ticketDropped x home).disp.tickets.filter fun y => y.badge ≠ x.badge) =
      s.disp.tickets.filter fun y => y.badge ≠ x.badge := by
  rcases s.ticketDropped_cases x home with same | ⟨-, -, same⟩
  · rw [same]
  · rw [same]
    exact List.filter_eq_self.2 fun y hy => (List.mem_filter.1 hy).2

theorem State.ticketDropped_direct (s : State) (x : Presentation) (home : Floor) :
    (if s.usesTicket x home then (s.ticketDropped x home).disp.tickets.filter fun y => y.badge ≠ x.badge
      else (s.ticketDropped x home).disp.tickets) = s.ticketsDenied x home := by
  split
  next used =>
    have held : (s.ticketAt x.badge home).isSome = true := by
      cases h : s.ticketAt x.badge home with
      | none => rw [State.usesTicket, h] at used; cases used
      | some y => rfl
    rw [State.ticketDropped_others, State.ticketsDenied, if_pos held]
  next unused => rw [State.ticketDropped_of_unused (Bool.eq_false_iff.2 unused)] <;> rfl

theorem State.mem_ticketsDenied {s : State} {x : Presentation} {home : Floor} (ok : s.ticketsOk) {y : Ticket} :
    y ∈ s.ticketsDenied x home ↔ y ∈ s.disp.tickets ∧ (y.badge = x.badge → y.transfer ≠ home) := by
  unfold State.ticketsDenied
  split
  next held =>
    obtain ⟨z, hz⟩ := Option.isSome_iff_exists.1 held
    obtain ⟨member, badge, transfer⟩ := (State.ticketAt_some_iff ok).1 hz
    rw [List.mem_filter, decide_eq_true_eq]
    refine and_congr_right fun hy => ⟨fun ne e => absurd e ne, fun away e => ?_⟩
    have same : y = z := List.inj_on_of_nodup_map ok.2.1 hy member (e.trans badge.symm)
    exact away e (same ▸ transfer)
  next unheld =>
    have none := (State.ticketAt_none_iff ok).1 (by simpa using unheld)
    exact ⟨fun hy => ⟨hy, fun badge transfer => none y ⟨hy, badge, transfer⟩⟩, fun h => h.1⟩

/-- R119: the ticket that a transfer grant writes, field by field. -/
theorem State.eq_newTicket_iff {s : State} {x : Presentation} {r : Credential} {home d f : Floor} {id units : Nat}
    {c : Choice} {used : Bool} {y : Ticket} :
    y = s.newTicket (s.overrideFlag r) f d (s.newBooking x home d units id c used) ↔
      y.badge = x.badge ∧ y.transfer = f ∧ y.dest = d ∧ y.firstBank = c.bank ∧ y.firstLeg = some id ∧
        y.expiry = s.part.clock + BitVec.ofNat 32 (10 * s.policy.ticketLife) ∧
        ∀ h, y.onward.has h = true ↔ s.onwardTo f d h ∧ s.bankPasses r h := by
  have onward (h : Bank) : (bankSetOfList ((s.onwardBanks f d).filter (s.passes (s.overrideFlag r)))).has h = true ↔
      s.onwardTo f d h ∧ s.bankPasses r h := by
    rw [has_bankSetOfList, List.mem_filter, State.mem_onwardBanks, State.passes_iff]
  constructor
  · rintro rfl
    exact ⟨rfl, rfl, rfl, rfl, rfl, rfl, onward⟩
  · rintro ⟨badge, transfer, dest, firstBank, firstLeg, expiry, banks⟩
    have same : y.onward = bankSetOfList ((s.onwardBanks f d).filter (s.passes (s.overrideFlag r))) :=
      BitVec.eq_of_getLsbD_eq fun i hi => Bool.eq_iff_iff.2 ((banks ⟨i, hi⟩).trans (onward ⟨i, hi⟩).symm)
    cases y
    simp only at *
    subst badge transfer dest firstBank firstLeg expiry same
    rfl

/-- R66, R74, R87, R119: the tickets after a grant. -/
theorem State.mem_granted_tickets {s : State} {x : Presentation} {r : Credential} {home d : Floor} {id : Nat}
    {c : Choice} (ok : s.ticketsOk) (once : (s.disp.bookings.map fun j => j.id).Nodup)
    (fresh : ∀ j ∈ s.disp.bookings, j.id ≠ id) {u : State} (hu : u = s.ticketDropped x home) (y : Ticket) :
    y ∈ (u.cleared x r home d id c (s.usesTicket x home)).disp.tickets ↔
      (y ∈ s.disp.tickets ∧
          (y.badge = x.badge →
            c.transfer = none ∧ y.transfer ≠ home ∧
              ∀ j ∈ s.disp.bookings, x.replaces j = true → j.leg = .firstLeg → y.firstLeg ≠ some j.id)) ∨
        ∃ f, c.transfer = some f ∧ y.badge = x.badge ∧ y.transfer = f ∧ y.dest = d ∧ y.firstBank = c.bank ∧
          y.firstLeg = some id ∧ y.expiry = s.part.clock + BitVec.ofNat 32 (10 * s.policy.ticketLife) ∧
          ∀ h, y.onward.has h = true ↔ s.onwardTo f d h ∧ s.bankPasses r h := by
  have same : u = s.setTickets u.disp.tickets := by rw [hu]; exact s.ticketDropped_eq x home
  have bookings : u.disp.bookings = s.disp.bookings := by rw [same] <;> rfl
  have leads (y : Ticket) : (!(u.replaced x).toList.any fun k => k.leads y) = true ↔
      (y.badge = x.badge →
        ∀ j ∈ s.disp.bookings, x.replaces j = true → j.leg = .firstLeg → y.firstLeg ≠ some j.id) := by
    rw [Bool.not_eq_true', List.any_eq_false]
    have mem (j) : j ∈ (u.replaced x).toList ↔ j ∈ s.disp.bookings ∧ x.replaces j = true := by
      rw [← bookings]
      exact State.mem_replaced (bookings.symm ▸ once)
    constructor
    · intro all badge j hj replaces first named
      obtain ⟨-, -, own, -⟩ := Presentation.replaces_iff.1 replaces
      exact all j ((mem j).2 ⟨hj, replaces⟩) (by simp [Booking.leads, first, own, badge, named])
    · intro all j hj leads
      obtain ⟨hj, replaces⟩ := (mem j).1 hj
      obtain ⟨-, -, own, -⟩ := Presentation.replaces_iff.1 replaces
      simp only [Booking.leads, Bool.and_eq_true, decide_eq_true_eq] at leads
      obtain ⟨⟨first, badge⟩, named⟩ := leads
      exact all (badge.symm.trans own) j hj replaces first named
  rw [State.cleared_tickets, List.mem_filter, leads]
  cases via : c.transfer with
  | none =>
    rw [State.granted_tickets_of_direct via]
    have denied := s.ticketDropped_direct x home
    rw [← hu] at denied
    rw [denied, State.mem_ticketsDenied ok]
    simp only [reduceCtorEq, false_and, exists_false, or_false, true_and, and_assoc]
    exact and_congr_right fun _ => imp_and.symm
  | some f =>
    rw [State.granted_tickets_of_transfer via]
    have others := s.ticketDropped_others x home
    rw [← hu] at others
    have written : u.newTicket (u.overrideFlag r) f d (u.newBooking x home d r.units id c (s.usesTicket x home)) =
        s.newTicket (s.overrideFlag r) f d (s.newBooking x home d r.units id c (s.usesTicket x home)) := by
      rw [same] <;> rfl
    rw [others, written, List.mem_append, List.mem_singleton, State.eq_newTicket_iff, List.mem_filter,
      decide_eq_true_eq]
    simp only [reduceCtorEq, false_and, imp_false, Option.some.injEq, exists_eq_left']
    constructor
    · rintro ⟨⟨hy, ne⟩ | new, -⟩
      · exact .inl ⟨hy, ne⟩
      · exact .inr new
    · rintro (⟨hy, ne⟩ | new)
      · exact ⟨.inl ⟨hy, ne⟩, fun e => absurd e ne⟩
      · refine ⟨.inr new, fun _ j hj _ _ named => fresh j hj ?_⟩
        obtain ⟨-, -, -, -, first, -⟩ := new
        exact Option.some.inj (named.symm.trans first)

end Sys2Proof.Machine
end

section
/-! PROOF of O37: the grant as the decision moment leaves it. -/

namespace Sys2Proof.Machine

/-- R74, R78: what a grant does, read at the state before it (`u` is that state without a ticket that is not used). -/
theorem State.decide_grants {s : State} {x : Presentation} {home d : Floor} {banks : BankSet} {r : Credential}
    {p k id : Nat} {c : Choice} (found : s.store.lookup x.badge = .found r p k) (active : r.state = .active)
    (valid : s.valid r = true) (normal : (s.policy.tenants.get r.tenant).state = .normal) (ok : s.ticketsOk)
    (resolves : s.resolves x r home banks (some d)) (passes : s.testTrip r home banks d = .ok (id, c)) :
    s.decide x home banks = (s.ticketDropped x home).grant x r home d id c (s.usesTicket x home) := by
  rw [State.decide_of_ok found active valid normal, State.decideJourney_of_some ok resolves, State.decideTrip,
    State.ticketDropped_testTrip ok (StoreBlock.lookup_found found).2, passes]

/-- R79: the units of a car with one booking more. -/
theorem unitsOf_append (ks js : List Booking) : unitsOf (ks ++ js) = unitsOf ks + unitsOf js := by
  simp only [unitsOf_eq_sum, List.map_append, List.sum_append]

/-- R103: a lane that is not EXCLUDED is of a car in service with room. -/
theorem State.lane_included {s : State} {b : Bank} {t : Trip} {c : CarNo} (le : s.lane b t c ≤ 65534) :
    (s.car b c).service = .inService ∧ s.committed b c + t.units ≤ (s.bank b).capacity := by
  have off : s.lane b t c ≠ 65535 := by omega
  obtain ⟨excluded, -⟩ := lanesAndTheWinningCar.1 s b t c
  rw [ne_eq, excluded] at off
  simp only [not_or, not_not, Nat.not_lt] at off
  exact ⟨off.1, off.2.2.1⟩

theorem legOf_spec (transfer : Option Floor) (used : Bool) :
    (transfer ≠ none → legOf transfer used = .firstLeg) ∧
      (transfer = none → used = true → legOf transfer used = .secondLeg) ∧
      (transfer = none → ¬ used = true → legOf transfer used = .direct) := by
  cases transfer <;> cases used <;> simp [legOf]

/-- R60, R78: the state after a decision that grants, in terms of the tables it has changed (`w`). -/
structure State.grantedFrom (s w : State) (x : Presentation) (port : Port) (report : ReportBody) (t : State) : Prop where
  run : exec .decisionMoment s = .next t
  only : s.changesOnly [.ports, .engine, .disp, .lines, .host] t
  engine : t.engine = { inHand := none, entryCopy := none, pointer := s.engine.pointer }
  bookings : t.disp.bookings = w.disp.bookings
  tickets : t.disp.tickets = w.disp.tickets
  modes : t.disp.modes = w.disp.modes
  serial : t.disp.serial = w.disp.serial
  stops : ∀ b c, (t.car b c).stops = (w.car b c).stops
  port : t.port x.port = port
  other : ∀ q, q ≠ x.port → t.port q = w.port q
  host : t.host = (w.host.post { cls := .routine, clock := w.part.clock, body := report, gap := false }).choose

theorem State.exists_grantedFrom {s w : State} {x : Presentation} {home : Floor} {banks : BankSet} {port : Port}
    {report : ReportBody} (hand : s.engine.inHand = some x) (entry : s.engine.entryCopy = some (home, banks))
    (engine : w.engine = s.engine)
    (decides : s.decide x home banks = (w.setPort x.port port).post .routine report) :
    ∃ t, s.grantedFrom w x port report t := by
  obtain ⟨t, run, only⟩ := exec_leadsTo .decisionMoment s
  have run' := run
  rw [exec_decisionMoment_inHand hand entry, decides] at run'
  obtain ⟨v, hv⟩ : ∃ v, v = (w.setPort x.port port).post .routine report := ⟨_, rfl⟩
  rw [← hv] at run'
  have closed := s.closeCars_only v
  have mBookings := s.closeCars_bookings v
  have mTickets := s.closeCars_tickets v
  have mModes := s.closeCars_modes v
  have mSerial := s.closeCars_serial v
  have mCar := s.closeCars_car v
  obtain ⟨m, hm⟩ : ∃ m, m = s.closeCars v := ⟨_, rfl⟩
  rw [← hm] at run' closed mBookings mTickets mModes mSerial mCar
  have ht : t = m.engineIdle.choose := (Host.Outcome.next.inj run').symm
  have disp : t.disp = m.disp := by rw [ht]; rfl
  have vDisp : v.disp = w.disp := by rw [hv]; rfl
  have vEngine : v.engine = s.engine := by rw [hv, ← engine]; rfl
  have mEngine : m.engine = v.engine := closed .engine (by decide)
  have mHost : m.host = v.host := closed .host (by decide)
  have ports : t.ports = v.ports := by rw [ht]; exact closed .ports (by decide)
  have car (b c) : t.car b c = m.car b c := congrArg (fun e : DispatchBlock => e.cars.get (carIndex b c)) disp
  have vCar (b c) : v.car b c = w.car b c := congrArg (fun e : DispatchBlock => e.cars.get (carIndex b c)) vDisp
  refine ⟨t, run, only, ?_, ?_, ?_, ?_, ?_, fun b c => ?_, ?_, fun q ne => ?_, ?_⟩
  · rw [ht]
    show ({ m.engine with inHand := none, entryCopy := none } : Engine) = _
    rw [mEngine, vEngine]
  · rw [disp, mBookings, vDisp]
  · rw [disp, mTickets, vDisp]
  · rw [disp, mModes, vDisp]
  · rw [disp, mSerial, vDisp]
  · rw [car, mCar, Car.closeGeneration_stops, vCar]
  · have moved : v.port x.port = port := by rw [hv]; exact w.port_setPort_self x.port port
    exact (congrArg (Vector.get · x.port) ports).trans moved
  · have kept : v.port q = w.port q := by rw [hv]; exact w.port_setPort_ne _ _ _ (Ne.symm ne)
    exact (congrArg (Vector.get · q) ports).trans kept
  · have host : t.host = m.host.choose := by rw [ht]; rfl
    rw [host, mHost, hv]
    rfl

/-- R75: what the tickets that have left do not change. -/
theorem State.setTickets_replaced (s : State) (ts : List Ticket) (x : Presentation) :
    (s.setTickets ts).replaced x = s.replaced x := rfl

theorem State.cleared_engine {s : State} {x : Presentation} {r : Credential} {home d : Floor} {id : Nat} {c : Choice}
    {used : Bool} : (s.cleared x r home d id c used).engine = s.engine := by
  have granted : (s.granted x r home d id c used).engine = s.engine := by
    unfold State.granted State.grantTicket
    split
    · rfl
    · split <;> rfl
  rw [State.cleared, (State.granted _ _ _ _ _ _ _ _).cancelAll_only _ _ .engine (by decide)]
  exact granted

/-- R79: every id below the lowest free one is in use. -/
theorem State.freeId_lowest {s : State} {id : Nat} (free : s.freeId = some id) :
    ∀ i < id, ∃ j ∈ s.disp.bookings, j.id = i := by
  intro i lt
  obtain ⟨-, n, hn, at_n, before⟩ := List.find?_eq_some_iff_getElem.1 free
  rw [List.getElem_range] at at_n
  have taken := before i (by omega)
  rw [List.getElem_range] at taken
  simpa using taken

/-- R52, R53: the memory of another port, and of the port itself, once a booking has been superseded. -/
theorem State.replaces_none {x : Presentation} (none : x.supersedes = none) (j : Booking) : x.replaces j = false := by
  simp [Presentation.replaces, none]

theorem State.cancelReports_nothing (s : State) (reason : CancelReason) {gone : Booking → Bool}
    (stay : ∀ j, gone j = false) : s.cancelReports reason gone = [] := by
  have none : s.disp.bookings.filter gone = [] := List.filter_eq_nil_iff.2 fun j _ => by simp [stay j]
  rw [State.cancelReports, none]
  rfl

theorem HostPort.posts_snoc (h : HostPort) (rs : List Report) (r : Report) : h.posts (rs ++ [r]) = (h.posts rs).post r :=
  h.posts_append rs [r]

/-- R173: a ROUTINE report joins an unfilled queue of a busy transmitter. -/
theorem HostPort.post_choose_queue {h : HostPort} {r : Report} (routine : r.cls = .routine)
    (enabled : h.enables.getLsbD r.body.kind = true) (room : h.queue.length < 32) (busy : h.tx ≠ .free) :
    (h.post r).choose.queue = h.queue ++ [r] := by
  rw [HostPort.post_of_room enabled room, HostPort.join_of_keeps (.inl routine)]
  exact congrArg HostPort.queue (HostPort.choose_of_ne (h := { h with queue := h.queue ++ [r] }) busy)

/-- R74, R75, R85, R87: the blocks after the new booking has joined and the superseded one has left (`w`). -/
structure State.books (s : State) (x : Presentation) (home : Floor) (k : Booking) (w : State) : Prop where
  bookings : w.disp.bookings = (s.disp.bookings.filter fun j => !x.replaces j) ++ [k]
  modes : w.disp.modes = s.disp.modes
  serial : w.disp.serial = s.disp.serial + 1
  policy : w.policy = s.policy
  part : w.part = s.part
  engine : w.engine = s.engine
  host : w.host = s.host.posts (s.cancelReports .superseded x.replaces)
  port : ∀ q, w.port q = { s.port q with memory := s.memoryWithout x.replaces q }
  picksUp : (w.car k.bank k.car).picksUp { floor := home, dir := if home < k.dest then .up else .down }

theorem State.cleared_books {s : State} {x : Presentation} {r : Credential} {home d : Floor} {id : Nat} {c : Choice}
    {used : Bool} (once : (s.disp.bookings.map fun j => j.id).Nodup) (fresh : ∀ j ∈ s.disp.bookings, j.id ≠ id) :
    s.books x home (s.newBooking x home d r.units id c used) (s.cleared x r home d id c used) :=
  ⟨State.cleared_bookings once fresh, State.cleared_modes, State.cleared_serial, State.cleared_policy,
    State.cleared_part, State.cleared_engine, State.cleared_host once, State.cleared_port once,
    State.cleared_picksUp once fresh⟩

section
variable {s w : State} {x : Presentation} {home d : Floor} {k : Booking} {c : Choice} (h : s.books x home k w)
include h

/-- R52, R74: what the port is told and remembers. -/
theorem State.books.answer : w.grantAnswer d c =
    .grant c.bank c.car (s.floor d).label false (c.transfer.map fun f => (s.floor f).label) := by
  have label : w.label = fun f => (s.floor f).label := by
    funext f
    rw [State.label, State.floor, h.policy] <;> rfl
  rw [State.grantAnswer, label]

theorem State.books.memory : w.grantMemory d c k =
    { badge := k.badge, booking := k.id, dest := d, time := s.part.clock, bank := c.bank, car := c.car,
      transfer := c.transfer } := by
  rw [State.grantMemory, State.now, h.part]

/-- R47, R52, R57: the port after the grant. -/
theorem State.books.atPort {q : Port}
    (atPort : q = ((w.port x.port).remember (w.grantMemory d c k)).decided (w.grantAnswer d c)) :
    q.slot = none ∧ q.state = .answering ∧
      ((s.port x.port).shifter = none →
        q.shifter = some (.grant c.bank c.car (s.floor d).label false (c.transfer.map fun f => (s.floor f).label)) ∧
          q.buffer = (s.port x.port).buffer) ∧
      (∀ a, (s.port x.port).shifter = some a → q.shifter = some a ∧
        q.buffer = some (.grant c.bank c.car (s.floor d).label false (c.transfer.map fun f => (s.floor f).label))) ∧
      ((s.port x.port).reload ≠ some false → q.memory = some
        { badge := k.badge, booking := k.id, dest := d, time := s.part.clock, bank := c.bank, car := c.car,
          transfer := c.transfer }) ∧
      ((s.port x.port).reload = some false → q.memory = s.memoryWithout x.replaces x.port) := by
  rw [atPort, h.answer, h.memory, h.port]
  exact Port.decided_remember _ _ _

theorem State.books.other {q : PortNo} (ne : q ≠ x.port) : w.port q = s.port q := by
  rw [h.port, State.memoryWithout_replaces_ne ne]

theorem State.books.committed {b : Bank} {c : CarNo} (none : x.supersedes = none) (bank : k.bank = b) (car : k.car = c) :
    w.committed b c = s.committed b c + k.units := by
  have all : (s.disp.bookings.filter fun j => !x.replaces j) = s.disp.bookings :=
    List.filter_eq_self.2 fun j _ => by rw [State.replaces_none none] <;> rfl
  have own : [k].filter (fun j => j.bank = b ∧ j.car = c) = [k] :=
    List.filter_eq_self.2 fun j hj => by rw [List.mem_singleton.1 hj, bank, car]; simp
  rw [State.committed, State.carBookings, h.bookings, all, List.filter_append, own, unitsOf_append]
  rfl

end

/-- Settles O37. -/
theorem grantMakesOneBooking : Obligations.GrantMakesOneBooking := by
  intro s x home d banks r p k id b c transfer hand entry found active valid normal bookingsOk ticketsOk resolves passes
    used goes cost
  have g := State.testTrip_ok passes
  have once := bookingsOk.1
  obtain ⟨below, new⟩ := State.freeId_spec g.free
  have fresh : ∀ j ∈ s.disp.bookings, j.id ≠ id := fun j hj e => new (e ▸ List.mem_map_of_mem hj)
  obtain ⟨inService, room⟩ := State.lane_included g.included
  obtain ⟨ts, dropped⟩ : ∃ ts, s.ticketDropped x home = s.setTickets ts := ⟨_, s.ticketDropped_eq x home⟩
  obtain ⟨usedFlag, hused⟩ : ∃ v, v = s.usesTicket x home := ⟨_, rfl⟩
  have usesIff : usedFlag = true ↔ used := hused ▸ State.usesTicket_iff ticketsOk
  obtain ⟨first, second, direct⟩ := legOf_spec transfer usedFlag
  have tickets := State.mem_granted_tickets (r := r) (d := d) (c := ⟨b, c, transfer⟩) ticketsOk once fresh dropped.symm
  have decides := State.decide_grants found active valid normal ticketsOk resolves passes
  rw [← hused] at tickets decides
  rw [dropped, State.grant_eq (s := s.setTickets ts) once fresh] at decides
  have books := State.cleared_books (s := s.setTickets ts) (x := x) (r := r) (home := home) (d := d)
    (c := ⟨b, c, transfer⟩) (used := usedFlag) once fresh
  obtain ⟨w, hw⟩ : ∃ w, w = (s.setTickets ts).cleared x r home d id ⟨b, c, transfer⟩ usedFlag := ⟨_, rfl⟩
  rw [← hw] at tickets decides books
  obtain ⟨t, h⟩ := State.exists_grantedFrom hand entry books.engine decides
  obtain ⟨slot, state, empty, sending, remembers, forgets⟩ := books.atPort h.port
  have host : t.host = (s.host.posts (s.cancelReports .superseded goes ++
      [{ cls := .routine, clock := s.part.clock, gap := false,
         body := .grant x.port x.badge id b c home d (legOf transfer usedFlag) transfer
           ((s.disp.bookings.find? goes).map fun j => j.id) }])).choose := by
    rw [h.host, books.host, books.part, HostPort.posts_snoc] <;> rfl
  refine ⟨t, legOf transfer usedFlag, h.run, h.only, h.engine, first, fun near u => second near (usesIff.2 u),
    fun near u => direct near fun e => u (usesIff.1 e), h.bookings.trans books.bookings, h.serial.trans books.serial,
    h.modes.trans books.modes, fun y => h.tickets ▸ tickets y, g.direct, fun f via => (g.transfer f via).2, fresh,
    State.freeId_lowest g.free, below, inService, room, g.included, fun none => ?_, ?_, slot, state, empty, sending,
    remembers, forgets, fun q ne => (h.other q ne).trans (books.other ne), host, fun none enabled short busy => ?_⟩
  · have same : t.committed b c = w.committed b c := by
      rw [State.committed, State.carBookings, h.bookings] <;> rfl
    rw [same]
    exact books.committed none rfl rfl
  · rw [h.stops]
    exact books.picksUp
  · have stay := State.cancelReports_nothing s .superseded (gone := goes) (State.replaces_none none)
    have nobody : s.disp.bookings.find? goes = .none :=
      List.find?_eq_none.2 fun j _ => Bool.eq_false_iff.1 (State.replaces_none none j)
    rw [host, stay, nobody, List.nil_append]
    exact HostPort.post_choose_queue rfl enabled short busy

end Sys2Proof.Machine
end

section
/-! PROOF of O46 (R98, R99, R115, R53, R87, R93): a STATUS that takes a car out of IN_SERVICE. -/

namespace Sys2Proof.Machine

/-! ### What a lane reads (R102 to R111) -/

/-- Two states whose car, its bookings, modes and policy agree cost a trip alike. -/
theorem State.lane_congr {s u : State} {b : Bank} {c : CarNo} (car : u.car b c = s.car b c)
    (bookings : u.carBookings b c = s.carBookings b c) (modes : u.disp.modes = s.disp.modes) (policy : u.policy = s.policy)
    (t : Trip) : u.lane b t c = s.lane b t c := by
  have committed : u.committed b c = s.committed b c := by rw [State.committed, bookings, State.committed]
  have drops : u.pendingDrops b c = s.pendingDrops b c := by
    rw [State.pendingDrops, State.waitingOn, bookings, State.pendingDrops, State.waitingOn]
  have bank : u.bank b = s.bank b := by rw [State.bank, policy, State.bank]
  have mode : u.mode b = s.mode b := by rw [State.mode, modes, State.mode]
  have floor (f) : u.floor f = s.floor f := by rw [State.floor, policy, State.floor]
  have budget : u.budget b c t = s.budget b c t := by rw [State.budget, car, drops, State.budget]
  have cap : u.capExcludes b c t = s.capExcludes b c t := by
    rw [State.capExcludes, mode, floor, bank, bookings, State.capExcludes]
  have serves (f) : u.serves b f = s.serves b f := by rw [State.serves, floor, State.serves]
  have excluded : u.laneExcluded b t c = s.laneExcluded b t c := by
    rw [State.laneExcluded, car, bank, committed, budget, cap, serves, serves, State.laneExcluded]
  have cost : u.laneCost b t c = s.laneCost b t c := by
    rw [State.laneCost, car, bank, committed, drops, State.laneCost]
  rw [State.lane, excluded, cost, State.lane]

theorem State.lane_of_out {s : State} {b : Bank} {c : CarNo} (out : (s.car b c).service ≠ .inService) (t : Trip) :
    s.lane b t c = 65535 :=
  (State.lane_eq_excluded_iff.2 (State.laneExcluded_iff.2 (.inl out)))

/-! ### What the moves of other bookings leave (R53, R99) -/

section
variable (s : State) (k : Booking)

theorem Port.bookingMoved_of_ne {q : Port} {id : Nat} {b : Bank} {c : CarNo}
    (ne : ∀ m, q.memory = some m → m.booking ≠ id) : q.bookingMoved id b c = q := by
  unfold Port.bookingMoved
  split
  next m held => exact if_neg (ne m held)
  next => rfl

/-- R53: a memory that holds the booking takes the new hall name. -/
theorem Port.bookingMoved_memory {q : Port} {m : GrantMemory} {b : Bank} {c : CarNo} (held : q.memory = some m) :
    (q.bookingMoved m.booking b c).memory = some { m with bank := b, car := c } := by
  unfold Port.bookingMoved
  rw [held]
  exact congrArg Port.memory (if_pos rfl)

theorem Port.bookingMoved_booking {q : Port} {id : Nat} {b : Bank} {c : CarNo} {m : GrantMemory}
    (held : (q.bookingMoved id b c).memory = some m) : ∃ n, q.memory = some n ∧ n.booking = m.booking := by
  unfold Port.bookingMoved at held
  split at held
  next n was =>
    split at held
    · cases held
      exact ⟨n, was, rfl⟩
    · exact ⟨m, held, rfl⟩
  next => exact ⟨m, held, rfl⟩

theorem State.movedTo_port (c : CarNo) (q : PortNo) :
    (s.movedTo k c).port q =
      if k.port = q then (s.port q).bookingMoved k.id k.bank c else s.port q := by
  show (State.announceMoved _ k.port k.id k.bank c).port q = _
  split
  next same =>
    subst same
    rw [State.announceMoved, State.port_setPort_self]
    rfl
  next ne =>
    rw [State.announceMoved, State.port_setPort_ne _ _ _ _ ne]
    rfl

/-- R53: the memory of another booking stays. -/
theorem State.moveBooking_memory_of_ne {q : PortNo} {m : GrantMemory} (held : (s.port q).memory = some m)
    (ne : m.booking ≠ k.id) : ((s.moveBooking k).port q).memory = some m := by
  rcases s.moveBooking_cases k with e | ⟨c, -, e⟩
  · rw [e, State.cancel_port]
    show ((s.port q).memory.filter fun m => !k.heldBy q m) = some m
    exact Option.filter_eq_some_iff.2 ⟨held, by simp [Booking.heldBy, ne.symm]⟩
  · rw [e, State.movedTo_port]
    split
    · rw [Port.bookingMoved_of_ne fun n has => by
        rw [held] at has
        cases has
        exact ne]
      exact held
    · exact held

theorem State.moveBooking_memory_booking {q : PortNo} {m : GrantMemory}
    (held : ((s.moveBooking k).port q).memory = some m) : ∃ n, (s.port q).memory = some n ∧ n.booking = m.booking := by
  rcases s.moveBooking_cases k with e | ⟨c, -, e⟩
  · rw [e, State.cancel_port] at held
    exact ⟨m, (Option.filter_eq_some_iff.1 held).1, rfl⟩
  · rw [e, State.movedTo_port] at held
    split at held
    · exact Port.bookingMoved_booking held
    · exact ⟨m, held, rfl⟩

theorem State.moveBooking_tickets {y : Ticket} (held : y ∈ (s.moveBooking k).disp.tickets) : y ∈ s.disp.tickets := by
  rcases s.moveBooking_cases k with e | ⟨c, -, e⟩
  · rw [e, State.cancel_tickets] at held
    exact (List.mem_filter.1 held).1
  · rw [e] at held
    exact held

end

section
variable (ks : List Booking)

theorem State.foldl_move_memory_of_ne {q : PortNo} {m : GrantMemory} (s : State) (held : (s.port q).memory = some m)
    (ne : ∀ k ∈ ks, m.booking ≠ k.id) : ((ks.foldl (fun s k => s.moveBooking k) s).port q).memory = some m := by
  induction ks generalizing s with
  | nil => exact held
  | cons k ks ih =>
    obtain ⟨first, rest⟩ := List.forall_mem_cons.1 ne
    exact ih _ (s.moveBooking_memory_of_ne k held first) rest

theorem State.foldl_move_memory_booking {q : PortNo} {m : GrantMemory} (s : State)
    (held : ((ks.foldl (fun s k => s.moveBooking k) s).port q).memory = some m) :
    ∃ n, (s.port q).memory = some n ∧ n.booking = m.booking := by
  induction ks generalizing s with
  | nil => exact ⟨m, held, rfl⟩
  | cons k ks ih =>
    obtain ⟨n, was, same⟩ := ih _ held
    obtain ⟨n', was', same'⟩ := s.moveBooking_memory_booking k was
    exact ⟨n', was', same'.trans same⟩

theorem State.foldl_move_tickets {y : Ticket} (s : State)
    (held : y ∈ (ks.foldl (fun s k => s.moveBooking k) s).disp.tickets) : y ∈ s.disp.tickets := by
  induction ks generalizing s with
  | nil => exact held
  | cons k ks ih => exact s.moveBooking_tickets k (ih _ held)

theorem State.foldl_move_event (s : State) : s.event (ks.foldl (fun s k => s.moveBooking k) s) :=
  .foldl (fun u k h => h.trans (u.moveBooking_event k)) (.refl s)

end

/-! ### The oldest WAITING booking (R99, R115) -/

section
variable {s : State} {b : Bank} {c : CarNo} (once : (s.disp.bookings.map fun k => k.id).Nodup)
include once

theorem State.waitingOn_ids_nodup : ((s.waitingOn b c).map fun k => k.id).Nodup := by
  rw [State.waitingOn, ((serialOrder_perm _).map _).nodup_iff]
  exact once.sublist ((List.filter_sublist.trans List.filter_sublist).map _)

/-- R98: the moves begin with the oldest WAITING booking, and the others are of other ids. -/
theorem State.loseCar_first {k : Booking} (first : (s.waitingOn b c).head? = some k) :
    ∃ ks : List Booking, s.loseCar b c = ks.foldl (fun s k => s.moveBooking k) (s.moveBooking k) ∧ (∀ j ∈ ks, k.id ≠ j.id) ∧
      ks.length + 1 ≤ s.disp.bookings.length := by
  have ids := State.waitingOn_ids_nodup (b := b) (c := c) once
  have few := s.waitingOn_length_le b c
  cases listed : s.waitingOn b c with
  | nil => rw [listed] at first; cases first
  | cons x ks =>
    rw [listed] at first ids few
    cases first
    refine ⟨ks, by rw [State.loseCar, listed] <;> rfl, fun j hj => ?_, few⟩
    obtain ⟨fresh, -⟩ := List.nodup_cons.1 ids
    intro e
    exact fresh (List.mem_map.2 ⟨j, hj, e.symm⟩)

end

/-- R99: the lanes that the oldest WAITING booking of a lost car meets: the lost car's own is EXCLUDED, every other is as
it stood before. -/
theorem State.offTable_lane {s : State} {k : Booking} {x : Car} (once : (s.disp.bookings.map fun k => k.id).Nodup)
    (held : k ∈ s.disp.bookings) (out : x.service ≠ .inService) (t : Trip) (c : CarNo) :
    ((s.setCar k.bank k.car x).offTable k).lane k.bank t c = if c = k.car then 65535 else s.lane k.bank t c := by
  split
  next own =>
    subst own
    refine State.lane_of_out ?_ t
    rw [((s.setCar k.bank k.car x).offTable_listOnly k k.bank k.car).service, State.car_setCar_self]
    exact out
  next ne =>
    have other : (k.bank, c) ≠ (k.bank, k.car) := fun e => ne (Prod.mk.inj e).2
    have modes : ((s.setCar k.bank k.car x).offTable k).disp.modes = s.disp.modes := rfl
    refine State.lane_congr ?_ ?_ modes rfl t
    · rw [State.offTable, State.resyncKeep, State.resync_other _ other]
      exact State.car_setCar_ne _ _ _ _ _ _ other.symm
    · show (s.disp.bookings.filter fun j => j.id ≠ k.id).filter _ = s.disp.bookings.filter _
      rw [List.filter_filter]
      refine List.filter_congr fun j hj => ?_
      rw [Bool.and_eq_left_iff_imp]
      intro on
      obtain ⟨-, car⟩ := of_decide_eq_true on
      refine decide_eq_true fun same => ne ?_
      rw [← car, List.inj_on_of_nodup_map once hj held same]

/-! ### The floor served in the same event (R86, R93) -/

/-- R93: the state after the service state, the moves, the FULL flag and the floor served. -/
def State.served (s : State) (b : Bank) (c : CarNo) (kind : CommandKind) (st : Status) : State :=
  ((s.moved b c kind st).flagged b c (s.bank b).fullThreshold st.load).attended b c st (s.serviceGiven b c kind st)

theorem servesNow_iff {st : Status} {sv : Service} :
    servesNow st sv = true ↔ st.fresh = true ∧ (st.doors = .opening ∨ st.doors = .opened) ∧
      (sv = .inService ∨ sv = .withdrawn ∨ sv = .carHeld) := by
  simp [servesNow, and_assoc, or_assoc]

section
variable {s : State} {b : Bank} {c : CarNo} {kind : CommandKind} {st : Status}

/-- R94, R84, R95: car calls, the enabled set and the report leave bookings, tickets and ports. -/
theorem State.statusEvent_served :
    (s.statusEvent b c kind st).disp.bookings = (s.served b c kind st).disp.bookings ∧
      (s.statusEvent b c kind st).disp.tickets = (s.served b c kind st).disp.tickets ∧
      (s.statusEvent b c kind st).ports = (s.served b c kind st).ports := by
  have calls : (s.attends b c kind st).disp.bookings = (s.served b c kind st).disp.bookings ∧
      (s.attends b c kind st).disp.tickets = (s.served b c kind st).disp.tickets ∧
      (s.attends b c kind st).ports = (s.served b c kind st).ports := by
    have eq : s.attends b c kind st = (s.served b c kind st).called b c st := rfl
    rw [eq, State.called]
    split
    · exact State.takeCalls_tables b c _ _ _ _
    · exact ⟨rfl, rfl, rfl⟩
  obtain ⟨bookings, tickets, ports⟩ := calls
  have formed := (s.attends b c kind st).formEnabled_carsOnly b c
  rw [State.statusEvent_eq, State.reportService_disp, State.reportService_ports]
  exact ⟨formed.bookings.trans bookings, formed.tickets.trans tickets, formed.ports.trans ports⟩

theorem State.served_of_not (no : servesNow st (s.serviceGiven b c kind st) = false) :
    s.served b c kind st = (s.moved b c kind st).flagged b c (s.bank b).fullThreshold st.load :=
  if_neg (by rw [no]; exact Bool.false_ne_true)

theorem State.served_of_serves (serves : servesNow st (s.serviceGiven b c kind st) = true) :
    s.served b c kind st =
      ((s.moved b c kind st).flagged b c (s.bank b).fullThreshold st.load).serveFloor b c st := if_pos serves

theorem State.moved_once (once : (s.disp.bookings.map fun k => k.id).Nodup) :
    ((s.moved b c kind st).disp.bookings.map fun k => k.id).Nodup :=
  once.sublist (State.event.bookingIds
    (State.setService_event (s.setCar b c (s.reported b c kind st)) b c (s.serviceGiven b c kind st)))

theorem State.resync_tables (x : State) (h : Bank) (d : CarNo) (calls : List Key) :
    (x.resync h d calls).disp.bookings = x.disp.bookings ∧ (x.resync h d calls).disp.tickets = x.disp.tickets ∧
      (x.resync h d calls).ports = x.ports := ⟨rfl, rfl, rfl⟩

/-- R86, R93: the tables after a floor served, from those that the moves left. -/
theorem State.served_tables (serves : servesNow st (s.serviceGiven b c kind st) = true)
    (once : (s.disp.bookings.map fun k => k.id).Nodup) :
    (s.served b c kind st).disp.bookings =
        ((s.moved b c kind st).disp.bookings.filter fun k => !k.doneAt b c st).map (fun k =>
          if k.boardsAt b c st = true then { k with state := .riding } else k) ∧
      (s.served b c kind st).disp.tickets =
        ((s.moved b c kind st).disp.tickets.map fun y =>
          if ((s.moved b c kind st).disp.bookings.any fun k => k.doneAt b c st && k.leads y) = true then
            { y with firstLeg := none } else y) ∧
      ∀ q m, ((s.served b c kind st).port q).memory = some m ↔ ((s.moved b c kind st).port q).memory = some m ∧
        ∀ k ∈ (s.moved b c kind st).disp.bookings, k.boardsAt b c st = true → k.port = q → k.id ≠ m.booking := by
  obtain ⟨w, hw⟩ : ∃ w, w = (s.moved b c kind st).flagged b c (s.bank b).fullThreshold st.load := ⟨_, rfl⟩
  have bookings : w.disp.bookings = (s.moved b c kind st).disp.bookings := by rw [hw]; rfl
  have tickets : w.disp.tickets = (s.moved b c kind st).disp.tickets := by rw [hw]; rfl
  have ports : w.ports = (s.moved b c kind st).ports := by rw [hw]; rfl
  have onceW : (w.disp.bookings.map fun k => k.id).Nodup := by rw [bookings]; exact State.moved_once once
  rw [State.served_of_serves serves, ← hw, State.serveFloor_eq]
  obtain ⟨keptBookings, keptTickets, keptPorts⟩ := State.resync_tables (w.boarded b c st) b c
    (((w.ridesDone b c st).car b c).callKeys.filter fun k => k.floor ≠ st.position)
  refine ⟨?_, ?_, fun q m => ?_⟩
  · rw [keptBookings, ← bookings]
    exact State.boarded_bookings onceW
  · rw [keptTickets, ← bookings, ← tickets]
    exact State.boarded_tickets
  · have port : w.port q = (s.moved b c kind st).port q := by rw [State.port, ports, State.port]
    rw [State.port, keptPorts, ← State.port, ← bookings, ← port]
    exact State.boarded_memory onceW q m

end

/-! ### A car that leaves IN_SERVICE (R98) -/

section
variable {s : State} {b : Bank} {c : CarNo} {kind : CommandKind} {st : Status} (leaves : s.leavesBy b c kind st)
include leaves

theorem State.moved_clears {j : Booking} (held : j ∈ (s.moved b c kind st).disp.bookings) (bank : j.bank = b)
    (car : j.car = c) : j.state ≠ .waiting := by
  rw [State.moved_of_leaves _ _ _ _ _ leaves] at held
  refine State.loseCar_clears _ b c ?_ held bank car
  rw [State.car_setCar_self]
  exact leaves.2

/-- R98: what stands on the lost car stood there before, and it keeps its riders. -/
theorem State.moved_rider_iff (once : (s.disp.bookings.map fun k => k.id).Nodup) {j : Booking}
    (done : j.doneAt b c st = true) : j ∈ (s.moved b c kind st).disp.bookings ↔ j ∈ s.disp.bookings := by
  simp only [Booking.doneAt, Bool.and_eq_true, decide_eq_true_eq] at done
  obtain ⟨⟨⟨bank, car⟩, rides⟩, -⟩ := done
  rw [State.moved_of_leaves _ _ _ _ _ leaves]
  constructor
  · intro held
    have out : ((s.setCar b c (s.shifted b c kind st)).car b c).service ≠ .inService := by
      rw [State.car_setCar_self]
      exact leaves.2
    exact (State.of_mem_foldl_move (fun _ hk => (State.mem_waitingOn.1 hk).2.2)
      (fun _ hk => (State.mem_waitingOn.1 hk).2.1.1) _ out held car).1
  · intro held
    exact State.loseCar_riding (s.setCar b c (s.shifted b c kind st)) b c once held rides

theorem State.moved_boardsAt {j : Booking} (held : j ∈ (s.moved b c kind st).disp.bookings) : j.boardsAt b c st = false := by
  rw [Bool.eq_false_iff]
  intro boards
  simp only [Booking.boardsAt, Bool.and_eq_true, decide_eq_true_eq] at boards
  obtain ⟨⟨⟨⟨bank, car⟩, waits⟩, -⟩, -⟩ := boards
  exact State.moved_clears leaves held bank car waits

/-- R86, R93, R98: nobody boards a lost car; its riders for the floor are done. -/
theorem State.served_of_leaves (serves : servesNow st (s.serviceGiven b c kind st) = true)
    (once : (s.disp.bookings.map fun k => k.id).Nodup) :
    (s.served b c kind st).disp.bookings = ((s.moved b c kind st).disp.bookings.filter fun k => !k.doneAt b c st) ∧
      (s.served b c kind st).disp.tickets =
        ((s.moved b c kind st).disp.tickets.map fun y =>
          if (s.disp.bookings.any fun k => k.doneAt b c st && k.leads y) = true then
            { y with firstLeg := none } else y) ∧
      ∀ q, ((s.served b c kind st).port q).memory = ((s.moved b c kind st).port q).memory := by
  obtain ⟨bookings, tickets, memory⟩ := State.served_tables serves once
  refine ⟨?_, ?_, fun q => Option.ext fun m => ?_⟩
  · rw [bookings]
    refine (List.map_congr_left fun k hk => ?_).trans (List.map_id _)
    rw [State.moved_boardsAt leaves (List.mem_filter.1 hk).1]
    rfl
  · rw [tickets]
    refine List.map_congr_left fun y _ => if_congr ?_ rfl rfl
    simp only [List.any_eq_true, Bool.and_eq_true]
    exact ⟨fun ⟨k, hk, done, leads⟩ => ⟨k, (State.moved_rider_iff leaves once done).1 hk, done, leads⟩,
      fun ⟨k, hk, done, leads⟩ => ⟨k, (State.moved_rider_iff leaves once done).2 hk, done, leads⟩⟩
  · rw [memory]
    refine and_iff_left fun k hk boards => ?_
    rw [State.moved_boardsAt leaves hk] at boards
    cases boards

end

end Sys2Proof.Machine
end

section
/-! PROOF of O46: the oldest WAITING booking of a lost car, and the whole STATUS. -/

namespace Sys2Proof.Machine

section
variable {s : State} {b : Bank} {a : CarNo} {k : Booking} {kind : CommandKind} {st : Status}
  (leaves : s.leavesBy b a kind st)
  (once : (s.disp.bookings.map fun k => k.id).Nodup) (first : (s.waitingOn b a).head? = some k)
include leaves once first

/-- R98: the moves of a lost car, its oldest WAITING booking first. -/
theorem State.moved_first :
    ∃ ks : List Booking, s.moved b a kind st =
        ks.foldl (fun s k => s.moveBooking k) ((s.setCar b a (s.shifted b a kind st)).moveBooking k) ∧
      (∀ j ∈ ks, k.id ≠ j.id) ∧ ks.length + 1 ≤ s.disp.bookings.length := by
  rw [State.moved_of_leaves _ _ _ _ _ leaves]
  exact State.loseCar_first (s := s.setCar b a (s.shifted b a kind st)) once first

/-- R99, R115, R53: the winner among the other cars gets the booking and its memory. -/
theorem State.moved_wins {c : CarNo} (other : c ≠ a) (included : s.lane b k.trip c ≠ 65535)
    (least : ∀ h, h ≠ a → s.lane b k.trip c ≤ s.lane b k.trip h ∧
      (h < c → s.lane b k.trip c < s.lane b k.trip h)) :
    { k with car := c } ∈ (s.moved b a kind st).disp.bookings ∧
      ∀ m, (s.port k.port).memory = some m → m.booking = k.id →
        ((s.moved b a kind st).port k.port).memory = some { m with bank := b, car := c } := by
  obtain ⟨held, ⟨rfl, rfl⟩, -⟩ := State.mem_waitingOn.1 (List.mem_of_mem_head? first)
  obtain ⟨ks, moved, others, -⟩ := State.moved_first leaves once first
  have lane := State.offTable_lane (x := s.shifted k.bank k.car kind st) once held leaves.2 k.trip
  obtain ⟨w, hw⟩ : ∃ w, w = s.setCar k.bank k.car (s.shifted k.bank k.car kind st) := ⟨_, rfl⟩
  have bookings : w.disp.bookings = s.disp.bookings := by rw [hw]; rfl
  have port : w.port k.port = s.port k.port := by rw [hw]; rfl
  rw [← hw] at moved lane
  have atC : (w.offTable k).lane k.bank k.trip c = s.lane k.bank k.trip c := by rw [lane, if_neg other]
  have bound := State.lane_le_of_ne included
  have goes : w.moveBooking k = w.movedTo k c := by
    refine (w.moveBooking_moves k).2 c (atC ▸ included) (fun h => ?_) fun h lt => ?_
    · show (w.offTable k).lane k.bank k.trip c ≤ (w.offTable k).lane k.bank k.trip h
      rw [atC, lane]
      split
      · omega
      next ne => exact (least h ne).1
    · show (w.offTable k).lane k.bank k.trip c < (w.offTable k).lane k.bank k.trip h
      rw [atC, lane]
      split
      · omega
      next ne => exact (least h ne).2 lt
  rw [moved, goes]
  refine ⟨State.mem_foldl_move ks _ ?_ others, fun m was own => State.foldl_move_memory_of_ne ks _ ?_ ?_⟩
  · rw [State.movedTo_bookings, bookings]
    exact List.mem_map.2 ⟨k, held, if_pos rfl⟩
  · rw [State.movedTo_port, if_pos rfl, port, ← own]
    exact Port.bookingMoved_memory was
  · intro j hj e
    exact others j hj (own.symm.trans e)

/-- R99, R87: with every other lane EXCLUDED the booking is cancelled NO_CAR. -/
theorem State.moved_cancels (all : ∀ h, h ≠ a → s.lane b k.trip h = 65535) :
    (∀ j ∈ (s.moved b a kind st).disp.bookings, j.id ≠ k.id) ∧
      (k.leg = .firstLeg → ∀ y ∈ (s.moved b a kind st).disp.tickets, y.badge = k.badge →
        y.firstLeg ≠ some k.id) ∧
      (∀ m, ((s.moved b a kind st).port k.port).memory = some m → m.booking ≠ k.id) ∧
      ∃ rs : List Report, rs.length + 1 ≤ s.disp.bookings.length ∧
        (s.moved b a kind st).host = (s.host.post (s.cancelledReport .noCar k)).posts rs := by
  obtain ⟨held, ⟨rfl, rfl⟩, waits⟩ := State.mem_waitingOn.1 (List.mem_of_mem_head? first)
  obtain ⟨ks, moved, others, few⟩ := State.moved_first leaves once first
  have lane := State.offTable_lane (x := s.shifted k.bank k.car kind st) once held leaves.2 k.trip
  obtain ⟨w, hw⟩ : ∃ w, w = s.setCar k.bank k.car (s.shifted k.bank k.car kind st) := ⟨_, rfl⟩
  have host : w.host = s.host := by rw [hw]; rfl
  have report : w.cancelledReport .noCar k = s.cancelledReport .noCar k := by rw [hw]; rfl
  rw [← hw] at moved lane
  have goes : w.moveBooking k = w.cancel .noCar k := by
    refine (w.moveBooking_moves k).1 fun h => ?_
    show (w.offTable k).lane k.bank k.trip h = 65535
    rw [lane]
    split
    · rfl
    next ne => exact all h ne
  rw [moved, goes]
  refine ⟨fun j hj same => ?_, fun leg y hy badge named => ?_, fun m has own => ?_, ?_⟩
  · obtain ⟨i, hi, e⟩ := (State.foldl_move_event ks (w.cancel .noCar k)).bookings j hj
    rw [State.cancel_bookings] at hi
    rw [e] at same
    exact of_decide_eq_true (List.mem_filter.1 hi).2 same
  · have hy := State.foldl_move_tickets ks _ hy
    rw [State.cancel_tickets] at hy
    have off := (List.mem_filter.1 hy).2
    simp [Booking.leads, leg, badge, named] at off
  · obtain ⟨n, has', same⟩ := State.foldl_move_memory_booking ks _ has
    rw [State.cancel_port] at has'
    have off := (Option.filter_eq_some_iff.1 has').2
    simp [Booking.heldBy, waits, same, own] at off
  · obtain ⟨rs, short, posts⟩ := State.foldl_move_host ks (w.cancel .noCar k)
    rw [State.cancel_host, host, report] at posts
    exact ⟨rs, by omega, posts⟩

end

/-- R94: what the tables hold of a STATUS whose car leaves IN_SERVICE, from the state the moves left. -/
theorem State.hearsStatus.tables {s u : State} {l : Bank} {t : Transaction} {st : Status}
    (h : s.hearsStatus l t (s.statusEvent l t.car t.kind st) u) :
    u.disp.bookings = (s.served l t.car t.kind st).disp.bookings ∧
      u.disp.tickets = (s.served l t.car t.kind st).disp.tickets ∧
      ∀ q, u.port q = (s.served l t.car t.kind st).port q := by
  obtain ⟨bookings, tickets, ports⟩ := State.statusEvent_served (s := s) (b := l) (c := t.car) (kind := t.kind) (st := st)
  exact ⟨h.bookings.trans bookings, h.tickets.trans tickets, fun q => congrArg (Vector.get · q) (h.ports.trans ports)⟩

/-- R86, R93, R98: the tables after the STATUS against those that the moves left (`v`). -/
theorem State.hearsStatus.left {s u : State} {l : Bank} {t : Transaction} {st : Status}
    (h : s.hearsStatus l t (s.statusEvent l t.car t.kind st) u) (leaves : s.leavesBy l t.car t.kind st)
    (once : (s.disp.bookings.map fun k => k.id).Nodup) {v : State} (hv : v = s.moved l t.car t.kind st) :
    (∀ q, (u.port q).memory = (v.port q).memory) ∧
      (servesNow st (s.serviceGiven l t.car t.kind st) = false →
        u.disp.bookings = v.disp.bookings ∧ u.disp.tickets = v.disp.tickets) ∧
      (servesNow st (s.serviceGiven l t.car t.kind st) = true →
        u.disp.bookings = (v.disp.bookings.filter fun k => !k.doneAt l t.car st) ∧
        u.disp.tickets = v.disp.tickets.map fun y =>
          if (s.disp.bookings.any fun k => k.doneAt l t.car st && k.leads y) = true then
            { y with firstLeg := none } else y) := by
  obtain ⟨bookings, tickets, ports⟩ := h.tables
  cases serves : servesNow st (s.serviceGiven l t.car t.kind st) with
  | false =>
    have same := State.served_of_not serves
    refine ⟨fun q => ?_, fun _ => ⟨?_, ?_⟩, fun no => absurd no (by simp)⟩
    · rw [ports, same, hv] <;> rfl
    · rw [bookings, same, hv] <;> rfl
    · rw [tickets, same, hv] <;> rfl
  | true =>
    obtain ⟨left, forgotten, memories⟩ := State.served_of_leaves leaves serves once
    rw [← hv] at left forgotten memories
    exact ⟨fun q => by rw [ports, memories], fun no => absurd no (by simp), fun _ => ⟨bookings.trans left, tickets.trans forgotten⟩⟩

/-- Settles O46. -/
theorem carThatLeavesServiceMovesItsWaiting : Obligations.CarThatLeavesServiceMovesItsWaiting := by
  intro s l t a position direction motion doors carMode load freshness held accepted calls st u r new
    serves done awaiting open' inHand address inService ok good run out
  have once := ok.1
  have present : (s.car l t.car).service ≠ .absent := by rw [inService]; simp
  have run' := exec_status_taken awaiting open' inHand address good
  rw [State.takeStatus_configured present] at run'
  have h := s.hearsStatus_of l t _ (s.statusEvent_lines l t.car t.kind st) (s.statusEvent_policy l t.car t.kind st)
    (s.statusEvent_part l t.car t.kind st)
  generalize ((s.closeCars (s.statusEvent l t.car t.kind st)).endTransaction l t).choose = w at run' h
  obtain rfl : u = w := Host.Outcome.next.inj (run.symm.trans run')
  have given : new = s.serviceGiven l t.car t.kind st := h.service
  have leaves : s.leavesBy l t.car t.kind st := ⟨inService, given ▸ out⟩
  obtain ⟨v, hv⟩ : ∃ v, v = s.moved l t.car t.kind st := ⟨_, rfl⟩
  obtain ⟨memories, unserved, served⟩ := h.left leaves once hv
  have servesIff : servesNow st (s.serviceGiven l t.car t.kind st) = true ↔ serves := by
    rw [servesNow_iff, ← given]
    exact and_congr_right fun _ => and_congr_right fun _ => ⟨fun h => h.resolve_left out, .inr⟩
  have ofV : ∀ j ∈ u.disp.bookings, j ∈ v.disp.bookings := by
    intro j hj
    cases now : servesNow st (s.serviceGiven l t.car t.kind st) with
    | false => rwa [(unserved now).1] at hj
    | true =>
      rw [(served now).1] at hj
      exact (List.mem_filter.1 hj).1
  have toU : ∀ j ∈ v.disp.bookings, j.state = .waiting → j ∈ u.disp.bookings := by
    intro j hj waits
    cases now : servesNow st (s.serviceGiven l t.car t.kind st) with
    | false => rwa [(unserved now).1]
    | true =>
      rw [(served now).1]
      exact List.mem_filter.2 ⟨hj, by simp [Booking.doneAt, waits]⟩
  refine ⟨fun k hk bank car => State.moved_clears leaves (hv ▸ ofV k hk) bank car, fun k hk => ?_, fun k first => ?_,
    s.shifted l t.car t.kind st, v, given.symm, ?_, memories, fun no => unserved ?_, fun yes => ?_⟩
  · rw [h.bookings] at hk
    exact (s.statusEvent_event l t.car t.kind st).bookings k hk
  · obtain ⟨-, ⟨bank, car⟩, waits⟩ := State.mem_waitingOn.1 (List.mem_of_mem_head? first)
    refine ⟨fun c other included least => ?_, fun all => ?_⟩
    · obtain ⟨there, memory⟩ := State.moved_wins leaves once first other included least
      rw [← hv] at there memory
      exact ⟨toU _ there waits, fun m was own => (memories k.port).trans (memory m was own)⟩
    · obtain ⟨gone, forgets, forgotten, rs, few, host⟩ := State.moved_cancels leaves once first all
      rw [← hv] at gone forgets forgotten host
      refine ⟨fun j hj => gone j (ofV j hj), fun leg y hy badge => ?_, fun m has => ?_, fun enabled room => ?_⟩
      · cases now : servesNow st (s.serviceGiven l t.car t.kind st) with
        | false => exact forgets leg y ((unserved now).2 ▸ hy) badge
        | true =>
          rw [(served now).2] at hy
          obtain ⟨z, hz, rfl⟩ := List.mem_map.1 hy
          split at badge
          next cleared =>
            rw [if_pos cleared]
            simp
          next kept =>
            rw [if_neg kept]
            exact forgets leg z hz badge
      · rw [memories] at has
        exact forgotten m has
      · have one := s.serviceReports_length_le l t.car (s.car l t.car).service (s.serviceGiven l t.car t.kind st)
        rw [h.host_eq, ← hv, host, ← HostPort.posts_cons, ← HostPort.posts_append]
        have mem := HostPort.mem_choose (HostPort.mem_posts_of_room s.host (rs := [])
          (rest := rs ++ (s.serviceReports l t.car (s.car l t.car).service (s.serviceGiven l t.car t.kind st) ++
            if (s.line l).faultMark = true ∧ (s.line l).mismatches = 0 then
              [{ cls := .routine, clock := s.part.clock, body := .lineState l .fault .idle, gap := false }]
            else [])) (r := s.cancelledReport .noCar k) enabled ?_)
        · obtain ⟨x, hx, cls, clock, body⟩ := mem
          refine ⟨x, hx, cls, clock, body.trans ?_⟩
          rw [← bank, ← car, ← waits]
          rfl
        · rw [List.length_append, List.length_append, List.length_nil]
          split
          · simp only [List.length_singleton]
            omega
          · simp only [List.length_nil]
            omega
  · rw [hv, State.moved_of_leaves _ _ _ _ _ leaves]
    exact State.loseCar_movesAll (s.setCar l t.car (s.shifted l t.car t.kind st)) l t.car
  · exact Bool.eq_false_iff.2 fun yes => no (servesIff.1 yes)
  · obtain ⟨bookings, tickets⟩ := served (servesIff.2 yes)
    refine ⟨bookings, tickets.trans (List.map_congr_left fun y _ => if_congr ?_ rfl rfl)⟩
    simp only [Booking.leads, ← Bool.and_assoc]
    rfl

end Sys2Proof.Machine
end

section
/-! SUPPORT. A car's list against its bookings (R81, R82, R94): its keys, its projected stops, its car calls. -/

namespace Sys2Proof.Machine

/-! ### Counting distinct keys (R79, R81) -/

theorem dedup_length_le_of_subset {α : Type} [DecidableEq α] {xs ys : List α} (sub : ∀ x ∈ xs, x ∈ ys) :
    xs.dedup.length ≤ ys.dedup.length :=
  (List.Nodup.subperm (List.nodup_dedup xs) fun x hx => List.mem_dedup.2 (sub x (List.mem_dedup.1 hx))).length_le

theorem dedup_length_le_succ {α : Type} [DecidableEq α] {xs ys : List α} {a : α} (sub : ∀ x ∈ xs, x = a ∨ x ∈ ys) :
    xs.dedup.length ≤ ys.dedup.length + 1 := by
  have more : xs.dedup.length ≤ (a :: ys).dedup.length :=
    dedup_length_le_of_subset fun x hx => List.mem_cons.2 (sub x hx)
  by_cases held : a ∈ ys
  · rw [List.dedup_cons_of_mem held] at more
    omega
  · rwa [List.dedup_cons_of_notMem held, List.length_cons] at more

/-- The keys of a car's projected stops: its entries and the drops of its WAITING bookings (R79). -/
def Car.footprint (x : Car) (bs : List Booking) : List Key :=
  x.keys ++ (bs.filter fun k => k.state = .waiting).map Booking.dropKey

theorem Car.mem_footprint {x : Car} {bs : List Booking} {k : Key} :
    k ∈ x.footprint bs ↔ k ∈ x.keys ∨ ∃ j ∈ bs, j.state = .waiting ∧ j.dropKey = k := by
  simp [Car.footprint, and_assoc]

theorem State.mem_pendingDrops {s : State} {b : Bank} {c : CarNo} {k : Key} :
    k ∈ s.pendingDrops b c ↔ ∃ j ∈ s.carBookings b c, j.state = .waiting ∧ j.dropKey = k := by
  simp [State.pendingDrops, State.mem_waitingOn, State.mem_carBookings, and_assoc]

theorem State.projected_eq (s : State) (b : Bank) (c : CarNo) :
    s.projected b c = ((s.car b c).footprint (s.carBookings b c)).dedup.length := by
  refine Nat.le_antisymm (dedup_length_le_of_subset fun k hk => ?_) (dedup_length_le_of_subset fun k hk => ?_)
  · rcases List.mem_append.1 hk with key | drop
    · exact Car.mem_footprint.2 (.inl key)
    · exact Car.mem_footprint.2 (.inr (State.mem_pendingDrops.1 drop))
  · rcases Car.mem_footprint.1 hk with key | drop
    · exact List.mem_append_left _ key
    · exact List.mem_append_right _ (State.mem_pendingDrops.2 drop)

/-! ### A list in step (R81) -/

theorem Car.mem_keys {x : Car} {k : Key} : k ∈ x.keys ↔ ∃ e ∈ x.stops, e.key = k := by
  simp [Car.keys]

theorem Car.callKeys_subset_keys {x : Car} {k : Key} (called : k ∈ x.callKeys) : k ∈ x.keys := by
  obtain ⟨e, he, -, key⟩ := Car.mem_callKeys.1 called
  exact Car.mem_keys.2 ⟨e, he, key⟩

/-- The keys of a list in step are the duties of its bookings and its car calls. -/
theorem Car.listOk.mem_keys {x : Car} {bs : List Booking} (h : x.listOk bs) {k : Key} :
    k ∈ x.keys ↔ k ∈ dutyKeys bs x.callKeys := by
  obtain ⟨duties, entries, -⟩ := h
  rw [mem_dutyKeys]
  constructor
  · intro hk
    obtain ⟨e, he, rfl⟩ := Car.mem_keys.1 hk
    obtain ⟨pickup, drop, duty⟩ := duties e he
    exact duty.imp pickup.1 (Or.imp drop.1 fun call => Car.mem_callKeys.2 ⟨e, he, call, rfl⟩)
  · rintro (⟨j, hj, waits, rfl⟩ | ⟨j, hj, rides, rfl⟩ | called)
    · have entry := entries j hj
      rwa [if_pos waits] at entry
    · have entry := entries j hj
      rwa [if_neg (by rw [rides]; simp)] at entry
    · exact Car.callKeys_subset_keys called

/-- A list in step has an entry, a pending drop or both for every booking. -/
theorem Car.listOk.mem_footprint {x : Car} {bs : List Booking} (h : x.listOk bs) {k : Key} :
    k ∈ x.footprint bs ↔
      (∃ j ∈ bs, j.state = .waiting ∧ j.pickupKey = k) ∨ (∃ j ∈ bs, j.dropKey = k) ∨ k ∈ x.callKeys := by
  rw [Car.mem_footprint, h.mem_keys, mem_dutyKeys]
  constructor
  · rintro ((pickup | ⟨j, hj, -, drop⟩ | call) | ⟨j, hj, -, drop⟩)
    · exact .inl pickup
    · exact .inr (.inl ⟨j, hj, drop⟩)
    · exact .inr (.inr call)
    · exact .inr (.inl ⟨j, hj, drop⟩)
  · rintro (pickup | ⟨j, hj, drop⟩ | call)
    · exact .inl (.inl pickup)
    · cases state : j.state with
      | waiting => exact .inr ⟨j, hj, state, drop⟩
      | riding => exact .inl (.inr (.inl ⟨j, hj, state, drop⟩))
    · exact .inl (.inr (.inr call))

/-! ### The set formed afresh (R84) -/

section
variable {s : State} {b : Bank} {c : CarNo}

theorem State.mem_formedCar_callKeys {k : Key} :
    k ∈ (s.formedCar b c).callKeys ↔
      k ∈ (s.car b c).callKeys ∧ ((s.car b c).enabled.has k.floor = true → (s.enabledOf b c).has k.floor = true) := by
  have kept : k ∈ ((s.car b c).callKeys.filter fun k => !((s.car b c).enabled.has k.floor &&
      !(s.enabledOf b c).has k.floor)) ↔
      k ∈ (s.car b c).callKeys ∧ ((s.car b c).enabled.has k.floor = true → (s.enabledOf b c).has k.floor = true) := by
    rw [List.mem_filter]
    refine and_congr_right fun _ => ?_
    cases (s.car b c).enabled.has k.floor <;> cases (s.enabledOf b c).has k.floor <;> simp
  rw [← kept]
  unfold State.formedCar
  simp only
  split
  next same =>
    rw [same]
    exact Iff.rfl
  · exact Car.mem_resync_callKeys _ _ _

/-- R84: with no floor leaving the set the list stays. -/
theorem State.formedCar_of_kept
    (kept : ∀ k ∈ (s.car b c).callKeys, (s.car b c).enabled.has k.floor = true → (s.enabledOf b c).has k.floor = true) :
    s.formedCar b c = { s.car b c with enabled := s.enabledOf b c } := by
  unfold State.formedCar
  refine if_pos (List.filter_eq_self.2 fun k hk => ?_)
  have h := kept k hk
  cases on : (s.car b c).enabled.has k.floor with
  | false => rfl
  | true => rw [h on]; rfl

theorem State.formedCar_listOk (ok : (s.car b c).listOk (s.carBookings b c)) :
    (s.formedCar b c).listOk (s.carBookings b c) := by
  unfold State.formedCar
  simp only
  split
  · exact ok
  · exact Car.resync_listOk (c := { s.car b c with enabled := s.enabledOf b c }) _ _ ok.planOk

end

/-! ### Car calls taken (R94) -/

section
variable {b : Bank} {c : CarNo}

theorem State.takeCall_cases (s : State) (b : Bank) (c : CarNo) (k : Key) :
    ((k ∈ (s.car b c).keys ∨ k ∈ s.pendingDrops b c ∨ s.projected b c ≤ 23) ∧
        s.takeCall b c k = s.resync b c ((s.car b c).callKeys ++ [k])) ∨
      (¬ (k ∈ (s.car b c).keys ∨ k ∈ s.pendingDrops b c ∨ s.projected b c ≤ 23) ∧ s.takeCall b c k = s) := by
  unfold State.takeCall
  simp only
  split
  next h => exact .inl ⟨h, rfl⟩
  next h => exact .inr ⟨h, rfl⟩

theorem State.takeCall_carBookings (s : State) (k : Key) : (s.takeCall b c k).carBookings b c = s.carBookings b c := by
  unfold State.carBookings
  rw [(s.takeCall_tables b c k).1]

theorem State.takeCall_callKeys (s : State) (k j : Key) :
    j ∈ ((s.takeCall b c k).car b c).callKeys ↔ j ∈ (s.car b c).callKeys ∨
      (j = k ∧ (k ∈ (s.car b c).keys ∨ k ∈ s.pendingDrops b c ∨ s.projected b c ≤ 23)) := by
  rcases s.takeCall_cases b c k with ⟨room, e⟩ | ⟨full, e⟩
  · rw [e, State.resync_self, Car.mem_resync_callKeys, List.mem_append, List.mem_singleton]
    simp only [room, and_true]
  · rw [e]
    simp only [full, and_false, or_false]

theorem State.takeCall_listOk {s : State} (k : Key) (ok : (s.car b c).listOk (s.carBookings b c)) :
    ((s.takeCall b c k).car b c).listOk ((s.takeCall b c k).carBookings b c) := by
  rw [State.takeCall_carBookings]
  rcases s.takeCall_cases b c k with ⟨-, e⟩ | ⟨-, e⟩
  · rw [e, State.resync_self]
    exact Car.resync_listOk _ _ ok.planOk
  · rw [e]
    exact ok

/-- R94: a call adds one projected stop at most, none when its key has an entry or a pending drop. -/
theorem State.takeCall_projected {s : State} (k : Key) (ok : (s.car b c).listOk (s.carBookings b c)) :
    (s.takeCall b c k).projected b c ≤ s.projected b c + 1 ∧
      (s.projected b c ≤ 24 → (s.takeCall b c k).projected b c ≤ 24) := by
  have after := State.takeCall_listOk k ok
  have member (j : Key) (hj : j ∈ ((s.takeCall b c k).car b c).footprint ((s.takeCall b c k).carBookings b c)) :
      (j = k ∧ (k ∈ (s.car b c).keys ∨ k ∈ s.pendingDrops b c ∨ s.projected b c ≤ 23)) ∨
        j ∈ (s.car b c).footprint (s.carBookings b c) := by
    rw [after.mem_footprint, State.takeCall_carBookings, State.takeCall_callKeys] at hj
    rw [ok.mem_footprint]
    rcases hj with pickup | drop | call | new
    · exact .inr (.inl pickup)
    · exact .inr (.inr (.inl drop))
    · exact .inr (.inr (.inr call))
    · exact .inl new
  rw [State.projected_eq, State.projected_eq s]
  refine ⟨dedup_length_le_succ fun j hj => (member j hj).imp And.left id, fun le => ?_⟩
  by_cases room : s.projected b c ≤ 23
  · rw [State.projected_eq] at room
    exact (dedup_length_le_succ fun j hj => (member j hj).imp And.left id).trans (Nat.succ_le_succ room)
  · refine le_trans (dedup_length_le_of_subset fun j hj => ?_) le
    rcases member j hj with ⟨rfl, key | drop | fits⟩ | old
    · exact Car.mem_footprint.2 (.inl key)
    · exact Car.mem_footprint.2 (.inr (State.mem_pendingDrops.1 drop))
    · exact absurd fits room
    · exact old

/-- R94: the floors of a reported list that are not ignored. -/
def Car.hears (x : Car) (p : Floor) (f : Floor) : Prop := x.enabled.has f = true ∧ f ≠ p

theorem State.takeCall_enabled (s : State) (k : Key) : ((s.takeCall b c k).car b c).enabled = (s.car b c).enabled :=
  (s.takeCall_listsCar b c k).car.enabled

theorem State.takeCalls_cons (s : State) (p f : Floor) (seen fs : List Floor) :
    (s.takeCalls b c p seen (f :: fs) = s.takeCalls b c p seen fs ∧ ¬ ((s.car b c).hears p f ∧ f ∉ seen)) ∨
      (s.takeCalls b c p seen (f :: fs) =
          (s.takeCall b c { floor := f, dir := dirOf p f }).takeCalls b c p (f :: seen) fs ∧
        (s.car b c).hears p f ∧ f ∉ seen) := by
  unfold Car.hears
  by_cases skip : (!(s.car b c).enabled.has f || f = p || f ∈ seen) = true
  · refine .inl ⟨if_pos skip, ?_⟩
    rintro ⟨⟨on, ne⟩, fresh⟩
    simp only [Bool.or_eq_true, Bool.not_eq_true', decide_eq_true_eq] at skip
    rcases skip with (off | same) | held
    · rw [on] at off
      cases off
    · exact ne same
    · exact fresh held
  · refine .inr ⟨if_neg skip, ?_⟩
    simpa [and_assoc] using skip

theorem State.takeCalls_listOk {p : Floor} (fs seen : List Floor) {s : State}
    (ok : (s.car b c).listOk (s.carBookings b c)) :
    ((s.takeCalls b c p seen fs).car b c).listOk ((s.takeCalls b c p seen fs).carBookings b c) := by
  induction fs generalizing s seen with
  | nil => exact ok
  | cons f fs ih =>
    rcases s.takeCalls_cons (b := b) (c := c) p f seen fs with ⟨e, -⟩ | ⟨e, -⟩
    · rw [e]
      exact ih seen ok
    · rw [e]
      exact ih _ (State.takeCall_listOk _ ok)

theorem State.takeCalls_projected {p : Floor} (fs seen : List Floor) {s : State}
    (ok : (s.car b c).listOk (s.carBookings b c)) (fits : s.projected b c ≤ 24) :
    (s.takeCalls b c p seen fs).projected b c ≤ 24 := by
  induction fs generalizing s seen with
  | nil => exact fits
  | cons f fs ih =>
    rcases s.takeCalls_cons (b := b) (c := c) p f seen fs with ⟨e, -⟩ | ⟨e, -⟩
    · rw [e]
      exact ih seen ok fits
    · rw [e]
      exact ih _ (State.takeCall_listOk _ ok) ((State.takeCall_projected _ ok).2 fits)

theorem State.takeCalls_keeps {p : Floor} (fs seen : List Floor) {s : State} {k : Key}
    (called : k ∈ (s.car b c).callKeys) : k ∈ ((s.takeCalls b c p seen fs).car b c).callKeys := by
  induction fs generalizing s seen with
  | nil => exact called
  | cons f fs ih =>
    rcases s.takeCalls_cons (b := b) (c := c) p f seen fs with ⟨e, -⟩ | ⟨e, -⟩
    · rw [e]
      exact ih seen called
    · rw [e]
      exact ih _ ((State.takeCall_callKeys _ _ _).2 (.inl called))

/-- R94: a call stood before or was reported, at an enabled floor away from the car, in the direction towards it. -/
theorem State.takeCalls_callKeys {p : Floor} (fs seen : List Floor) {s : State} {k : Key}
    (called : k ∈ ((s.takeCalls b c p seen fs).car b c).callKeys) :
    k ∈ (s.car b c).callKeys ∨
      ∃ f ∈ fs, (s.car b c).hears p f ∧ k = { floor := f, dir := dirOf p f } := by
  induction fs generalizing s seen with
  | nil => exact .inl called
  | cons f fs ih =>
    rcases s.takeCalls_cons (b := b) (c := c) p f seen fs with ⟨e, -⟩ | ⟨e, hears, -⟩
    · rw [e] at called
      exact (ih seen called).imp_right fun ⟨g, hg, h⟩ => ⟨g, List.mem_cons_of_mem _ hg, h⟩
    · rw [e] at called
      rcases ih _ called with before | ⟨g, hg, heard, key⟩
      · rcases (State.takeCall_callKeys _ _ _).1 before with old | ⟨new, -⟩
        · exact .inl old
        · exact .inr ⟨f, List.mem_cons_self, hears, new⟩
      · rw [Car.hears, State.takeCall_enabled] at heard
        exact .inr ⟨g, List.mem_cons_of_mem _ hg, heard, key⟩

/-- R94: a reported call that has an entry, a pending drop or room with all the others is entered. -/
theorem State.takeCalls_enters {p f : Floor} (fs seen : List Floor) {s : State}
    (ok : (s.car b c).listOk (s.carBookings b c)) (reported : f ∈ fs) (heard : (s.car b c).hears p f) (fresh : f ∉ seen)
    (room : { floor := f, dir := dirOf p f } ∈ (s.car b c).footprint (s.carBookings b c) ∨
      s.projected b c + fs.length ≤ 24) :
    { floor := f, dir := dirOf p f } ∈ ((s.takeCalls b c p seen fs).car b c).callKeys := by
  induction fs generalizing s seen with
  | nil => cases reported
  | cons g fs ih =>
    rw [List.length_cons] at room
    rcases s.takeCalls_cons (b := b) (c := c) p g seen fs with ⟨e, ignored⟩ | ⟨e, -⟩
    · rw [e]
      rcases List.mem_cons.1 reported with rfl | reported
      · exact absurd ⟨heard, fresh⟩ ignored
      · exact ih seen ok reported heard fresh (room.imp_right fun le => by omega)
    · rw [e]
      by_cases own : f = g
      · subst own
        refine State.takeCalls_keeps fs _ ((State.takeCall_callKeys _ _ _).2 (.inr ⟨rfl, ?_⟩))
        rcases room with entry | le
        · exact (Car.mem_footprint.1 entry).imp_right fun drop => .inl (State.mem_pendingDrops.2 drop)
        · exact .inr (.inr (by omega))
      · have reported : f ∈ fs := (List.mem_cons.1 reported).resolve_left own
        have after := State.takeCall_listOk (k := { floor := g, dir := dirOf p g }) ok
        refine ih _ after reported (by rw [Car.hears, State.takeCall_enabled]; exact heard) (by simp [own, fresh]) ?_
        rcases room with entry | le
        · left
          rw [after.mem_footprint, State.takeCall_carBookings, State.takeCall_callKeys]
          rw [ok.mem_footprint] at entry
          exact entry.imp_right (Or.imp_right .inl)
        · right
          have step := (State.takeCall_projected (k := { floor := g, dir := dirOf p g }) ok).1
          omega

end

end Sys2Proof.Machine
end

section
/-! PROOF of O45 (R81, R84, R86, R93, R94): what a STATUS does to the riders and to the car calls. -/

namespace Sys2Proof.Machine

/-! ### Moves keep every car call (R81, R98) -/

section
variable (s : State) (k : Booking) (b : Bank) (c : CarNo) (x : Key)

theorem State.resyncKeep_callKeys (h : Bank) (d : CarNo) :
    x ∈ ((s.resyncKeep h d).car b c).callKeys ↔ x ∈ (s.car b c).callKeys := by
  by_cases own : (b, c) = (h, d)
  · obtain ⟨rfl, rfl⟩ := Prod.mk.inj own
    rw [State.resyncKeep, State.resync_self, Car.mem_resync_callKeys]
  · rw [State.resyncKeep, State.resync_other _ own]

theorem State.offTable_callKeys : x ∈ ((s.offTable k).car b c).callKeys ↔ x ∈ (s.car b c).callKeys :=
  (s.removeBooking k.id).resyncKeep_callKeys b c x k.bank k.car

theorem State.movedTo_callKeys (d : CarNo) : x ∈ ((s.movedTo k d).car b c).callKeys ↔ x ∈ (s.car b c).callKeys :=
  (((s.offTable k).setBookings _).resyncKeep_callKeys b c x k.bank d).trans (s.offTable_callKeys k b c x)

theorem State.moveBooking_callKeys (waits : k.state = .waiting) :
    x ∈ ((s.moveBooking k).car b c).callKeys ↔ x ∈ (s.car b c).callKeys := by
  rcases s.moveBooking_cases k with e | ⟨d, -, e⟩
  · rw [e, State.cancel_car_eq, State.offCar, waits]
    exact s.offTable_callKeys k b c x
  · rw [e]
    exact s.movedTo_callKeys k b c x d

theorem State.foldl_move_callKeys {ks : List Booking} (waits : ∀ k ∈ ks, k.state = .waiting) :
    x ∈ ((ks.foldl (fun s k => s.moveBooking k) s).car b c).callKeys ↔ x ∈ (s.car b c).callKeys := by
  induction ks generalizing s with
  | nil => exact Iff.rfl
  | cons k ks ih =>
    obtain ⟨first, rest⟩ := List.forall_mem_cons.1 waits
    exact (ih _ rest).trans (s.moveBooking_callKeys k b c x first)

end

section
variable {s : State} {b : Bank} {c : CarNo} {kind : CommandKind} {st : Status}

theorem State.shifted_callKeys {x : Key} : x ∈ (s.shifted b c kind st).callKeys ↔ x ∈ (s.car b c).callKeys :=
  (s.reported_callKeys_perm b c kind st).mem_iff

theorem State.moved_callKeys {x : Key} :
    x ∈ ((s.moved b c kind st).car b c).callKeys ↔ x ∈ (s.car b c).callKeys := by
  rw [← State.shifted_callKeys (s := s) (b := b) (c := c) (kind := kind) (st := st)]
  by_cases leaves : s.leavesBy b c kind st
  · rw [State.moved_of_leaves _ _ _ _ _ leaves, State.loseCar,
      State.foldl_move_callKeys _ _ _ _ fun _ hk => (State.mem_waitingOn.1 hk).2.2, State.car_setCar_self]
  · rw [State.moved_of_stays _ _ _ _ _ leaves, State.car_setCar_self]

/-! ### The car while the floor is served (R93) -/

/-- R93, R89: the car once the floor is served keeps its enabled set, and loses the calls for the floor alone. -/
theorem State.served_listsCar :
    ((s.moved b c kind st).flagged b c (s.bank b).fullThreshold st.load).listsCar (s.served b c kind st) b c := by
  unfold State.served State.attended
  split
  · exact State.serveFloor_listsCar
  · exact .refl _ b c

theorem State.served_enabled : ((s.served b c kind st).car b c).enabled = (s.car b c).enabled := by
  rw [State.served_listsCar.car.enabled, State.flagged, State.car_setCar_self]
  exact ((s.moved_listOnly_self b c kind st).enabled).trans (s.reported_enabled b c kind st)

theorem State.served_service : ((s.served b c kind st).car b c).service = s.serviceGiven b c kind st := by
  rw [State.served_listsCar.car.service, State.flagged, State.car_setCar_self]
  exact (s.moved_listOnly_self b c kind st).service

theorem State.served_callKeys {x : Key} :
    x ∈ ((s.served b c kind st).car b c).callKeys ↔ x ∈ (s.car b c).callKeys ∧
      (servesNow st (s.serviceGiven b c kind st) = true → x.floor ≠ st.position) := by
  rw [← State.moved_callKeys (s := s) (b := b) (c := c) (kind := kind) (st := st)]
  have flagged : ((((s.moved b c kind st).flagged b c (s.bank b).fullThreshold st.load)).car b c).callKeys =
      ((s.moved b c kind st).car b c).callKeys := by
    rw [State.flagged, State.car_setCar_self]
    rfl
  cases serves : servesNow st (s.serviceGiven b c kind st) with
  | false =>
    rw [State.served_of_not serves, flagged]
    simp
  | true =>
    rw [State.served_of_serves serves, State.serveFloor_eq, State.resync_self, Car.mem_resync_callKeys, List.mem_filter,
      State.ridesDone, State.bookingsDone_car, flagged]
    simp

theorem State.attends_eq : s.attends b c kind st = (s.served b c kind st).called b c st := rfl

theorem State.attends_enabled : ((s.attends b c kind st).car b c).enabled = (s.car b c).enabled := by
  rw [State.attends_eq, State.called]
  split
  · rw [(State.takeCalls_listsCar b c _ _ _ _).car.enabled, State.served_enabled]
  · exact State.served_enabled

/-- R93, R94: where a call comes from. -/
theorem State.attends_callKeys {x : Key} (called : x ∈ ((s.attends b c kind st).car b c).callKeys) :
    x ∈ ((s.served b c kind st).car b c).callKeys ∨
      (st.fresh = true ∧ x.floor ∈ st.calls ∧ (s.car b c).hears st.position x.floor ∧
        x = { floor := x.floor, dir := dirOf st.position x.floor }) := by
  rw [State.attends_eq, State.called] at called
  split at called
  next fresh =>
    refine (State.takeCalls_callKeys _ _ called).imp_right fun ⟨f, hf, heard, key⟩ => ?_
    rw [Car.hears, State.served_enabled] at heard
    subst key
    exact ⟨fresh, hf, heard, rfl⟩
  · exact .inl called

end

/-! ### The list against the bookings (R81, R93) -/

/-- R82: a list in step stays so when it is sorted afresh for another reference position or direction. -/
theorem Car.listOk.resorted {x y : Car} {bs : List Booking} (h : x.listOk bs) (stops : y.stops = x.stops)
    (planned : y.planned = x.planned) : y.sorted.listOk bs := by
  obtain ⟨duties, entries, once, -, plan⟩ := h
  have keys : y.keys = x.keys := by rw [Car.keys, stops, Car.keys]
  have perm : y.sorted.stops.Perm y.stops := sortStops_perm y.refDir y.refPos y.stops
  have permKeys : y.sorted.keys.Perm y.keys := perm.map _
  rw [← stops] at duties plan
  rw [← keys] at entries once
  rw [← planned] at plan
  exact ⟨fun e he => duties e (perm.mem_iff.1 he), fun k hk => permKeys.mem_iff.2 (entries k hk),
    permKeys.nodup_iff.2 once, sortStops_sweep once, plan.trans Car.sorted_stops_nil.symm⟩

/-- A list in step but for the sweep order. -/
theorem Car.listOk.of_unsorted {x y : Car} {bs : List Booking} (h : x.listOk bs) (stops : y.stops = x.stops)
    (planned : y.planned = x.planned) (order : y.keys.Pairwise (sweepBefore y.refDir y.refPos)) : y.listOk bs := by
  obtain ⟨duties, entries, once, -, plan⟩ := h
  have keys : y.keys = x.keys := by rw [Car.keys, stops, Car.keys]
  exact ⟨by rw [stops]; exact duties, by rw [keys]; exact entries, by rw [keys]; exact once, order,
    by rw [planned, stops]; exact plan⟩

section
variable {s : State} {b : Bank} {c : CarNo} {kind : CommandKind} {st : Status}

/-- R82, R89: the fields of a STATUS leave the list in step. -/
theorem State.reported_listOk {bs : List Booking} (h : (s.car b c).listOk bs) : (s.reported b c kind st).listOk bs := by
  obtain ⟨x, hx⟩ : ∃ x, x = (s.car b c).takeFields s.now st := ⟨_, rfl⟩
  have stops : x.stops = (s.car b c).stops := by rw [hx, Car.takeFields_eq]
  have planned : x.planned = (s.car b c).planned := by rw [hx, Car.takeFields_eq]
  have resorted : (Car.resortFrom (s.car b c) x).listOk bs := by
    unfold Car.resortFrom
    split
    next same =>
      refine h.of_unsorted stops planned ?_
      rw [Car.keys, stops, ← same.1, ← same.2]
      obtain ⟨-, -, -, order, -⟩ := h
      exact order
    next => exact h.resorted stops planned
  rw [State.reported, Car.confirm_eq, ← hx]
  exact resorted

theorem State.shifted_listOk {bs : List Booking} (h : (s.car b c).listOk bs) : (s.shifted b c kind st).listOk bs :=
  State.reported_listOk (kind := kind) (st := st) h

end

end Sys2Proof.Machine
end

section
/-! PROOF of O45: the STATUS of a car that stays in its service, and the whole statement. -/

namespace Sys2Proof.Machine

section
variable {s : State} {b : Bank} {c : CarNo} {kind : CommandKind} {st : Status}

theorem Booking.boarded_dropKey (k : Booking) (p : Prop) [Decidable p] :
    (if p then { k with state := .riding } else k : Booking).dropKey = k.dropKey := by
  split <;> rfl

theorem State.carBookings_congr {u : State} (bookings : u.disp.bookings = s.disp.bookings) :
    u.carBookings b c = s.carBookings b c := by
  rw [State.carBookings, bookings, State.carBookings]

theorem State.resync_carBookings (h : Bank) (d : CarNo) (calls : List Key) :
    (s.resync h d calls).carBookings b c = s.carBookings b c := rfl

theorem State.flagged_bookings (threshold load : Nat) :
    (s.flagged b c threshold load).disp.bookings = s.disp.bookings := rfl

/-! ### A car that stays (R93, R94) -/

section
variable (stays : ¬ s.leavesBy b c kind st) (once : (s.disp.bookings.map fun k => k.id).Nodup)
include stays

theorem State.moved_bookings_of_stays : (s.moved b c kind st).disp.bookings = s.disp.bookings := by
  rw [State.moved_of_stays _ _ _ _ _ stays] <;> rfl

theorem State.served_bookings_of_idle (idle : servesNow st (s.serviceGiven b c kind st) = false) :
    (s.served b c kind st).disp.bookings = s.disp.bookings := by
  rw [State.served_of_not idle, State.flagged_bookings, State.moved_bookings_of_stays stays]

theorem State.moved_tickets_of_stays : (s.moved b c kind st).disp.tickets = s.disp.tickets := by
  rw [State.moved_of_stays _ _ _ _ _ stays] <;> rfl

theorem State.moved_port_of_stays (q : PortNo) : (s.moved b c kind st).port q = s.port q := by
  rw [State.moved_of_stays _ _ _ _ _ stays] <;> rfl

theorem State.moved_car_of_stays : (s.moved b c kind st).car b c = s.shifted b c kind st := by
  rw [State.moved_of_stays _ _ _ _ _ stays, State.car_setCar_self]

include once in
/-- R86, R93: the tables of a car that stays once the floor is served. -/
theorem State.served_of_stays (serves : servesNow st (s.serviceGiven b c kind st) = true) :
    (s.served b c kind st).disp.bookings = ((s.disp.bookings.filter fun k => !k.doneAt b c st).map fun k =>
        if k.boardsAt b c st = true then { k with state := .riding } else k) ∧
      (s.served b c kind st).disp.tickets = (s.disp.tickets.map fun y =>
        if (s.disp.bookings.any fun k => k.doneAt b c st && k.leads y) = true then
          { y with firstLeg := none } else y) ∧
      ∀ q m, ((s.served b c kind st).port q).memory = some m ↔ (s.port q).memory = some m ∧
        ∀ k ∈ s.disp.bookings, k.boardsAt b c st = true → k.port = q → k.id ≠ m.booking := by
  obtain ⟨bookings, tickets, memory⟩ := State.served_tables serves once
  rw [State.moved_bookings_of_stays stays] at bookings tickets memory
  rw [State.moved_tickets_of_stays stays] at tickets
  refine ⟨bookings, tickets, fun q m => ?_⟩
  rw [memory, State.moved_port_of_stays stays]

theorem State.flagged_listOk (ok : (s.car b c).listOk (s.carBookings b c)) :
    (((s.moved b c kind st).flagged b c (s.bank b).fullThreshold st.load).car b c).listOk (s.carBookings b c) := by
  rw [State.flagged, State.car_setCar_self, State.moved_car_of_stays stays]
  exact State.shifted_listOk (kind := kind) (st := st) ok

/-- R81, R93: the list of a car that stays is in step once the floor is served. -/
theorem State.served_listOk (ok : (s.car b c).listOk (s.carBookings b c)) :
    ((s.served b c kind st).car b c).listOk ((s.served b c kind st).carBookings b c) := by
  have flagged := State.flagged_listOk (kind := kind) (st := st) stays ok
  cases serves : servesNow st (s.serviceGiven b c kind st) with
  | false =>
    have bookings : (s.served b c kind st).carBookings b c = s.carBookings b c :=
      State.carBookings_congr (State.served_bookings_of_idle stays serves)
    rw [bookings, State.served_of_not serves]
    exact flagged
  | true =>
    rw [State.served_of_serves serves, State.serveFloor_eq, State.resync_carBookings, State.resync_self, State.boarded_car]
    exact Car.resync_listOk _ _ flagged.planOk

include once in
/-- R93: whom a served floor leaves on the car, as they stood before. -/
theorem State.mem_served_carBookings (serves : servesNow st (s.serviceGiven b c kind st) = true) {j : Booking} :
    j ∈ (s.served b c kind st).carBookings b c ↔
      ∃ k ∈ s.carBookings b c, k.doneAt b c st = false ∧
        j = if k.boardsAt b c st = true then { k with state := .riding } else k := by
  obtain ⟨bookings, -, -⟩ := State.served_of_stays stays once serves
  have on (k : Booking) : (if k.boardsAt b c st = true then { k with state := .riding } else k).bank = k.bank ∧
      (if k.boardsAt b c st = true then { k with state := .riding } else k).car = k.car := by
    split <;> exact ⟨rfl, rfl⟩
  rw [State.mem_carBookings, bookings]
  simp only [List.mem_map, List.mem_filter, Bool.not_eq_true', State.mem_carBookings]
  constructor
  · rintro ⟨⟨k, ⟨hk, off⟩, rfl⟩, bank, car⟩
    exact ⟨k, ⟨hk, (on k).1 ▸ bank, (on k).2 ▸ car⟩, off, rfl⟩
  · rintro ⟨k, ⟨hk, bank, car⟩, off, rfl⟩
    exact ⟨⟨k, ⟨hk, off⟩, rfl⟩, (on k).1.trans bank, (on k).2.trans car⟩

include once in
/-- R79, R93, R94: serving a floor brings no key among the projected stops, and takes away none of another floor. -/
theorem State.served_footprint (ok : (s.car b c).listOk (s.carBookings b c)) {x : Key} :
    (x ∈ ((s.served b c kind st).car b c).footprint ((s.served b c kind st).carBookings b c) →
        x ∈ (s.car b c).footprint (s.carBookings b c)) ∧
      (x.floor ≠ st.position → x ∈ (s.car b c).footprint (s.carBookings b c) →
        x ∈ ((s.served b c kind st).car b c).footprint ((s.served b c kind st).carBookings b c)) := by
  have after := State.served_listOk (kind := kind) (st := st) stays ok
  rw [after.mem_footprint, ok.mem_footprint, State.served_callKeys]
  cases serves : servesNow st (s.serviceGiven b c kind st) with
  | false =>
    have bookings : (s.served b c kind st).carBookings b c = s.carBookings b c :=
      State.carBookings_congr (State.served_bookings_of_idle stays serves)
    rw [bookings]
    simp
  | true =>
    have mem (j : Booking) := State.mem_served_carBookings (j := j) stays once serves
    constructor
    · rintro (⟨j, hj, waits, pickup⟩ | ⟨j, hj, drop⟩ | ⟨called, -⟩)
      · obtain ⟨k, hk, -, rfl⟩ := (mem j).1 hj
        split at waits
        · cases waits
        next stay =>
          rw [if_neg stay] at pickup
          exact .inl ⟨k, hk, waits, pickup⟩
      · obtain ⟨k, hk, -, rfl⟩ := (mem j).1 hj
        rw [Booking.boarded_dropKey] at drop
        exact .inr (.inl ⟨k, hk, drop⟩)
      · exact .inr (.inr called)
    · rintro away (⟨k, hk, waits, pickup⟩ | ⟨k, hk, drop⟩ | called)
      · have stay : k.boardsAt b c st = false := by
          have ne : k.origin ≠ st.position := fun e => away (by rw [← pickup, ← e]; rfl)
          simp [Booking.boardsAt, ne]
        exact .inl ⟨k, (mem k).2 ⟨k, hk, by simp [Booking.doneAt, waits], by rw [stay]; rfl⟩, waits, pickup⟩
      · have stay : k.doneAt b c st = false := by
          have ne : k.dest ≠ st.position := fun e => away (by rw [← drop, ← e]; rfl)
          simp [Booking.doneAt, ne]
        exact .inr (.inl ⟨_, (mem _).2 ⟨k, hk, stay, rfl⟩, by rw [Booking.boarded_dropKey, drop]⟩)
      · exact .inr (.inr ⟨called, fun _ => away⟩)

include once in
/-- R94: a reported call that has an entry, a pending drop or room with all the others is entered. -/
theorem State.attends_enters (ok : (s.car b c).listOk (s.carBookings b c)) (fresh : st.fresh = true) {f : Floor}
    (reported : f ∈ st.calls) (heard : (s.car b c).hears st.position f)
    (room : { floor := f, dir := dirOf st.position f } ∈ (s.car b c).keys ∨
      { floor := f, dir := dirOf st.position f } ∈ s.pendingDrops b c ∨ s.projected b c + st.calls.length ≤ 24) :
    { floor := f, dir := dirOf st.position f } ∈ ((s.attends b c kind st).car b c).callKeys := by
  rw [State.attends_eq, State.called, if_pos fresh]
  refine State.takeCalls_enters _ _ (State.served_listOk stays ok) reported ?_ (by simp) ?_
  · rw [Car.hears, State.served_enabled]
    exact heard
  · have before : { floor := f, dir := dirOf st.position f } ∈ (s.car b c).footprint (s.carBookings b c) ∨
        s.projected b c + st.calls.length ≤ 24 := by
      rcases room with key | drop | le
      · exact .inl (Car.mem_footprint.2 (.inl key))
      · exact .inl (Car.mem_footprint.2 (.inr (State.mem_pendingDrops.1 drop)))
      · exact .inr le
    refine before.imp (fun entry => (State.served_footprint stays once ok).2 heard.2 entry) fun le => ?_
    have fewer : (s.served b c kind st).projected b c ≤ s.projected b c := by
      rw [State.projected_eq, State.projected_eq]
      exact dedup_length_le_of_subset fun x hx => (State.served_footprint stays once ok).1 hx
    omega

/-- R94: one call alone that has neither entry nor drop nor room is ignored. -/
theorem State.attends_ignores {f : Floor} (only : st.calls = [f])
    (idle : servesNow st (s.serviceGiven b c kind st) = false)
    (key : { floor := f, dir := dirOf st.position f } ∉ (s.car b c).keys)
    (drop : { floor := f, dir := dirOf st.position f } ∉ s.pendingDrops b c) (full : 24 ≤ s.projected b c) :
    ((s.attends b c kind st).car b c).stops = (s.shifted b c kind st).stops ∧
      (s.attends b c kind st).disp.bookings = s.disp.bookings := by
  have car : (s.served b c kind st).car b c = { s.shifted b c kind st with
      full := fullFlag (s.bank b).fullThreshold st.load (s.shifted b c kind st).full } := by
    rw [State.served_of_not idle, State.flagged, State.car_setCar_self, State.moved_car_of_stays stays]
  have bookings : (s.served b c kind st).disp.bookings = s.disp.bookings := State.served_bookings_of_idle stays idle
  have keys : (((s.served b c kind st).car b c).keys).Perm (s.car b c).keys := by
    rw [car]
    exact s.reported_keys_perm b c kind st
  have drops : (s.served b c kind st).pendingDrops b c = s.pendingDrops b c := by
    rw [State.pendingDrops, State.waitingOn, State.carBookings_congr bookings, State.pendingDrops, State.waitingOn]
  have projected : (s.served b c kind st).projected b c = s.projected b c := by
    rw [State.projected, State.projected, drops]
    exact (List.Perm.dedup (keys.append_right _)).length_eq
  have same : s.attends b c kind st = s.served b c kind st := by
    rw [State.attends_eq, State.called, only]
    split
    · rcases (s.served b c kind st).takeCalls_cons (b := b) (c := c) st.position f [] [] with ⟨e, -⟩ | ⟨e, -⟩
      · exact e
      · rw [e]
        rcases (s.served b c kind st).takeCall_cases b c { floor := f, dir := dirOf st.position f } with ⟨room, -⟩ | ⟨-, e⟩
        · rw [keys.mem_iff, drops, projected] at room
          rcases room with entry | pending | fits
          · exact absurd entry key
          · exact absurd pending drop
          · omega
        · rw [e] <;> rfl
    · rfl
  rw [same, car]
  exact ⟨rfl, bookings⟩

end

end

end Sys2Proof.Machine
end

section
/-! PROOF of O45: what the whole STATUS command does to the riders and to the car calls. -/

namespace Sys2Proof.Machine

section
variable {s u : State} {l : Bank} {t : Transaction} {st : Status}
  (h : s.hearsStatus l t (s.statusEvent l t.car t.kind st) u)
include h

/-- R84, R94: the list after the STATUS is the one that the enabled set formed afresh leaves. -/
theorem State.hearsStatus.stops : (u.car l t.car).stops = ((s.attends l t.car t.kind st).formedCar l t.car).stops := by
  rw [h.car, Car.closeGeneration_stops, State.statusEvent_eq]
  unfold State.car
  rw [State.reportService_disp]
  exact congrArg Car.stops ((s.attends l t.car t.kind st).formEnabled_self l t.car)

theorem State.hearsStatus.enabled :
    (u.car l t.car).enabled = (s.attends l t.car t.kind st).enabledOf l t.car := by
  rw [← State.formedCar_enabled, h.car, Car.closeGeneration_enabled, State.statusEvent_eq]
  unfold State.car
  rw [State.reportService_disp]
  exact congrArg Car.enabled ((s.attends l t.car t.kind st).formEnabled_self l t.car)

theorem State.hearsStatus.mem_callKeys {x : Key} :
    x ∈ (u.car l t.car).callKeys ↔ x ∈ ((s.attends l t.car t.kind st).car l t.car).callKeys ∧
      ((s.car l t.car).enabled.has x.floor = true → (u.car l t.car).enabled.has x.floor = true) := by
  have same : (u.car l t.car).callKeys = ((s.attends l t.car t.kind st).formedCar l t.car).callKeys := by
    rw [Car.callKeys, h.stops, Car.callKeys]
  rw [same, State.mem_formedCar_callKeys, State.attends_enabled, h.enabled]

/-- R93: no rider for a served floor stays on the car. -/
theorem State.hearsStatus.riders_left (serves : servesNow st (s.serviceGiven l t.car t.kind st) = true)
    (ok : s.bookingsOk) {k : Booking} (held : k ∈ u.disp.bookings) (bank : k.bank = l) (car : k.car = t.car)
    (rides : k.state = .riding) : k.dest ≠ st.position := by
  obtain ⟨bookings, -, -⟩ := State.served_tables serves ok.1
  have moved : (s.moved l t.car t.kind st).bookingsOk := State.event.bookingsOk
    (State.setService_event (s.setCar l t.car (s.reported l t.car t.kind st)) l t.car (s.serviceGiven l t.car t.kind st))
    ok
  rw [h.tables.1, bookings] at held
  obtain ⟨j, hj, rfl⟩ := List.mem_map.1 held
  obtain ⟨hj, off⟩ := List.mem_filter.1 hj
  obtain ⟨-, ends, -⟩ := moved.2 j hj
  by_cases boards : j.boardsAt l t.car st = true
  · rw [if_pos boards]
    simp only [Booking.boardsAt, Bool.and_eq_true, decide_eq_true_eq] at boards
    obtain ⟨⟨-, origin⟩, -⟩ := boards
    exact fun e => ends (origin.trans e.symm)
  · rw [if_neg boards] at bank car rides ⊢
    intro dest
    simp [Booking.doneAt, bank, car, rides, dest] at off

/-- R94: a call stood before, or its floor is in a FRESH report, was enabled and is not the position. -/
theorem State.hearsStatus.called {x : Key} (called : x ∈ (u.car l t.car).callKeys) :
    (x ∈ (s.car l t.car).callKeys ∧
        (servesNow st (s.serviceGiven l t.car t.kind st) = true → x.floor ≠ st.position)) ∨
      (st.fresh = true ∧ x.floor ∈ st.calls ∧ (s.car l t.car).hears st.position x.floor ∧
        x = { floor := x.floor, dir := dirOf st.position x.floor }) :=
  (State.attends_callKeys (h.mem_callKeys.1 called).1).imp_left State.served_callKeys.1

/-- R94: a call that has none of the three leaves the keys. -/
theorem State.hearsStatus.ignored (stays : ¬ s.leavesBy l t.car t.kind st) (ok : s.carOk l t.car)
    {f : Floor} (only : st.calls = [f])
    (idle : servesNow st (s.serviceGiven l t.car t.kind st) = false)
    (key : { floor := f, dir := dirOf st.position f } ∉ (s.car l t.car).keys)
    (drop : { floor := f, dir := dirOf st.position f } ∉ s.pendingDrops l t.car)
    (full : 24 ≤ s.projected l t.car) (x : Key) : x ∈ (u.car l t.car).keys ↔ x ∈ (s.car l t.car).keys := by
  obtain ⟨stops, bookings⟩ := State.attends_ignores stays only idle key drop full
  have lists := State.attends_listsCar (s := s) (b := l) (c := t.car) (kind := t.kind) (st := st)
  have policy : (s.attends l t.car t.kind st).policy = s.policy := by
    rw [lists.policy]
    exact s.moved_policy l t.car t.kind st
  have modes : (s.attends l t.car t.kind st).disp.modes = s.disp.modes := by
    rw [lists.modes]
    exact s.moved_modes l t.car t.kind st
  have here : ((s.attends l t.car t.kind st).car l t.car).service ≠ .absent := by
    rw [lists.car.service, State.flagged, State.car_setCar_self, (s.moved_listOnly_self l t.car t.kind st).service]
    exact State.serviceGiven_ne_absent _ _ _ _ _
  obtain ⟨-, enabled, -⟩ := ok
  have formed : (s.attends l t.car t.kind st).formedCar l t.car =
      { (s.attends l t.car t.kind st).car l t.car with enabled := (s.attends l t.car t.kind st).enabledOf l t.car } := by
    refine State.formedCar_of_kept fun k _ on => ?_
    rw [State.attends_enabled, enabled] at on
    rw [State.enabledOf_has, State.enabledAt_congr modes policy bookings]
    exact ⟨here, on.2⟩
  have same : (u.car l t.car).stops = (s.shifted l t.car t.kind st).stops := by rw [h.stops, formed, ← stops]
  rw [Car.keys, same]
  exact (s.reported_keys_perm l t.car t.kind st).mem_iff

end

/-- Settles O45. -/
theorem statusServesTheFloor : Obligations.StatusServesTheFloor := by
  intro s l t a position direction motion doors carMode load freshness held accepted calls st u r old new mine done
    boards serves stays towards awaiting open' inHand address present ok good run
  have once := ok.1
  have run' := exec_status_taken awaiting open' inHand address good
  rw [State.takeStatus_configured present] at run'
  have h := s.hearsStatus_of l t _ (s.statusEvent_lines l t.car t.kind st) (s.statusEvent_policy l t.car t.kind st)
    (s.statusEvent_part l t.car t.kind st)
  generalize ((s.closeCars (s.statusEvent l t.car t.kind st)).endTransaction l t).choose = w at run' h
  obtain rfl : u = w := Host.Outcome.next.inj (run.symm.trans run')
  obtain ⟨bookings, tickets, ports⟩ := h.tables
  have given : new.service = s.serviceGiven l t.car t.kind st := h.service
  have servesIff : servesNow st (s.serviceGiven l t.car t.kind st) = true ↔ serves := by
    rw [servesNow_iff, ← given]
  have stay (h : stays) : ¬ s.leavesBy l t.car t.kind st := fun leaves => h.elim (fun no => no leaves.1)
    fun is => leaves.2 (given ▸ is)
  refine ⟨fun st' sv => ?_, fun st' no => ?_, fun sv => ⟨fun k hk own rides => ?_, fun e he floor => ?_⟩,
    fun e he call => ?_, fun st' carOk fresh => ⟨fun f reported on still away room => ?_,
      fun f only no key drop full k => ?_⟩⟩
  · obtain ⟨left, forgotten, memory⟩ := State.served_of_stays (stay st') once (servesIff.2 sv)
    refine ⟨bookings.trans left, (tickets.trans forgotten).trans (List.map_congr_left fun y _ => if_congr ?_ rfl rfl),
      fun q m => ?_⟩
    · simp only [Booking.leads, ← Bool.and_assoc]
      rfl
    · rw [ports]
      exact memory q m
  · have idle : servesNow st (s.serviceGiven l t.car t.kind st) = false :=
      Bool.eq_false_iff.2 fun yes => no (servesIff.1 yes)
    refine ⟨bookings.trans (State.served_bookings_of_idle (stay st') idle), tickets.trans ?_, fun q => ?_⟩
    · rw [State.served_of_not idle, ← State.moved_tickets_of_stays (stay st')] <;> rfl
    · rw [ports, State.served_of_not idle, ← State.moved_port_of_stays (stay st')] <;> rfl
  · obtain ⟨bank, car⟩ := Bool.and_eq_true_iff.1 own
    exact h.riders_left (servesIff.2 sv) ok hk (of_decide_eq_true bank) (of_decide_eq_true car) rides
  · by_contra call
    have called := h.called (Car.mem_callKeys.2 ⟨e, he, by simpa using call, rfl⟩)
    rcases called with ⟨-, away⟩ | ⟨-, -, heard, -⟩
    · exact away (servesIff.2 sv) floor
    · exact heard.2 floor
  · rcases h.called (Car.mem_callKeys.2 ⟨e, he, call, rfl⟩) with ⟨before, -⟩ | ⟨fresh, reported, heard, key⟩
    · obtain ⟨x, hx, xCall, xKey⟩ := Car.mem_callKeys.1 before
      exact .inl ⟨x, hx, xKey, xCall⟩
    · exact .inr ⟨fresh, reported, heard.1, heard.2, key⟩
  · have entered := State.attends_enters (stay st') once carOk.1 fresh reported ⟨on, away⟩ room
    obtain ⟨e, he, call, key⟩ := Car.mem_callKeys.1 (h.mem_callKeys.2 ⟨entered, fun _ => still⟩)
    exact ⟨e, he, key, call⟩
  · have idle : servesNow st (s.serviceGiven l t.car t.kind st) = false :=
      Bool.eq_false_iff.2 fun yes => no (servesIff.1 yes)
    exact h.ignored (stay st') carOk only idle key drop full k

end Sys2Proof.Machine
end

section
/-! SUPPORT for O57 (R81, R84, R94, R98): a car in step, in the parts that an event keeps all along and those that stand
again at its end. -/

namespace Sys2Proof.Machine

/-! ### The parts of a car in step -/

/-- R81, R80, R79: what stands of a car all through an event: its list follows its bookings, calls stand at floors of its
enabled set, units and stops have room, and an ABSENT car is empty. -/
structure State.carFits (s : State) (b : Bank) (c : CarNo) : Prop where
  list : (s.car b c).listOk (s.carBookings b c)
  calls : ∀ k ∈ (s.car b c).callKeys, (s.car b c).enabled.has k.floor = true
  units : unitsOf (s.carBookings b c) ≤ (s.bank b).capacity
  stops : ((s.car b c).footprint (s.carBookings b c)).dedup.length ≤ 24
  absent : (s.car b c).service = .absent → s.carBookings b c = [] ∧ (s.car b c).stops = []

/-- R84: the enabled set of a car is the one due. -/
def State.carFormed (s : State) (b : Bank) (c : CarNo) : Prop :=
  ∀ f, (s.car b c).enabled.has f = true ↔ (s.car b c).service ≠ .absent ∧ s.enabledAt b c f

/-- R98: a car that is not IN_SERVICE has no WAITING booking. -/
def State.carServed (s : State) (b : Bank) (c : CarNo) : Prop :=
  (s.car b c).service ≠ .inService → ∀ k ∈ s.carBookings b c, k.state ≠ .waiting

theorem State.carOk_iff {s : State} {b : Bank} {c : CarNo} :
    s.carOk b c ↔ s.carFits b c ∧ s.carFormed b c ∧ s.carServed b c := by
  constructor
  · rintro ⟨list, formed, calls, units, stops, served, absent⟩
    refine ⟨⟨list, fun k hk => ?_, units, stops, absent⟩, formed, served⟩
    obtain ⟨e, he, call, rfl⟩ := Car.mem_callKeys.1 hk
    exact calls e he call
  · rintro ⟨⟨list, calls, units, stops, absent⟩, formed, served⟩
    exact ⟨list, formed, fun e he call => calls _ (Car.mem_callKeys.2 ⟨e, he, call, rfl⟩), units, stops, served, absent⟩

/-! ### A car and its bookings alone (R81) -/

section
variable {s t : State} {b : Bank} {c : CarNo} (car : t.car b c = s.car b c)
include car

theorem State.carFits.congr (h : s.carFits b c) (bookings : t.carBookings b c = s.carBookings b c)
    (capacity : (t.bank b).capacity = (s.bank b).capacity) : t.carFits b c where
  list := by rw [car, bookings]; exact h.list
  calls := by rw [car]; exact h.calls
  units := by rw [bookings, capacity]; exact h.units
  stops := by rw [car, bookings]; exact h.stops
  absent := by rw [car, bookings]; exact h.absent

theorem State.carServed.congr (h : s.carServed b c) (bookings : t.carBookings b c = s.carBookings b c) : t.carServed b c := by
  unfold State.carServed
  rw [car, bookings]
  exact h

end

/-- R84: the set due follows the mode, the floors and the riders of the car. -/
theorem State.enabledAt_of_riders {s t : State} {b : Bank} {c : CarNo} (mode : t.mode b = s.mode b)
    (floors : t.policy.floors = s.policy.floors)
    (riders : ∀ k : Booking, k.bank = b → k.car = c → k.state = .riding → (k ∈ t.disp.bookings ↔ k ∈ s.disp.bookings))
    (f : Floor) : t.enabledAt b c f ↔ s.enabledAt b c f := by
  have floor (g : Floor) : t.floor g = s.floor g := by rw [State.floor, floors, State.floor]
  have serves : t.serves b f = s.serves b f := by rw [State.serves, floor, State.serves]
  unfold State.enabledAt
  rw [mode, floor, serves]
  refine and_congr_right fun _ => or_congr_right (exists_congr fun k => ?_)
  constructor
  · rintro ⟨held, bank, car, rides, dest⟩
    exact ⟨(riders k bank car rides).1 held, bank, car, rides, dest⟩
  · rintro ⟨held, bank, car, rides, dest⟩
    exact ⟨(riders k bank car rides).2 held, bank, car, rides, dest⟩

theorem State.carFormed.of_at {s t : State} {b : Bank} {c : CarNo} (h : s.carFormed b c)
    (enabled : (t.car b c).enabled = (s.car b c).enabled)
    (absent : (t.car b c).service = .absent ↔ (s.car b c).service = .absent)
    (due : ∀ f, t.enabledAt b c f ↔ s.enabledAt b c f) : t.carFormed b c := by
  intro f
  rw [enabled, due, Ne, absent]
  exact h f

/-! ### Fewer duties (R85, R87, R93) -/

/-- From `s` to `t` a car has no more duties than it had. -/
structure State.thins (s t : State) (b : Bank) (c : CarNo) : Prop where
  list : (s.car b c).listOk (s.carBookings b c) → (t.car b c).listOk (t.carBookings b c)
  calls : ∀ k ∈ (t.car b c).callKeys, k ∈ (s.car b c).callKeys ∧
    ((s.car b c).enabled.has k.floor = true → (t.car b c).enabled.has k.floor = true)
  bookings : ∀ j ∈ t.carBookings b c, ∃ k ∈ s.carBookings b c, j.origin = k.origin ∧ j.dest = k.dest ∧
    (j.state = .waiting → k.state = .waiting)
  units : unitsOf (t.carBookings b c) ≤ unitsOf (s.carBookings b c)
  capacity : (t.bank b).capacity = (s.bank b).capacity
  absent : (t.car b c).service = .absent → (s.car b c).service = .absent

section
variable {s t u : State} {b : Bank} {c : CarNo}

theorem State.thins.trans (h : s.thins t b c) (k : t.thins u b c) : s.thins u b c where
  list ok := k.list (h.list ok)
  calls x hx := ⟨(h.calls x (k.calls x hx).1).1, fun on => (k.calls x hx).2 ((h.calls x (k.calls x hx).1).2 on)⟩
  bookings j hj := by
    obtain ⟨y, hy, origin, dest, waits⟩ := k.bookings j hj
    obtain ⟨x, hx, origin', dest', waits'⟩ := h.bookings y hy
    exact ⟨x, hx, origin.trans origin', dest.trans dest', waits' ∘ waits⟩
  units := k.units.trans h.units
  capacity := k.capacity.trans h.capacity
  absent := h.absent ∘ k.absent

theorem State.thins.of_car (car : t.car b c = s.car b c) (bookings : t.carBookings b c = s.carBookings b c)
    (policy : t.policy = s.policy) : s.thins t b c where
  list := by rw [car, bookings]; exact id
  calls := by rw [car]; exact fun _ hk => ⟨hk, id⟩
  bookings := by rw [bookings]; exact fun j hj => ⟨j, hj, rfl, rfl, id⟩
  units := by rw [bookings]
  capacity := by rw [State.bank, policy, State.bank]
  absent := by rw [car]; exact id

theorem State.thins.refl (s : State) (b : Bank) (c : CarNo) : s.thins s b c := .of_car rfl rfl rfl

theorem State.thins.fits (h : s.thins t b c) (fits : s.carFits b c) : t.carFits b c where
  list := h.list fits.list
  calls k hk := (h.calls k hk).2 (fits.calls k (h.calls k hk).1)
  units := h.capacity ▸ h.units.trans fits.units
  stops := by
    refine (dedup_length_le_of_subset fun x hx => ?_).trans fits.stops
    rw [(h.list fits.list).mem_footprint] at hx
    rw [fits.list.mem_footprint]
    rcases hx with ⟨j, hj, waits, pickup⟩ | ⟨j, hj, drop⟩ | called
    · obtain ⟨k, hk, origin, dest, was⟩ := h.bookings j hj
      refine .inl ⟨k, hk, was waits, ?_⟩
      rw [← pickup, Booking.pickupKey, Booking.pickupKey, Booking.dir, Booking.dir, origin, dest]
    · obtain ⟨k, hk, origin, dest, -⟩ := h.bookings j hj
      refine .inr (.inl ⟨k, hk, ?_⟩)
      rw [← drop, Booking.dropKey, Booking.dropKey, Booking.dir, Booking.dir, origin, dest]
    · exact .inr (.inr (h.calls x called).1)
  absent is := by
    obtain ⟨none, empty⟩ := fits.absent (h.absent is)
    have unbooked : t.carBookings b c = [] := List.eq_nil_iff_forall_not_mem.2 fun j hj => by
      obtain ⟨k, hk, -⟩ := h.bookings j hj
      rw [none] at hk
      cases hk
    have list := h.list fits.list
    rw [unbooked] at list
    refine ⟨unbooked, List.eq_nil_iff_forall_not_mem.2 fun e he => ?_⟩
    obtain ⟨pickup, drop, duty⟩ := list.1 e he
    rcases duty with duty | duty | call
    · obtain ⟨k, hk, -⟩ := pickup.1 duty
      cases hk
    · obtain ⟨k, hk, -⟩ := drop.1 duty
      cases hk
    · have old := (h.calls e.key (Car.mem_callKeys.2 ⟨e, he, call, rfl⟩)).1
      rw [Car.callKeys_of_empty empty] at old
      cases old

/-- The list brought in step with fewer bookings (R85). -/
theorem State.thins.of_resync {calls : List Key} (car : u.car b c = s.car b c) (policy : u.policy = s.policy)
    (bookings : ∀ j ∈ u.carBookings b c, ∃ k ∈ s.carBookings b c, j.origin = k.origin ∧ j.dest = k.dest ∧
      (j.state = .waiting → k.state = .waiting))
    (units : unitsOf (u.carBookings b c) ≤ unitsOf (s.carBookings b c)) (kept : ∀ k ∈ calls, k ∈ (s.car b c).callKeys) :
    s.thins (u.resync b c calls) b c where
  list ok := by
    rw [State.resync_carBookings, State.resync_self, car]
    exact Car.resync_listOk _ _ ok.planOk
  calls k hk := by
    rw [State.resync_self, Car.mem_resync_callKeys] at hk
    rw [State.resync_self, (Car.resync_listOnly _ _ _).enabled, car]
    exact ⟨kept k hk, id⟩
  bookings := bookings
  units := units
  capacity := by
    show (u.bank b).capacity = _
    rw [State.bank, policy, State.bank]
  absent := by
    rw [State.resync_self, (Car.resync_listOnly _ _ _).service, car]
    exact id

/-- R84: a set formed afresh takes the calls of the floors that leave it. -/
theorem State.formEnabled_thins (s : State) (h : Bank) (d : CarNo) : s.thins (s.formEnabled h d) b c := by
  have only := s.formEnabled_carsOnly h d
  by_cases own : (b, c) = (h, d)
  · obtain ⟨rfl, rfl⟩ := Prod.mk.inj own
    refine ⟨fun ok => ?_, fun k hk => ?_, fun j hj => ⟨j, only.carBookings b c ▸ hj, rfl, rfl, id⟩, ?_, ?_, ?_⟩
    · rw [only.carBookings, State.formEnabled_self]
      exact State.formedCar_listOk ok
    · rw [State.formEnabled_self, State.mem_formedCar_callKeys] at hk
      rw [State.formEnabled_self, State.formedCar_enabled]
      exact hk
    · rw [only.carBookings]
    · rw [only.bank]
    · rw [State.formEnabled_self, State.formedCar_service]
      exact id
  · exact .of_car (State.formEnabled_other _ own) (only.carBookings b c) only.policy

theorem unitsOf_le_of_sublist {ks js : List Booking} (h : ks.Sublist js) : unitsOf ks ≤ unitsOf js := by
  rw [unitsOf_eq_sum, unitsOf_eq_sum]
  exact (h.map _).sum_le_sum fun _ _ => Nat.zero_le _

/-! ### A booking off its car (R87, R99) -/

section
variable {k : Booking} (once : (s.disp.bookings.map fun k => k.id).Nodup) (held : k ∈ s.disp.bookings)

theorem State.removeBooking_carBookings (s : State) (i : Nat) (b : Bank) (c : CarNo) :
    (s.removeBooking i).carBookings b c = (s.carBookings b c).filter fun j => j.id ≠ i := by
  show (s.disp.bookings.filter _).filter _ = (s.disp.bookings.filter _).filter _
  rw [List.filter_filter, List.filter_filter]
  exact List.filter_congr fun _ _ => Bool.and_comm _ _

include once held in
theorem State.removeBooking_carBookings_other (ne : (b, c) ≠ (k.bank, k.car)) :
    (s.removeBooking k.id).carBookings b c = s.carBookings b c := by
  rw [State.removeBooking_carBookings]
  refine List.filter_eq_self.2 fun j hj => decide_eq_true fun id => ne ?_
  obtain ⟨there, rfl, rfl⟩ := State.mem_carBookings.1 hj
  rw [List.inj_on_of_nodup_map once there held id]

include once held in
theorem State.offTable_thins : s.thins (s.offTable k) b c := by
  by_cases own : (b, c) = (k.bank, k.car)
  · obtain ⟨rfl, rfl⟩ := Prod.mk.inj own
    have fewer : ((s.removeBooking k.id).carBookings k.bank k.car).Sublist (s.carBookings k.bank k.car) := by
      rw [State.removeBooking_carBookings]
      exact List.filter_sublist
    exact .of_resync (u := s.removeBooking k.id) rfl rfl (fun j hj => ⟨j, fewer.subset hj, rfl, rfl, id⟩)
      (unitsOf_le_of_sublist fewer) fun _ hx => hx
  · exact .of_car (State.resync_other _ own _) (State.removeBooking_carBookings_other once held own) rfl

theorem State.offTable_policy : (s.offTable k).policy = s.policy := rfl

theorem State.offCar_car_of_waiting (waits : k.state = .waiting) : (s.offCar k).car b c = (s.offTable k).car b c := by
  unfold State.offCar
  rw [waits] <;> rfl

theorem State.offCar_of_riding (rides : k.state = .riding) :
    s.offCar k = (s.offTable k).formEnabled k.bank k.car := by
  unfold State.offCar
  rw [rides] <;> rfl

theorem State.cancel_carBookings (r : CancelReason) :
    (s.cancel r k).carBookings b c = (s.offTable k).carBookings b c := by
  rw [State.carBookings, State.cancel_bookings] <;> rfl

include once held in
theorem State.cancel_thins (r : CancelReason) : s.thins (s.cancel r k) b c := by
  have off := State.offTable_thins (b := b) (c := c) once held
  have policy : (s.cancel r k).policy = (s.offTable k).policy :=
    (s.cancel_only r k .policy (by decide)).trans State.offTable_policy.symm
  have car := s.cancel_car_eq r k b c
  have bookings := State.cancel_carBookings (s := s) (k := k) (b := b) (c := c) r
  generalize s.cancel r k = v at policy car bookings
  cases state : k.state with
  | waiting =>
    rw [State.offCar_car_of_waiting state] at car
    exact off.trans (.of_car car bookings policy)
  | riding =>
    rw [State.offCar_of_riding state] at car
    generalize s.offTable k = u at off policy car bookings
    have only := u.formEnabled_carsOnly k.bank k.car
    exact (off.trans (u.formEnabled_thins k.bank k.car)).trans
      (.of_car car (bookings.trans (only.carBookings b c).symm) (policy.trans only.policy.symm))

end

/-- R87: cancellations, of bookings that are there, each once. -/
theorem State.cancelAll_thins (r : CancelReason) {ks : List Booking} (ids : (ks.map fun k => k.id).Nodup)
    (once : (s.disp.bookings.map fun k => k.id).Nodup) (held : ∀ k ∈ ks, k ∈ s.disp.bookings) :
    s.thins (s.cancelAll r ks) b c := by
  induction ks generalizing s with
  | nil => exact .refl s b c
  | cons k ks ih =>
    obtain ⟨fresh, ids⟩ := List.nodup_cons.1 ids
    obtain ⟨first, rest⟩ := List.forall_mem_cons.1 held
    refine (State.cancel_thins once first r).trans (ih ids ?_ fun j hj => ?_)
    · exact once.sublist (s.cancel_event r k).bookingIds
    · rw [State.cancel_bookings]
      exact List.mem_filter.2 ⟨rest j hj, decide_eq_true fun e => fresh (List.mem_map.2 ⟨j, hj, e⟩)⟩

theorem State.cancelKind_thins (r : CancelReason) (gone : Booking → Bool)
    (once : (s.disp.bookings.map fun k => k.id).Nodup) : s.thins (s.cancelKind r gone) b c := by
  refine State.cancelAll_thins r ?_ once fun k hk => ?_
  · rw [((serialOrder_perm _).map _).nodup_iff]
    exact once.sublist (List.filter_sublist.map _)
  · exact (List.mem_filter.1 ((mem_serialOrder _ k).1 hk)).1

end

end Sys2Proof.Machine
end

section
/-! SUPPORT for O57 (R79, R85, R98, R99): a booking placed on a car, the WAITING bookings of a car moved, and what keeps
the riders. -/

namespace Sys2Proof.Machine

/-! ### Bookings in another order -/

theorem Car.listOk.of_perm {x : Car} {bs cs : List Booking} (h : x.listOk bs) (same : cs.Perm bs) : x.listOk cs := by
  unfold Car.listOk at *
  simp only [same.mem_iff]
  exact h

theorem unitsOf_of_perm {ks js : List Booking} (h : ks.Perm js) : unitsOf ks = unitsOf js := by
  rw [unitsOf_eq_sum, unitsOf_eq_sum]
  exact (h.map _).sum_eq

section
variable {s t : State} {b : Bank} {c : CarNo}

theorem State.thins.of_perm (car : t.car b c = s.car b c) (bookings : (t.carBookings b c).Perm (s.carBookings b c))
    (policy : t.policy = s.policy) : s.thins t b c where
  list ok := by rw [car]; exact ok.of_perm bookings
  calls := by rw [car]; exact fun _ hk => ⟨hk, id⟩
  bookings j hj := ⟨j, bookings.mem_iff.1 hj, rfl, rfl, id⟩
  units := (unitsOf_of_perm bookings).le
  capacity := by rw [State.bank, policy, State.bank]
  absent := by rw [car]; exact id

/-! ### One booking more (R79, R103) -/

/-- R103: a car that takes a booking of a trip for which its lane is not excluded. -/
theorem State.carFits.takes {calls : List Key} {k : Booking} (fits : s.carFits b c)
    (included : s.laneExcluded b k.trip c = false) (car : t.car b c = s.car b c) (policy : t.policy = s.policy)
    (bookings : (t.carBookings b c).Perm (k :: s.carBookings b c))
    (kept : ∀ x ∈ calls, x ∈ (s.car b c).callKeys) : (t.resync b c calls).carFits b c := by
  rw [Bool.eq_false_iff, Ne, State.laneExcluded_iff] at included
  push Not at included
  obtain ⟨present, -, room, budget, -⟩ := included
  have self := t.resync_self b c calls
  rw [car] at self
  have list : ((t.resync b c calls).car b c).listOk ((t.resync b c calls).carBookings b c) := by
    rw [State.resync_carBookings, self]
    exact Car.resync_listOk _ _ fits.list.planOk
  have called (x : Key) (hx : x ∈ ((t.resync b c calls).car b c).callKeys) : x ∈ (s.car b c).callKeys := by
    rw [self, Car.mem_resync_callKeys] at hx
    exact kept x hx
  refine ⟨list, fun x hx => ?_, ?_, ?_, fun absent => ?_⟩
  · rw [self, (Car.resync_listOnly _ _ _).enabled]
    exact fits.calls x (called x hx)
  · show unitsOf (t.carBookings b c) ≤ (t.bank b).capacity
    rw [unitsOf_of_perm bookings, State.bank, policy]
    exact (Nat.add_comm _ _).trans_le room
  · refine (dedup_length_le_of_subset fun x hx => ?_).trans budget
    rw [list.mem_footprint, State.resync_carBookings] at hx
    have old : x ∈ (s.car b c).footprint (s.carBookings b c) →
        x ∈ (s.car b c).keys ++ s.pendingDrops b c ++ [k.trip.pickupKey, k.trip.dropKey] := fun h => by
      rw [Car.mem_footprint, ← State.mem_pendingDrops, ← List.mem_append] at h
      exact List.mem_append_left _ h
    rw [fits.list.mem_footprint] at old
    rcases hx with ⟨j, hj, waits, rfl⟩ | ⟨j, hj, rfl⟩ | hx
    · rcases List.mem_cons.1 (bookings.mem_iff.1 hj) with rfl | hj
      · exact List.mem_append_right _ List.mem_cons_self
      · exact old (.inl ⟨j, hj, waits, rfl⟩)
    · rcases List.mem_cons.1 (bookings.mem_iff.1 hj) with rfl | hj
      · exact List.mem_append_right _ (List.mem_cons_of_mem _ List.mem_cons_self)
      · exact old (.inr (.inl ⟨j, hj, rfl⟩))
    · exact old (.inr (.inr (called x hx)))
  · rw [self, (Car.resync_listOnly _ _ _).service, present] at absent
    cases absent

end

theorem State.resync_fits_other {t : State} {b h : Bank} {c d : CarNo} {calls : List Key} (ne : (b, c) ≠ (h, d))
    (fits : t.carFits b c) : (t.resync h d calls).carFits b c :=
  (State.thins.of_car (State.resync_other _ ne _) (State.resync_carBookings _ _ _) rfl).fits fits

/-! ### A booking placed (R85) -/

section
variable {s : State} {b : Bank} {c : CarNo}

theorem State.place_fits {k : Booking} (fits : ∀ h d, s.carFits h d) (included : s.laneExcluded k.bank k.trip k.car = false)
    (b : Bank) (c : CarNo) : (s.place k).carFits b c := by
  obtain ⟨t, ht⟩ : ∃ t, t = s.setBookings (s.disp.bookings ++ [k]) := ⟨_, rfl⟩
  have car (h d) : t.car h d = s.car h d := by rw [ht] <;> rfl
  have policy : t.policy = s.policy := by rw [ht] <;> rfl
  have bookings : t.disp.bookings = s.disp.bookings ++ [k] := by rw [ht] <;> rfl
  have placed : s.place k = t.resyncKeep k.bank k.car := by rw [ht] <;> rfl
  rw [placed, State.resyncKeep]
  by_cases own : (b, c) = (k.bank, k.car)
  · obtain ⟨rfl, rfl⟩ := Prod.mk.inj own
    refine (fits _ _).takes (k := k) included (car _ _) policy ?_ fun x hx => car k.bank k.car ▸ hx
    rw [State.carBookings, bookings, List.filter_append, List.filter_singleton, decide_eq_true (⟨rfl, rfl⟩ : _ ∧ _)]
    exact List.perm_append_singleton _ _
  · refine State.resync_fits_other own ((State.thins.of_car (car b c) ?_ policy).fits (fits b c))
    · rw [State.carBookings, bookings, List.filter_append, List.filter_singleton,
        decide_eq_false fun e => own (Prod.ext e.1.symm e.2.symm)]
      exact List.append_nil _

/-! ### A booking moved (R98, R99) -/

theorem moved_perm {ks : List Booking} {k : Booking} (once : (ks.map fun k => k.id).Nodup) (held : k ∈ ks) (d : CarNo) :
    (ks.map fun x => if x.id = k.id then { x with car := d } else x).Perm
      ({ k with car := d } :: ks.filter fun x => x.id ≠ k.id) := by
  induction ks with
  | nil => cases held
  | cons x ks ih =>
    obtain ⟨fresh, once⟩ := List.nodup_cons.1 once
    rw [List.map_cons, List.filter_cons]
    by_cases own : x.id = k.id
    · have others (y) (hy : y ∈ ks) : y.id ≠ k.id := fun e => fresh (List.mem_map.2 ⟨y, hy, e.trans own.symm⟩)
      obtain rfl : k = x := (List.mem_cons.1 held).resolve_right fun h => others k h rfl
      rw [if_pos own, decide_eq_false (not_not.2 own), if_neg (by simp),
        List.filter_eq_self.2 fun y hy => decide_eq_true (others y hy),
        List.map_congr_left fun y hy => if_neg (others y hy), List.map_id']
    · rw [if_neg own, decide_eq_true own, if_pos rfl]
      have held : k ∈ ks := (List.mem_cons.1 held).resolve_left fun e => own (congrArg Booking.id e.symm)
      exact ((ih once held).cons x).trans (.swap _ _ _)

theorem State.movedTo_carBookings {k : Booking} (once : (s.disp.bookings.map fun k => k.id).Nodup)
    (held : k ∈ s.disp.bookings) (d : CarNo) :
    ((s.movedTo k d).carBookings b c).Perm
      (if (b, c) = (k.bank, d) then { k with car := d } :: (s.offTable k).carBookings b c
        else (s.offTable k).carBookings b c) := by
  have perm := (moved_perm once held d).filter fun j => Decidable.decide (j.bank = b ∧ j.car = c)
  rw [← State.movedTo_bookings, List.filter_cons] at perm
  by_cases own : (b, c) = (k.bank, d)
  · obtain ⟨rfl, rfl⟩ := Prod.mk.inj own
    rw [if_pos (by simp)] at perm
    rw [if_pos rfl]
    exact perm
  · rw [if_neg fun e => own (by simp at e; rw [e.1, e.2])] at perm
    rw [if_neg own]
    exact perm

/-- R99: the booking on its new car, seen from the tables without it. -/
theorem State.movedTo_car (s : State) (k : Booking) (d : CarNo) :
    ∃ t : State, (∀ h e, t.car h e = (s.offTable k).car h e) ∧ t.policy = (s.offTable k).policy ∧
      (∀ h e, t.carBookings h e = (s.movedTo k d).carBookings h e) ∧
      (∀ h e, (s.movedTo k d).car h e = (t.resyncKeep k.bank d).car h e) ∧ (s.movedTo k d).policy = t.policy := by
  unfold State.movedTo
  generalize s.offTable k = off
  obtain ⟨t, ht⟩ : ∃ t, t =
    off.setBookings (s.disp.bookings.map fun x => if x.id = k.id then { x with car := d } else x) := ⟨_, rfl⟩
  refine ⟨t, fun h e => by rw [ht] <;> rfl, by rw [ht] <;> rfl, ?_⟩
  rw [← ht]
  generalize moved : t.resyncKeep k.bank d = u
  refine ⟨fun h e => ?_, fun _ _ => rfl, ?_⟩
  · show _ = u.carBookings h e
    rw [← moved] <;> rfl
  · show u.policy = _
    rw [← moved] <;> rfl

section
variable {k : Booking} (once : (s.disp.bookings.map fun k => k.id).Nodup) (held : k ∈ s.disp.bookings)
include once held

theorem State.movedTo_fits {d : CarNo} (fits : ∀ h e, s.carFits h e)
    (included : (s.offTable k).laneExcluded k.bank k.trip d = false) (b : Bank) (c : CarNo) :
    (s.movedTo k d).carFits b c := by
  have off (h e) : (s.offTable k).carFits h e := (State.offTable_thins once held).fits (fits h e)
  obtain ⟨t, cars, policy, bookings, moved, same⟩ := s.movedTo_car k d
  have perm := State.movedTo_carBookings (b := b) (c := c) once held d
  rw [← bookings] at perm
  have whole : (t.resyncKeep k.bank d).carFits b c := by
    by_cases own : (b, c) = (k.bank, d)
    · obtain ⟨rfl, rfl⟩ := Prod.mk.inj own
      rw [if_pos rfl] at perm
      exact (off k.bank c).takes (k := { k with car := c }) included (cars _ _) policy perm
        fun x hx => cars k.bank c ▸ hx
    · rw [if_neg own] at perm
      exact State.resync_fits_other own ((State.thins.of_perm (cars b c) perm policy).fits (off b c))
  exact (State.thins.of_car (moved b c) (bookings b c).symm same).fits whole

theorem State.moveBooking_fits (fits : ∀ h e, s.carFits h e) (b : Bank) (c : CarNo) :
    (s.moveBooking k).carFits b c := by
  rcases s.moveBooking_cases k with e | ⟨d, included, e⟩
  · rw [e]
    exact (State.cancel_thins once held .noCar).fits (fits b c)
  · rw [e]
    exact State.movedTo_fits once held fits included b c

end

theorem State.foldl_move_fits {ks : List Booking} (ids : (ks.map fun k => k.id).Nodup)
    (once : (s.disp.bookings.map fun k => k.id).Nodup) (held : ∀ k ∈ ks, k ∈ s.disp.bookings)
    (fits : ∀ h e, s.carFits h e) : (ks.foldl (fun s k => s.moveBooking k) s).carFits b c := by
  induction ks generalizing s with
  | nil => exact fits b c
  | cons k ks ih =>
    obtain ⟨fresh, ids⟩ := List.nodup_cons.1 ids
    obtain ⟨first, rest⟩ := List.forall_mem_cons.1 held
    refine ih ids (once.sublist (s.moveBooking_event k).bookingIds) (fun j hj => ?_) (State.moveBooking_fits once first fits)
    exact s.mem_moveBooking_of_ne k (rest j hj) fun e => fresh (List.mem_map.2 ⟨j, hj, e⟩)

/-- R98: the WAITING bookings of a car moved. -/
theorem State.loseCar_fits (once : (s.disp.bookings.map fun k => k.id).Nodup) (fits : ∀ h e, s.carFits h e)
    (h : Bank) (d : CarNo) : (s.loseCar h d).carFits b c :=
  State.foldl_move_fits (State.waitingOn_ids_nodup once) once (fun _ hk => (State.mem_waitingOn.1 hk).1) fits

end

/-! ### Only the seats of WAITING bookings change (R84, R98) -/

/-- From `s` to `t` riders, modes and policy stay, a car changes in its list alone, and a booking waits where it waited
or at an IN_SERVICE car. -/
structure State.reseats (s t : State) : Prop where
  cars : ∀ b c, (s.car b c).listOnly (t.car b c)
  riders : ∀ j : Booking, j.state = .riding → (j ∈ t.disp.bookings ↔ j ∈ s.disp.bookings)
  modes : t.disp.modes = s.disp.modes
  policy : t.policy = s.policy
  waits : ∀ j ∈ t.disp.bookings, j.state = .waiting → j ∈ s.disp.bookings ∨ (s.car j.bank j.car).service = .inService

section
variable {s t u : State}

theorem State.reseats.refl (s : State) : s.reseats s := ⟨fun _ _ => rfl, fun _ _ => Iff.rfl, rfl, rfl, fun _ hj _ => .inl hj⟩

theorem State.reseats.trans (h : s.reseats t) (k : t.reseats u) : s.reseats u where
  cars b c := (h.cars b c).trans (k.cars b c)
  riders j rides := (k.riders j rides).trans (h.riders j rides)
  modes := k.modes.trans h.modes
  policy := k.policy.trans h.policy
  waits j hj waits := by
    rcases k.waits j hj waits with old | isIn
    · exact h.waits j old waits
    · exact .inr ((h.cars j.bank j.car).service ▸ isIn)

theorem State.reseats.formed (h : s.reseats t) {b : Bank} {c : CarNo} (formed : s.carFormed b c) : t.carFormed b c :=
  formed.of_at (h.cars b c).enabled (by rw [(h.cars b c).service])
    (State.enabledAt_of_riders (congrArg (Vector.get · b) h.modes) (by rw [h.policy]) fun j _ _ => h.riders j)

theorem State.reseats.served (h : s.reseats t) {b : Bank} {c : CarNo} (served : s.carServed b c) : t.carServed b c := by
  intro out j hj waits
  rw [(h.cars b c).service] at out
  obtain ⟨held, bank, car⟩ := State.mem_carBookings.1 hj
  rcases h.waits j held waits with old | isIn
  · exact served out j (State.mem_carBookings.2 ⟨old, bank, car⟩) waits
  · rw [bank, car] at isIn
    exact out isIn

theorem State.calm.reseats (h : s.calm t) : s.reseats t where
  cars b c := by rw [h.car] <;> rfl
  riders j _ := by rw [h.bookings]
  modes := h.modes
  policy := h.policy
  waits j hj _ := .inl (h.bookings ▸ hj)

theorem State.calm.fits (h : s.calm t) {b : Bank} {c : CarNo} (fits : s.carFits b c) : t.carFits b c :=
  (State.thins.of_car (h.car b c) (State.carBookings_congr h.bookings) h.policy).fits fits

section
variable {k : Booking} (once : (s.disp.bookings.map fun k => k.id).Nodup) (held : k ∈ s.disp.bookings)
  (waits : k.state = .waiting)
include once held waits

theorem State.rider_id_ne {j : Booking} (there : j ∈ s.disp.bookings) (rides : j.state = .riding) : j.id ≠ k.id := by
  intro e
  rw [List.inj_on_of_nodup_map once there held e, waits] at rides
  cases rides

theorem State.cancel_reseats (r : CancelReason) : s.reseats (s.cancel r k) where
  cars := s.cancel_listOnly r k waits
  riders j rides := by
    rw [State.cancel_bookings, List.mem_filter]
    exact ⟨And.left, fun there => ⟨there, decide_eq_true (State.rider_id_ne once held waits there rides)⟩⟩
  modes := s.cancel_modes r k
  policy := s.cancel_only r k .policy (by decide)
  waits j hj _ := by
    rw [State.cancel_bookings] at hj
    exact .inl (List.mem_filter.1 hj).1

theorem State.moveBooking_reseats : s.reseats (s.moveBooking k) where
  cars := s.moveBooking_listOnly k waits
  riders j rides := by
    refine ⟨fun there => ?_, fun there => s.mem_moveBooking_of_ne k there (State.rider_id_ne once held waits there rides)⟩
    rcases s.of_mem_moveBooking k there with ⟨old, -⟩ | ⟨i, hi, same, e, -⟩
    · exact old
    · rw [e, List.inj_on_of_nodup_map once hi held same] at rides
      exact absurd (waits.symm.trans rides) (by simp)
  modes := (s.moveBooking_event k).modes
  policy := s.moveBooking_only k .policy (by decide)
  waits j hj _ := by
    rcases s.of_mem_moveBooking k hj with ⟨old, -⟩ | ⟨i, hi, same, e, isIn⟩
    · exact .inl old
    · have bank : j.bank = k.bank := by rw [e, List.inj_on_of_nodup_map once hi held same]
      exact .inr (bank ▸ isIn)

end

theorem State.cancelAll_reseats (r : CancelReason) {ks : List Booking} (ids : (ks.map fun k => k.id).Nodup)
    (once : (s.disp.bookings.map fun k => k.id).Nodup) (held : ∀ k ∈ ks, k ∈ s.disp.bookings)
    (waits : ∀ k ∈ ks, k.state = .waiting) : s.reseats (s.cancelAll r ks) := by
  induction ks generalizing s with
  | nil => exact .refl s
  | cons k ks ih =>
    obtain ⟨fresh, ids⟩ := List.nodup_cons.1 ids
    obtain ⟨first, rest⟩ := List.forall_mem_cons.1 held
    obtain ⟨waiting, others⟩ := List.forall_mem_cons.1 waits
    refine (State.cancel_reseats once first waiting r).trans
      (ih ids (once.sublist (s.cancel_event r k).bookingIds) (fun j hj => ?_) others)
    rw [State.cancel_bookings]
    exact List.mem_filter.2 ⟨rest j hj, decide_eq_true fun e => fresh (List.mem_map.2 ⟨j, hj, e⟩)⟩

theorem State.cancelKind_reseats (r : CancelReason) {gone : Booking → Bool}
    (once : (s.disp.bookings.map fun k => k.id).Nodup) (waits : ∀ k, gone k = true → k.state = .waiting) :
    s.reseats (s.cancelKind r gone) := by
  have listed (k) (hk : k ∈ serialOrder (s.disp.bookings.filter gone)) : k ∈ s.disp.bookings ∧ gone k = true :=
    List.mem_filter.1 ((mem_serialOrder _ k).1 hk)
  refine State.cancelAll_reseats r ?_ once (fun k hk => (listed k hk).1) fun k hk => waits k (listed k hk).2
  rw [((serialOrder_perm _).map _).nodup_iff]
  exact once.sublist (List.filter_sublist.map _)

theorem State.foldl_move_reseats {ks : List Booking} (ids : (ks.map fun k => k.id).Nodup)
    (once : (s.disp.bookings.map fun k => k.id).Nodup) (held : ∀ k ∈ ks, k ∈ s.disp.bookings)
    (waits : ∀ k ∈ ks, k.state = .waiting) : s.reseats (ks.foldl (fun s k => s.moveBooking k) s) := by
  induction ks generalizing s with
  | nil => exact .refl s
  | cons k ks ih =>
    obtain ⟨fresh, ids⟩ := List.nodup_cons.1 ids
    obtain ⟨first, rest⟩ := List.forall_mem_cons.1 held
    obtain ⟨waiting, others⟩ := List.forall_mem_cons.1 waits
    refine (State.moveBooking_reseats once first waiting).trans
      (ih ids (once.sublist (s.moveBooking_event k).bookingIds) (fun j hj => ?_) others)
    exact s.mem_moveBooking_of_ne k (rest j hj) fun e => fresh (List.mem_map.2 ⟨j, hj, e⟩)

theorem State.loseCar_reseats (once : (s.disp.bookings.map fun k => k.id).Nodup) (h : Bank) (d : CarNo) :
    s.reseats (s.loseCar h d) :=
  State.foldl_move_reseats (State.waitingOn_ids_nodup once) once (fun _ hk => (State.mem_waitingOn.1 hk).1)
    fun _ hk => (State.mem_waitingOn.1 hk).2.2

/-- R85: a booking placed on a car that is IN_SERVICE. -/
theorem State.place_reseats {k : Booking} (waits : k.state = .waiting) (isIn : (s.car k.bank k.car).service = .inService) :
    s.reseats (s.place k) where
  cars b c := by
    show (s.car b c).listOnly ((State.resyncKeep _ k.bank k.car).car b c)
    by_cases own : (b, c) = (k.bank, k.car)
    · obtain ⟨rfl, rfl⟩ := Prod.mk.inj own
      rw [State.resyncKeep, State.resync_self]
      exact Car.resync_listOnly _ _ _
    · rw [State.resyncKeep, State.resync_other _ own]
      rfl
  riders j rides := by
    show j ∈ s.disp.bookings ++ [k] ↔ _
    rw [List.mem_append, List.mem_singleton]
    refine or_iff_left fun e => ?_
    rw [e, waits] at rides
    cases rides
  modes := rfl
  policy := rfl
  waits j hj _ := by
    have hj : j ∈ s.disp.bookings ++ [k] := hj
    rw [List.mem_append, List.mem_singleton] at hj
    refine hj.imp_right fun e => ?_
    rw [e]
    exact isIn

end

end Sys2Proof.Machine
end

section
/-! SUPPORT for O57: a service state set, a decision and a STATUS keep every car in step. -/

namespace Sys2Proof.Machine

theorem State.carsOk_iff {s : State} :
    s.carsOk ↔ (∀ b c, s.carFits b c) ∧ (∀ b c, s.carFormed b c) ∧ ∀ b c, s.carServed b c := by
  unfold State.carsOk
  simp only [State.carOk_iff, forall_and]

section
variable {s t : State} {b : Bank} {c : CarNo}

theorem State.calm.carsOk (h : s.calm t) (ok : s.carsOk) : t.carsOk := by
  obtain ⟨fits, formed, served⟩ := State.carsOk_iff.1 ok
  exact State.carsOk_iff.2 ⟨fun b c => h.fits (fits b c), fun b c => h.reseats.formed (formed b c),
    fun b c => h.reseats.served (served b c)⟩

/-- A car replaced by one with the same list, up to its order, and the same enabled set. -/
theorem State.thins.of_setCar {x : Car} (list : (s.car b c).listOk (s.carBookings b c) → x.listOk (s.carBookings b c))
    (calls : ∀ k ∈ x.callKeys, k ∈ (s.car b c).callKeys) (enabled : x.enabled = (s.car b c).enabled)
    (absent : x.service = .absent → (s.car b c).service = .absent) (h : Bank) (d : CarNo) :
    s.thins (s.setCar b c x) h d := by
  by_cases own : (h, d) = (b, c)
  · obtain ⟨rfl, rfl⟩ := Prod.mk.inj own
    refine ⟨fun ok => ?_, fun k hk => ?_, fun j hj => ⟨j, hj, rfl, rfl, id⟩, le_refl _, rfl, fun is => ?_⟩
    · rw [State.car_setCar_self]
      exact list ok
    · rw [State.car_setCar_self] at hk ⊢
      rw [enabled]
      exact ⟨calls k hk, id⟩
    · rw [State.car_setCar_self] at is
      exact absent is
  · exact .of_car (State.car_setCar_ne _ _ _ _ _ _ (Ne.symm own)) rfl rfl

theorem State.setCar_formed {x : Car} (enabled : x.enabled = (s.car b c).enabled)
    (absent : x.service = .absent ↔ (s.car b c).service = .absent) {h : Bank} {d : CarNo} (formed : s.carFormed h d) :
    (s.setCar b c x).carFormed h d := by
  by_cases own : (h, d) = (b, c)
  · obtain ⟨rfl, rfl⟩ := Prod.mk.inj own
    exact formed.of_at (by rw [State.car_setCar_self, enabled]) (by rw [State.car_setCar_self, absent]) fun _ => Iff.rfl
  · have same : (s.setCar b c x).car h d = s.car h d := State.car_setCar_ne _ _ _ _ _ _ (Ne.symm own)
    exact formed.of_at (by rw [same]) (by rw [same]) fun _ => Iff.rfl

theorem State.setCar_served {x : Car} {h : Bank} {d : CarNo}
    (kept : (h, d) = (b, c) → x.service ≠ .inService → (s.car b c).service ≠ .inService) (served : s.carServed h d) :
    (s.setCar b c x).carServed h d := by
  by_cases own : (h, d) = (b, c)
  · obtain ⟨rfl, rfl⟩ := Prod.mk.inj own
    intro out
    rw [State.car_setCar_self] at out
    exact served (kept rfl out)
  · exact State.carServed.congr (State.car_setCar_ne _ _ _ _ _ _ (Ne.symm own)) served rfl

/-! ### A service state set (R95, R96, R98) -/

/-- R98: a car, not ABSENT before or after, in its new service state. -/
theorem State.setService_carsOk {new : Service} (once : (s.disp.bookings.map fun k => k.id).Nodup)
    (was : (s.car b c).service ≠ .absent) (is : new ≠ .absent) (ok : s.carsOk) : (s.setService b c new).carsOk := by
  obtain ⟨fits, formed, served⟩ := State.carsOk_iff.1 ok
  have withFits (h d) : (s.withService b c new).carFits h d :=
    (State.thins.of_setCar (x := { s.car b c with service := new }) id (fun _ hk => hk) rfl (fun e => absurd e is) h
      d).fits (fits h d)
  have withFormed (h d) : (s.withService b c new).carFormed h d :=
    State.setCar_formed (x := { s.car b c with service := new }) rfl (iff_of_false is was) (formed h d)
  have onceWith : ((s.withService b c new).disp.bookings.map fun k => k.id).Nodup := once
  by_cases loses : s.loses b c new
  · have reseats : (s.withService b c new).reseats ((s.withService b c new).loseCar b c) :=
      State.loseCar_reseats onceWith b c
    have all (h d) : ((s.withService b c new).loseCar b c).carFits h d := State.loseCar_fits onceWith withFits b c
    rw [State.setService_of_loses loses]
    refine State.carsOk_iff.2 ⟨all, fun h d => reseats.formed (withFormed h d), fun h d => ?_⟩
    by_cases own : (h, d) = (b, c)
    · obtain ⟨rfl, rfl⟩ := Prod.mk.inj own
      intro _ j hj
      obtain ⟨held, bank, car⟩ := State.mem_carBookings.1 hj
      refine State.loseCar_clears _ h d ?_ held bank car
      rw [State.withService_self]
      exact loses.2
    · exact reseats.served (State.setCar_served (fun e => absurd e own) (served h d))
  · rw [State.setService_of_keeps loses]
    refine State.carsOk_iff.2 ⟨withFits, withFormed, fun h d => State.setCar_served (fun _ out isIn => ?_) (served h d)⟩
    exact loses ⟨isIn, out⟩

theorem State.serviceSet_carsOk {new : Service} (once : (s.disp.bookings.map fun k => k.id).Nodup)
    (was : (s.car b c).service ≠ .absent) (is : new ≠ .absent) (ok : s.carsOk) : (s.serviceSet b c new).carsOk := by
  have set := State.setService_carsOk once was is ok
  have disp := s.serviceSet_disp b c new
  have policy : (s.serviceSet b c new).policy = (s.setService b c new).policy :=
    (s.serviceSet_policy b c new).trans (s.setService_policy b c new).symm
  generalize s.setService b c new = u at set disp policy
  exact State.calm.carsOk ⟨policy, by rw [disp], by rw [disp], by rw [disp]⟩ set

end

/-! ### A decision (R62, R74, R85) -/

section
variable {s : State} {pres : Presentation} {r : Credential} {home d : Floor} {banks : BankSet} {id : Nat} {c : Choice}
  {used : Bool}

theorem State.grants.included_lane (g : s.grants r home banks d id c) :
    s.laneExcluded c.bank (s.newBooking pres home d r.units id c used).trip c.car = false := by
  rw [Bool.eq_false_iff]
  intro out
  have included := g.included
  exact absurd ((State.lane_of_excluded out).symm.trans_le included) (by decide)

theorem State.granted_carsOk (g : s.grants r home banks d id c) (ok : s.carsOk) :
    (s.granted pres r home d id c used).carsOk := by
  obtain ⟨fits, formed, served⟩ := State.carsOk_iff.1 ok
  obtain ⟨v, hv⟩ : ∃ v, v = s.setDisp { s.disp with serial := s.disp.serial + 1 } := ⟨_, rfl⟩
  obtain ⟨k, hk⟩ : ∃ k, k = s.newBooking pres home d r.units id c used := ⟨_, rfl⟩
  have base : s.calm v := by rw [hv]; exact ⟨rfl, rfl, rfl, rfl⟩
  have lane : v.laneExcluded k.bank k.trip k.car = false := by
    have included := g.included_lane (pres := pres) (used := used)
    rw [hv, hk]
    exact included
  have waits : k.state = .waiting := by rw [hk] <;> rfl
  have isIn : (v.car k.bank k.car).service = .inService := by
    rw [Bool.eq_false_iff, Ne, State.laneExcluded_iff, not_or] at lane
    exact not_not.1 lane.1
  have reseats := State.place_reseats waits isIn
  have placed : (v.place k).carsOk := State.carsOk_iff.2 ⟨State.place_fits (fun h e => base.fits (fits h e)) lane,
    fun h e => reseats.formed (base.reseats.formed (formed h e)), fun h e => reseats.served (base.reseats.served (served h e))⟩
  unfold State.granted
  rw [← hv, ← hk]
  generalize v.place k = u at placed
  refine State.calm.carsOk ?_ placed
  unfold State.grantTicket
  split
  · exact ⟨rfl, rfl, rfl, rfl⟩
  · split <;> exact ⟨rfl, rfl, rfl, rfl⟩

theorem State.grant_carsOk (g : s.grants r home banks d id c) (units : r.units = 1 ∨ r.units = 4) (ids : s.bookingsOk)
    (ok : s.carsOk) : (s.grant pres r home d id c used).carsOk := by
  obtain ⟨-, fresh⟩ := State.freeId_spec g.free
  have fresh (j) (hj : j ∈ s.disp.bookings) : j.id ≠ id := fun e => fresh (List.mem_map.2 ⟨j, hj, e⟩)
  have granted := State.granted_carsOk (pres := pres) (used := used) g ok
  obtain ⟨once, -⟩ := State.granted_bookingsOk (pres := pres) (used := used) g units ids
  have listed (j) (hj : j ∈ (s.replaced pres).toList) :
      j ∈ (s.granted pres r home d id c used).disp.bookings ∧ j.state = .waiting := by
    obtain ⟨held, replaces⟩ := (State.mem_replaced ids.1).1 hj
    rw [State.granted_bookings]
    exact ⟨List.mem_append_left _ held, (Presentation.replaces_iff.1 replaces).2.1⟩
  have single : ((s.replaced pres).toList.map fun j => j.id).Nodup := by
    cases s.replaced pres with
    | none => exact List.nodup_nil
    | some j => exact List.nodup_singleton _
  have cleared : (s.cleared pres r home d id c used).carsOk := by
    obtain ⟨fits, formed, served⟩ := State.carsOk_iff.1 granted
    rw [State.cleared]
    generalize s.granted pres r home d id c used = v at once listed fits formed served
    have reseats := State.cancelAll_reseats .superseded single once (fun j hj => (listed j hj).1) fun j hj => (listed j hj).2
    exact State.carsOk_iff.2
      ⟨fun h e => (State.cancelAll_thins .superseded single once fun j hj => (listed j hj).1).fits (fits h e),
        fun h e => reseats.formed (formed h e), fun h e => reseats.served (served h e)⟩
  rw [State.grant_eq ids.1 fresh]
  generalize s.cleared pres r home d id c used = u at cleared
  exact State.calm.carsOk ⟨rfl, rfl, rfl, rfl⟩ cleared

end

theorem State.decide_carsOk {s : State} (ids : s.bookingsOk) (ok : s.carsOk) (pres : Presentation) (home : Floor)
    (banks : BankSet) : (s.decide pres home banks).carsOk := by
  rcases s.decide_cases pres home banks with calm | ⟨r, p, k, u, d, id, c, used, found, calm, grants, e⟩
  · exact calm.carsOk ok
  · obtain ⟨held, -⟩ := StoreBlock.lookup_found found
    have ids : u.bookingsOk := by
      unfold State.bookingsOk
      rw [calm.bookings]
      exact ids
    rw [e]
    exact State.grant_carsOk grants (StoreBlock.record_units held) ids (calm.carsOk ok)

/-! ### A STATUS (R89, R93, R94) -/

section
variable {s : State} {b : Bank} {c : CarNo} {kind : CommandKind} {st : Status}

theorem serviceByStatus_ne_absent (mode : Option BankMode) (old : Service) (withdrawn : Bool) (stale : Nat) (m : CarMode) :
    serviceByStatus mode old withdrawn stale m ≠ .absent := by
  unfold serviceByStatus serviceByReport
  repeat' split
  all_goals simp

theorem State.moved_carsOk (once : (s.disp.bookings.map fun k => k.id).Nodup) (was : (s.car b c).service ≠ .absent)
    (ok : s.carsOk) : (s.moved b c kind st).carsOk := by
  obtain ⟨fits, formed, served⟩ := State.carsOk_iff.1 ok
  have service := s.reported_service b c kind st
  have reported : (s.setCar b c (s.reported b c kind st)).carsOk := by
    refine State.carsOk_iff.2 ⟨fun h d => ?_, fun h d => ?_, fun h d => ?_⟩
    · refine (State.thins.of_setCar State.reported_listOk (fun k hk => ?_) (s.reported_enabled b c kind st) (fun e => ?_)
        h d).fits (fits h d)
      · exact (s.reported_callKeys_perm b c kind st).mem_iff.1 hk
      · rw [← service, e]
    · exact State.setCar_formed (s.reported_enabled b c kind st) (by rw [service]) (formed h d)
    · exact State.setCar_served (fun _ out => service ▸ out) (served h d)
  unfold State.moved
  refine State.setService_carsOk once ?_ (serviceByStatus_ne_absent _ _ _ _ _) reported
  rw [State.car_setCar_self, service]
  exact was

theorem State.flagged_carsOk (ok : s.carsOk) (threshold load : Nat) : (s.flagged b c threshold load).carsOk := by
  obtain ⟨fits, formed, served⟩ := State.carsOk_iff.1 ok
  obtain ⟨x, hx⟩ : ∃ x, x = { s.car b c with full := fullFlag threshold load (s.car b c).full } := ⟨_, rfl⟩
  have list (bs) (h : (s.car b c).listOk bs) : x.listOk bs := by rw [hx]; exact h
  have calls : x.callKeys = (s.car b c).callKeys := by rw [hx] <;> rfl
  have enabled : x.enabled = (s.car b c).enabled := by rw [hx]
  have service : x.service = (s.car b c).service := by rw [hx]
  rw [State.flagged, ← hx]
  exact State.carsOk_iff.2
    ⟨fun h d => (State.thins.of_setCar (list _) (fun k hk => calls ▸ hk) enabled (fun e => service ▸ e) h d).fits (fits h d),
      fun h d => State.setCar_formed enabled (by rw [service]) (formed h d),
      fun h d => State.setCar_served (fun _ out => service ▸ out) (served h d)⟩

/-- In step, but for the enabled set of one car. -/
structure State.carsOkBut (s : State) (b : Bank) (c : CarNo) : Prop where
  fits : ∀ h d, s.carFits h d
  formed : ∀ h d, (h, d) ≠ (b, c) → s.carFormed h d
  served : ∀ h d, s.carServed h d

theorem State.carsOk.but (ok : s.carsOk) : s.carsOkBut b c := by
  obtain ⟨fits, formed, served⟩ := State.carsOk_iff.1 ok
  exact ⟨fits, fun h d _ => formed h d, served⟩

/-- Another car, with its bookings, is left by what reaches the list of one car. -/
theorem State.listsCar.carsOkBut {t : State} (lists : s.listsCar t b c) (ok : s.carsOkBut b c)
    (others : ∀ h d, (h, d) ≠ (b, c) → t.carBookings h d = s.carBookings h d) (fits : t.carFits b c)
    (served : t.carServed b c) : t.carsOkBut b c := by
  have capacity (h) : (t.bank h).capacity = (s.bank h).capacity := by rw [State.bank, lists.policy, State.bank]
  refine ⟨fun h d => ?_, fun h d ne => ?_, fun h d => ?_⟩
  · by_cases own : (h, d) = (b, c)
    · obtain ⟨rfl, rfl⟩ := Prod.mk.inj own
      exact fits
    · exact (ok.fits h d).congr (lists.other h d own) (others h d own) (capacity h)
  · have same (k) : k ∈ t.carBookings h d ↔ k ∈ s.carBookings h d := by rw [others h d ne]
    simp only [State.mem_carBookings] at same
    have mode : t.mode h = s.mode h := by rw [State.mode, lists.modes, State.mode]
    exact (ok.formed h d ne).of_at (by rw [lists.other h d ne]) (by rw [lists.other h d ne])
      (State.enabledAt_of_riders mode (by rw [lists.policy]) fun k bank car _ =>
        ⟨fun held => ((same k).1 ⟨held, bank, car⟩).1, fun held => ((same k).2 ⟨held, bank, car⟩).1⟩)
  · by_cases own : (h, d) = (b, c)
    · obtain ⟨rfl, rfl⟩ := Prod.mk.inj own
      exact served
    · exact (ok.served h d).congr (lists.other h d own) (others h d own)

section
variable (once : (s.disp.bookings.map fun k => k.id).Nodup)
include once

/-- R93: the bookings of a car once the floor is served, as they stood before. -/
theorem State.boarded_carBookings (h : Bank) (d : CarNo) :
    (s.boarded b c st).carBookings h d = ((s.carBookings h d).filter fun k => !k.doneAt b c st).map fun k =>
      if k.boardsAt b c st = true then { k with state := .riding } else k := by
  have seat (k : Booking) : (if k.boardsAt b c st = true then { k with state := .riding } else k).bank = k.bank ∧
      (if k.boardsAt b c st = true then { k with state := .riding } else k).car = k.car := by
    split <;> exact ⟨rfl, rfl⟩
  rw [State.carBookings, State.boarded_bookings once, List.filter_map, List.filter_filter, State.carBookings,
    List.filter_filter]
  congr 1
  refine List.filter_congr fun k _ => ?_
  rw [Function.comp_apply, (seat k).1, (seat k).2, Bool.and_comm]

theorem State.boarded_carBookings_other {h : Bank} {d : CarNo} (ne : (h, d) ≠ (b, c)) :
    (s.boarded b c st).carBookings h d = s.carBookings h d := by
  have off (k) (hk : k ∈ s.carBookings h d) : k.doneAt b c st = false ∧ k.boardsAt b c st = false := by
    obtain ⟨-, rfl, rfl⟩ := State.mem_carBookings.1 hk
    have out : ¬ (k.bank = b ∧ k.car = c) := fun e => ne (Prod.ext e.1 e.2)
    constructor
    · rw [Booking.doneAt, Bool.eq_false_iff]
      simp only [Ne, Bool.and_eq_true, decide_eq_true_eq, and_assoc]
      exact fun e => out ⟨e.1, e.2.1⟩
    · rw [Booking.boardsAt, Bool.eq_false_iff]
      simp only [Ne, Bool.and_eq_true, decide_eq_true_eq, and_assoc]
      exact fun e => out ⟨e.1, e.2.1⟩
  rw [State.boarded_carBookings once, List.filter_eq_self.2 fun k hk => by rw [(off k hk).1]; rfl]
  exact (List.map_congr_left fun k hk => if_neg (by rw [(off k hk).2]; simp)).trans (List.map_id' _)

/-- R93: a floor served. -/
theorem State.serveFloor_carsOkBut (ok : s.carsOkBut b c) : (s.serveFloor b c st).carsOkBut b c := by
  have own := State.boarded_carBookings (b := b) (c := c) (st := st) once b c
  have member (j) (hj : j ∈ (s.boarded b c st).carBookings b c) : ∃ k ∈ s.carBookings b c, j.origin = k.origin ∧
      j.dest = k.dest ∧ (j.state = .waiting → k.state = .waiting) := by
    rw [own] at hj
    obtain ⟨k, hk, rfl⟩ := List.mem_map.1 hj
    refine ⟨k, (List.mem_filter.1 hk).1, ?_⟩
    split
    · exact ⟨rfl, rfl, fun e => nomatch e⟩
    · exact ⟨rfl, rfl, id⟩
  have units : unitsOf ((s.boarded b c st).carBookings b c) ≤ unitsOf (s.carBookings b c) := by
    have same : ((s.boarded b c st).carBookings b c).map (fun k => k.units) =
        ((s.carBookings b c).filter fun k => !k.doneAt b c st).map fun k => k.units := by
      rw [own, List.map_map]
      refine List.map_congr_left fun k _ => ?_
      rw [Function.comp_apply]
      split <;> rfl
    rw [unitsOf_eq_sum, same, ← unitsOf_eq_sum]
    exact unitsOf_le_of_sublist List.filter_sublist
  have thins : s.thins (s.serveFloor b c st) b c := by
    rw [State.serveFloor_eq]
    refine .of_resync (State.boarded_car b c) (State.boarded_listsCar (s := s) (b := b) (c := c) (st := st)).policy member
      units fun k hk => ?_
    rw [State.ridesDone, State.bookingsDone_car] at hk
    exact (List.mem_filter.1 hk).1
  refine State.serveFloor_listsCar.carsOkBut ok (fun h d ne => ?_) (thins.fits (ok.fits b c)) ?_
  · rw [State.serveFloor_eq, State.resync_carBookings]
    exact State.boarded_carBookings_other once ne
  · intro out j hj waits
    rw [State.serveFloor_listsCar.car.service] at out
    obtain ⟨k, hk, -, -, was⟩ := thins.bookings j hj
    exact ok.served b c out k hk (was waits)

end

/-- R94: calls taken. -/
theorem State.takeCalls_carsOkBut (present : (s.car b c).service ≠ .absent) (ok : s.carsOkBut b c) (p : Floor) (seen fs : List Floor) :
    (s.takeCalls b c p seen fs).carsOkBut b c := by
  have fits := ok.fits b c
  have lists := State.takeCalls_listsCar b c p fs seen s
  have bookings (h d) : (s.takeCalls b c p seen fs).carBookings h d = s.carBookings h d :=
    State.carBookings_congr (State.takeCalls_tables b c p fs seen s).1
  have room := State.takeCalls_projected (p := p) fs seen fits.list (by rw [State.projected_eq]; exact fits.stops)
  have list := State.takeCalls_listOk (p := p) fs seen fits.list
  have called (k) (hk : k ∈ ((s.takeCalls b c p seen fs).car b c).callKeys) : (s.car b c).enabled.has k.floor = true := by
    rcases State.takeCalls_callKeys fs seen hk with old | ⟨f, -, hears, rfl⟩
    · exact fits.calls k old
    · exact hears.1
  rw [State.projected_eq] at room
  refine lists.carsOkBut ok (fun h d _ => bookings h d) ⟨list, fun k hk => ?_, ?_, room, fun is => ?_⟩ ?_
  · rw [lists.car.enabled]
    exact called k hk
  · rw [bookings, State.bank, lists.policy]
    exact fits.units
  · rw [lists.car.service] at is
    exact absurd is present
  · intro out
    rw [lists.car.service] at out
    rw [bookings]
    exact ok.served b c out

/-- R84: the last car in step again once its set is formed afresh. -/
theorem State.formEnabled_carsOk (ok : s.carsOkBut b c) : (s.formEnabled b c).carsOk := by
  have only := s.formEnabled_carsOnly b c
  have due (h d f) : (s.formEnabled b c).enabledAt h d f ↔ s.enabledAt h d f :=
    State.enabledAt_congr only.modes only.policy only.bookings h d f
  refine State.carsOk_iff.2 ⟨fun h d => (s.formEnabled_thins b c).fits (ok.fits h d), fun h d => ?_, fun h d => ?_⟩
  · by_cases own : (h, d) = (b, c)
    · obtain ⟨rfl, rfl⟩ := Prod.mk.inj own
      intro f
      rw [State.formEnabled_self, State.formedCar_enabled, State.formedCar_service, State.enabledOf_has, due]
    · exact (ok.formed h d own).of_at (by rw [State.formEnabled_other _ own]) (by rw [State.formEnabled_other _ own]) (due h d)
  · by_cases own : (h, d) = (b, c)
    · obtain ⟨rfl, rfl⟩ := Prod.mk.inj own
      intro out
      rw [State.formEnabled_self, State.formedCar_service] at out
      rw [only.carBookings]
      exact ok.served h d out
    · exact (ok.served h d).congr (State.formEnabled_other _ own) (only.carBookings h d)

/-- R89: a good STATUS keeps every car in step. -/
theorem State.takeStatus_carsOk (once : (s.disp.bookings.map fun k => k.id).Nodup) (ok : s.carsOk) :
    (s.takeStatus b c kind st).carsOk := by
  unfold State.takeStatus
  split
  next configured =>
    have was := Car.configured_iff.1 configured
    have moved := State.flagged_carsOk (b := b) (c := c) (State.moved_carsOk (kind := kind) (st := st) once was ok)
      (s.bank b).fullThreshold st.load
    have onceMoved : (((s.moved b c kind st).flagged b c (s.bank b).fullThreshold st.load).disp.bookings.map
        fun k => k.id).Nodup := by
      rw [State.flagged_bookings]
      exact State.moved_once once
    have served : (s.served b c kind st).carsOkBut b c := by
      unfold State.served State.attended
      generalize (s.moved b c kind st).flagged b c (s.bank b).fullThreshold st.load = u at moved onceMoved
      split
      · exact State.serveFloor_carsOkBut onceMoved moved.but
      · exact moved.but
    have present : ((s.served b c kind st).car b c).service ≠ .absent := by
      rw [State.served_service]
      exact serviceByStatus_ne_absent _ _ _ _ _
    have attends : (s.attends b c kind st).carsOkBut b c := by
      rw [State.attends_eq, State.called]
      generalize s.served b c kind st = u at served present
      split
      · exact State.takeCalls_carsOkBut present served _ _ _
      · exact served
    rw [State.statusEvent_eq]
    generalize s.attends b c kind st = u at attends
    have formed := State.formEnabled_carsOk attends
    generalize u.formEnabled b c = v at formed
    refine State.calm.carsOk ?_ formed
    have disp := v.reportService_disp b c (s.car b c).service (s.serviceGiven b c kind st)
    exact ⟨v.reportService_policy b c _ _, by rw [disp], by rw [disp], by rw [disp]⟩
  · exact ok

end

end Sys2Proof.Machine
end

section
/-! SUPPORT for O57: a change of mode, of floors and of a bank's record keep every car in step (R28, R31, R152 to R156). -/

namespace Sys2Proof.Machine

/-! ### Cars of a bank without bookings -/

section
variable {s t : State} {b : Bank} {c : CarNo}

theorem State.carBookings_of_carriesNone (none : ∀ k ∈ s.disp.bookings, k.bank ≠ b) : s.carBookings b c = [] :=
  List.eq_nil_iff_forall_not_mem.2 fun k hk => by
    obtain ⟨held, bank, -⟩ := State.mem_carBookings.1 hk
    exact none k held bank

theorem State.carFormed.absent (formed : s.carFormed b c) (is : (s.car b c).service = .absent) (f : Floor) :
    (s.car b c).enabled.has f ≠ true := fun on => ((formed f).1 on).1 is

theorem State.carFormed.of_absent (car : t.car b c = s.car b c) (formed : s.carFormed b c)
    (is : (s.car b c).service = .absent) : t.carFormed b c := fun f => by
  rw [car]
  exact iff_of_false (formed.absent is f) fun h => h.1 is

theorem State.carServed.of_unbooked (none : t.carBookings b c = []) : t.carServed b c := fun _ k hk => by
  rw [none] at hk
  cases hk

theorem State.carFits.of_unbooked (car : t.car b c = s.car b c) (old : s.carBookings b c = []) (none : t.carBookings b c = [])
    (fits : s.carFits b c) : t.carFits b c where
  list := by rw [car, none, ← old]; exact fits.list
  calls := by rw [car]; exact fits.calls
  units := by rw [none]; exact Nat.zero_le _
  stops := by rw [car, none, ← old]; exact fits.stops
  absent is := ⟨none, by rw [car] at is ⊢; exact (fits.absent is).2⟩

/-- A car without entries or bookings fits. -/
theorem State.carFits.of_empty (unbooked : t.carBookings b c = []) (stops : (t.car b c).stops = [])
    (planned : (t.car b c).planned = none) : t.carFits b c := by
  have keys : (t.car b c).keys = [] := by rw [Car.keys, stops, List.map_nil]
  refine ⟨?_, ?_, ?_, ?_, fun _ => ⟨unbooked, stops⟩⟩
  · rw [unbooked, Car.listOk, stops, keys]
    exact ⟨fun _ h => (nomatch h), fun _ h => (nomatch h), List.nodup_nil, List.Pairwise.nil, by simp [planned]⟩
  · rw [Car.callKeys_of_empty stops]
    exact fun _ h => (nomatch h)
  · rw [unbooked]
    exact Nat.zero_le _
  · rw [unbooked, Car.footprint, keys]
    exact Nat.zero_le _

/-- An unbooked car that stays in step when bookings, settings and other cars change. -/
theorem State.carOk.of_unbooked (car : t.car b c = s.car b c) (old : s.carBookings b c = [])
    (none : t.carBookings b c = []) (mode : t.mode b = s.mode b) (floors : t.policy.floors = s.policy.floors)
    (ok : s.carOk b c) : t.carOk b c := by
  obtain ⟨fits, formed, -⟩ := State.carOk_iff.1 ok
  refine State.carOk_iff.2 ⟨fits.of_unbooked car old none, ?_, .of_unbooked none⟩
  refine formed.of_at (by rw [car]) (by rw [car]) (State.enabledAt_of_riders mode floors fun k bank cr _ => ?_)
  have out {u : State} (empty : u.carBookings b c = []) : k ∉ u.disp.bookings := fun held => by
    have on : k ∈ u.carBookings b c := State.mem_carBookings.2 ⟨held, bank, cr⟩
    rw [empty] at on
    cases on
  exact iff_of_false (out none) (out old)

/-- A car in step stays so while it, its bookings, its bank's mode and capacity and the floors stay. -/
theorem State.carOk.congr (car : t.car b c = s.car b c) (bookings : t.carBookings b c = s.carBookings b c)
    (mode : t.mode b = s.mode b) (floors : t.policy.floors = s.policy.floors)
    (capacity : (t.bank b).capacity = (s.bank b).capacity) (ok : s.carOk b c) : t.carOk b c := by
  obtain ⟨fits, formed, served⟩ := State.carOk_iff.1 ok
  have same (k) : k ∈ t.carBookings b c ↔ k ∈ s.carBookings b c := by rw [bookings]
  simp only [State.mem_carBookings] at same
  refine State.carOk_iff.2 ⟨fits.congr car bookings capacity, ?_, served.congr car bookings⟩
  exact formed.of_at (by rw [car]) (by rw [car]) (State.enabledAt_of_riders mode floors fun k bank cr _ =>
    ⟨fun held => ((same k).1 ⟨held, bank, cr⟩).1, fun held => ((same k).2 ⟨held, bank, cr⟩).1⟩)

end

/-! ### The sets of a bank formed afresh (R84) -/

section
variable {s t : State} {b : Bank}

theorem State.thins.of_fields {x : Car} {c : CarNo} (car : t.car b c = x)
    (list : (s.car b c).listOk (s.carBookings b c) → x.listOk (s.carBookings b c))
    (calls : x.callKeys = (s.car b c).callKeys) (enabled : x.enabled = (s.car b c).enabled)
    (absent : x.service = .absent → (s.car b c).service = .absent)
    (bookings : t.carBookings b c = s.carBookings b c) (policy : t.policy = s.policy) : s.thins t b c :=
  (State.thins.of_setCar list (fun _ hk => calls ▸ hk) enabled absent b c).trans
    (.of_car (by rw [car, State.car_setCar_self]) bookings policy)

theorem State.formBank_thins (s : State) (b h : Bank) (c : CarNo) : s.thins (s.formBank b) h c := by
  have only := s.formBank_carsOnly b
  by_cases own : h = b
  · subst own
    by_cases configured : (s.car h c).configured = true
    · have formed := s.formEnabled_thins (b := h) (c := c) h c
      have each := s.formEnabled_carsOnly h c
      refine formed.trans (.of_car ?_ ?_ ?_)
      · rw [State.formBank_car, if_pos configured, State.formEnabled_self]
      · rw [only.carBookings, each.carBookings]
      · rw [only.policy, each.policy]
    · exact .of_car (by rw [State.formBank_car, if_neg configured]) (only.carBookings h c) only.policy
  · exact .of_car (State.formBank_other _ _ own c) (only.carBookings h c) only.policy

theorem State.formBank_formed (c : CarNo) (absent : (s.car b c).service = .absent → ∀ f, (s.car b c).enabled.has f ≠ true) :
    (s.formBank b).carFormed b c := by
  have only := s.formBank_carsOnly b
  intro f
  rw [State.enabledAt_congr only.modes only.policy only.bookings, State.formBank_car]
  by_cases configured : (s.car b c).configured = true
  · rw [if_pos configured, State.formedCar_enabled, State.formedCar_service]
    exact s.enabledOf_has b c f
  · rw [if_neg configured]
    have is : (s.car b c).service = .absent := not_not.1 fun ne => configured (Car.configured_iff.2 ne)
    exact iff_of_false (absent is f) fun h => h.1 is

/-! ### A change of mode (R152 to R156) -/

/-- R155: a bank that leaves FIRE_RECALL, its cars unbooked. -/
theorem State.leaveFire_carOk {c : CarNo} (fits : s.carFits b c) (none : s.carBookings b c = [])
    (absent : (s.car b c).service = .absent → ∀ f, (s.car b c).enabled.has f ≠ true) : (s.leaveFire b).carOk b c := by
  have only := s.eachConfigured_carsOnly b (s.leaveRecall b)
  have car := s.eachConfigured_car b (s.leaveRecall b) c
  have whole := s.leaveFire_carsOnly b
  have left : s.thins (s.eachConfigured b (s.leaveRecall b)) b c := by
    by_cases configured : (s.car b c).configured = true
    · rw [if_pos configured] at car
      refine .of_fields car id rfl rfl (fun is => ?_) (only.carBookings b c) only.policy
      have still := s.leaveRecall_configured b (s.car b c)
      rw [configured, Car.configured_iff] at still
      exact absurd is still
    · rw [if_neg configured] at car
      exact .of_car car (only.carBookings b c) only.policy
  refine State.carOk_iff.2 ⟨?_, ?_, .of_unbooked (by rw [whole.carBookings, none])⟩
  · rw [State.leaveFire]
    exact (left.trans (State.formBank_thins _ b b c)).fits fits
  · rw [State.leaveFire]
    refine State.formBank_formed c fun is => ?_
    have was := left.absent is
    rw [car, if_neg fun on => Car.configured_iff.1 on was]
    exact absent was

theorem State.modeChanged_bookings_other (s : State) (b : Bank) (old new : BankMode) {h : Bank} (ne : h ≠ b)
    (ids : s.bookingsOk) (c : CarNo) : (s.modeChanged b old new).carBookings h c = s.carBookings h c := by
  by_cases clears : new = .out ∨ new = .fireRecall
  · rw [State.carBookings, s.modeChanged_bookings b old new clears ids.1, List.filter_filter, State.carBookings]
    refine List.filter_congr fun k _ => ?_
    rw [Bool.eq_iff_iff]
    simp only [Bool.and_eq_true, decide_eq_true_eq]
    exact and_iff_left_of_imp fun e => e.1 ▸ ne
  · rw [s.modeChanged_keeps b old new clears, (s.modeLeft_carsOnly b old new).carBookings]
    rfl

theorem State.modeChanged_mode (s : State) (b : Bank) (old new : BankMode) (h : Bank) :
    (s.modeChanged b old new).mode h = (s.setMode b new).mode h := by
  rw [State.mode, s.modeChanged_modes b old new, State.mode]

/-- R152: a change of mode keeps every car in step. -/
theorem State.modeChanged_carsOk {old : BankMode} (had : s.mode b = some old) (new : BankMode) (ids : s.bookingsOk)
    (quiet : s.quietOk) (ok : s.carsOk) : (s.modeChanged b old new).carsOk := by
  intro h c
  have policy := s.modeChanged_policy b old new
  have mode := s.modeChanged_mode b old new
  by_cases own : h = b
  swap
  · refine (ok h c).congr (s.modeChanged_other b old new own c) (s.modeChanged_bookings_other b old new own ids c) ?_
      (by rw [policy]) (by rw [State.bank, policy, State.bank])
    rw [mode, State.mode_setMode_ne _ _ _ _ (Ne.symm own)]
  subst own
  obtain ⟨fits, formed, served⟩ := State.carOk_iff.1 (ok h c)
  by_cases clears : new = .out ∨ new = .fireRecall
  · have none : (s.modeChanged h old new).carBookings h c = [] := State.carBookings_of_carriesNone fun k hk => by
      rw [s.modeChanged_bookings h old new clears ids.1] at hk
      exact of_decide_eq_true (List.mem_filter.1 hk).2
    by_cases configured : (s.car h c).configured = true
    · rcases clears with rfl | rfl
      · have car := s.modeChanged_out_car h old configured
        have still := (s.modeLeft_configured h old .out c).trans configured
        refine State.carOk_iff.2 ⟨.of_empty none (by rw [car]) (by rw [car]), fun f => ?_, .of_unbooked none⟩
        rw [s.modeChanged_out_enabled h old configured f]
        refine (and_iff_right ?_).symm
        rw [car]
        exact Car.configured_iff.1 still
      · have car := s.modeChanged_fire_car h old configured
        refine State.carOk_iff.2 ⟨.of_empty none (by rw [car]) (by rw [car]), fun f => ?_, .of_unbooked none⟩
        refine iff_of_false ?_ fun e => e.2.1 ?_
        · rw [car]
          simp [FloorSet.has]
        · rw [mode, State.mode_setMode_self]
    · have is : (s.car h c).service = .absent := not_not.1 fun ne => configured (Car.configured_iff.2 ne)
      have emptied := (fits.absent is).1
      have car := s.modeChanged_absent h old new (Bool.eq_false_iff.2 configured) emptied
      exact State.carOk_iff.2 ⟨fits.of_unbooked car emptied none, formed.of_absent car is, .of_unbooked none⟩
  · rw [s.modeChanged_keeps h old new clears]
    have base : (s.setMode h new).carFits h c := 
      (State.thins.of_car (s := s) (t := s.setMode h new) rfl rfl rfl).fits fits
    by_cases fire : old = .fireRecall
    · have empty : s.carBookings h c = [] :=
        State.carBookings_of_carriesNone (quiet h (.inr (.inl (by rw [had, fire])))).1
      rw [fire, State.modeLeft_fire]
      exact State.leaveFire_carOk base empty formed.absent
    · rw [State.modeLeft, if_neg fire]
      refine State.carOk_iff.2 ⟨base, formed.of_at rfl Iff.rfl fun f => ?_, served.congr rfl rfl⟩
      unfold State.enabledAt
      rw [State.mode_setMode_self, had]
      exact and_congr_left fun _ => iff_of_true (by simpa using fun e => clears (.inr e)) (by simpa using fire)

theorem State.changeMode_carsOk (b : Bank) (new : BankMode) (i : Bool) (ids : s.bookingsOk) (quiet : s.quietOk) (ok : s.carsOk) :
    (s.changeMode b new i).carsOk := by
  cases had : s.mode b with
  | none =>
    rw [State.changeMode, had]
    exact ok
  | some old =>
    have changed := State.modeChanged_carsOk had new ids quiet ok
    rw [State.changeMode_eq had]
    generalize s.modeChanged b old new = u at changed
    exact State.calm.carsOk ⟨rfl, rfl, rfl, rfl⟩ changed

end

/-! ### Floors (R28, R100) -/

section
variable {s : State} (fs : List Floor) (r : FloorRec)

theorem State.shut_thins (once : (s.disp.bookings.map fun k => k.id).Nodup) (b : Bank) (c : CarNo) (fits : s.carFits b c) :
    ((s.setFloors fs r).cancelKind .floorClosed (s.shutKind fs r)).carFits b c := by
  have disp := s.setFloors_disp fs r
  have policy := s.setFloors_policy fs r
  have base : (s.setFloors fs r).carFits b c :=
    fits.congr (s.setFloors_car fs r b c) (State.carBookings_congr (by rw [disp])) (by rw [State.bank, policy, State.bank])
  exact (State.cancelKind_thins .floorClosed _ (by rw [disp]; exact once)).fits base

theorem State.changeFloors_carsOk (ids : s.bookingsOk) (ok : s.carsOk) : (s.changeFloors (fs.map fun f => (f, r))).carsOk := by
  intro b c
  obtain ⟨fits, formed, served⟩ := State.carOk_iff.1 (ok b c)
  have disp := s.setFloors_disp fs r
  have only := s.changeFloors_carsOnly fs r
  have shut := State.shut_thins fs r ids.1 b c fits
  have reseats : (s.setFloors fs r).reseats ((s.setFloors fs r).cancelKind .floorClosed (s.shutKind fs r)) := by
    refine State.cancelKind_reseats _ (by rw [disp]; exact ids.1) fun k gone => ?_
    rw [State.shutKind, Bool.and_eq_true] at gone
    exact of_decide_eq_true gone.1
  have car := s.changeFloors_car fs r b c
  have service := s.changeFloors_service fs r b c
  refine State.carOk_iff.2 ⟨?_, ?_, ?_⟩
  · simp only at car
    generalize (s.setFloors fs r).cancelKind .floorClosed (s.shutKind fs r) = u at only shut car
    split at car
    · have each := u.formEnabled_carsOnly b c
      exact ((u.formEnabled_thins b c).trans (.of_car (car.trans (u.formEnabled_self b c).symm)
        (by rw [only.carBookings, each.carBookings]) (by rw [only.policy, each.policy]))).fits shut
    · exact (State.thins.of_car car (only.carBookings b c) only.policy).fits shut
  · by_cases concerned : s.concerned (fs.map fun f => (f, r)) b = true
    · by_cases is : (s.car b c).service = .absent
      · have same : ((s.changeFloors (fs.map fun f => (f, r))).car b c).enabled = (s.car b c).enabled := by
          rw [car]
          simp only
          rw [if_neg fun e => Car.configured_iff.1 e.2 is]
          exact (s.shut_listOnly fs r b c).enabled
        intro f
        rw [same, service]
        exact iff_of_false (formed.absent is f) fun e => e.1 is
      · intro f
        rw [s.changeFloors_enabled_concerned fs r b c concerned is f, service]
        exact (and_iff_right is).symm
    · rw [Bool.not_eq_true] at concerned
      refine formed.of_at (s.changeFloors_enabled_other fs r b c concerned) (by rw [service]) fun f => ?_
      have riders (k : Booking) (rides : k.state = .riding) :
          k ∈ (s.changeFloors (fs.map fun f => (f, r))).disp.bookings ↔ k ∈ s.disp.bookings := by
        rw [only.bookings, reseats.riders k rides, disp]
      have mode : (s.changeFloors (fs.map fun f => (f, r))).mode b = s.mode b := by
        rw [State.mode, s.changeFloors_modes, State.mode]
      have floor := s.changeFloors_floor fs r f
      have free : ((((s.changeFloors (fs.map fun f => (f, r))).floor f).state = .isOpen ∧
          ((s.changeFloors (fs.map fun f => (f, r))).floor f).kind ≠ .ordinary ∧
          (s.changeFloors (fs.map fun f => (f, r))).serves b f = true) ↔
          ((s.floor f).state = .isOpen ∧ (s.floor f).kind ≠ .ordinary ∧ s.serves b f = true)) := by
        rw [State.serves, State.serves, floor]
        by_cases within : f ∈ fs
        · have neither := List.any_eq_false.1 concerned (f, r) (List.mem_map.2 ⟨f, within, rfl⟩)
          rw [Bool.or_eq_true, not_or] at neither
          rw [if_pos within]
          exact iff_of_false (fun h => neither.2 h.2.2) fun h => neither.1 h.2.2
        · rw [if_neg within]
      unfold State.enabledAt
      rw [mode, free]
      refine and_congr_right fun _ => or_congr_right (exists_congr fun k => ?_)
      exact ⟨fun ⟨held, bank, car, rides, dest⟩ => ⟨(riders k rides).1 held, bank, car, rides, dest⟩,
        fun ⟨held, bank, car, rides, dest⟩ => ⟨(riders k rides).2 held, bank, car, rides, dest⟩⟩
  · have base : (s.setFloors fs r).carServed b c :=
      served.congr (s.setFloors_car fs r b c) (State.carBookings_congr (by rw [disp]))
    have after := reseats.served base
    intro stays
    rw [service] at stays
    rw [only.carBookings]
    refine after ?_
    rw [(s.shut_listOnly fs r b c).service]
    exact stays

end

/-! ### A bank's record (R31) -/

section
variable {s : State} {b : Bank} {c : CarNo}

/-- R31: the cars of a bank without bookings follow its car count. -/
theorem State.recount_carOk (unbooked : ∀ k ∈ s.disp.bookings, k.bank ≠ b) (ok : s.carOk b c) : (s.recount b).carOk b c := by
  have only := s.recount_carsOnly b
  have old : s.carBookings b c = [] := State.carBookings_of_carriesNone unbooked
  have none : (s.recount b).carBookings b c = [] := (only.carBookings b c).trans old
  have car := s.recount_car b c
  have stay (same : s.recounted b c = s.car b c) : (s.recount b).carOk b c :=
    ok.of_unbooked (car.trans same) old none (only.mode b) (by rw [only.policy])
  cases counted : s.counted b c with
  | true =>
    by_cases is : (s.car b c).service = .absent
    · rw [State.recounted_fresh counted is] at car
      have fields : (s.freshCar b).stops = [] ∧ (s.freshCar b).planned = .none ∧ (s.freshCar b).service ≠ .absent := by
        unfold State.freshCar
        simp only
        split <;> exact ⟨rfl, rfl, by simp [Car.recalled]⟩
      obtain ⟨stops, planned, present⟩ := fields
      refine State.carOk_iff.2 ⟨.of_empty none (by rw [car]; exact stops) (by rw [car]; exact planned), fun f => ?_,
        .of_unbooked none⟩
      rw [car, State.enabledAt_congr only.modes only.policy only.bookings]
      show ((s.setCar b c (s.freshCar b)).enabledOf b c).has f = true ↔ _
      rw [State.enabledOf_has, State.car_setCar_self]
      exact Iff.rfl
    · exact stay (State.recounted_of_counted counted is)
  | false =>
    by_cases is : (s.car b c).service = .absent
    · exact stay (by rw [State.recounted_of_uncounted counted, if_pos is])
    · rw [State.recounted_of_uncounted counted, if_neg is] at car
      refine State.carOk_iff.2 ⟨.of_empty none (by rw [car]) (by rw [car]), fun f => ?_, .of_unbooked none⟩
      rw [car]
      exact iff_of_false (by simp [FloorSet.has]) fun e => e.1 rfl

theorem State.recount_carsOk (unbooked : ∀ k ∈ s.disp.bookings, k.bank ≠ b) (ok : s.carsOk) : (s.recount b).carsOk := by
  intro h d
  have only := s.recount_carsOnly b
  by_cases own : h = b
  · subst own
    exact State.recount_carOk unbooked (ok h d)
  · exact (ok h d).congr (State.recount_other _ _ own d) (only.carBookings h d) (only.mode h) (by rw [only.policy])
      (by rw [only.bank])

/-- R16: the cars of a bank without bookings when its record is erased. -/
theorem State.eraseBank_carOk (unbooked : ∀ k ∈ s.disp.bookings, k.bank ≠ b) (ok : s.carOk b c) :
    (s.eraseBank b).carOk b c := by
  have staffs := s.restoreAll_staffs b
  have car := s.restoreAll_car b c
  have old : s.carBookings b c = [] := State.carBookings_of_carriesNone unbooked
  have none : (s.restoreAll b).carBookings b c = [] := (State.carBookings_congr staffs.bookings).trans old
  have mode : (s.restoreAll b).mode b = s.mode b := by rw [State.mode, staffs.modes, State.mode]
  rw [State.eraseBank]
  refine State.recount_carOk (by rw [staffs.bookings]; exact unbooked) ?_
  by_cases withdrawn : (s.car b c).service = .withdrawn
  · rw [State.restored_of_withdrawn withdrawn] at car
    obtain ⟨fits, formed, -⟩ := State.carOk_iff.1 ok
    have ne := s.restoredState_ne_absent b (s.car b c)
    generalize s.restoreAll b = u at staffs car none mode
    refine State.carOk_iff.2 ⟨?_, ?_, .of_unbooked none⟩
    · exact (State.thins.of_fields car id rfl rfl (fun e => absurd e ne)
        (State.carBookings_congr staffs.bookings) staffs.policy).fits fits
    · refine formed.of_at (by rw [car]) (by rw [car, withdrawn]; exact iff_of_false ne (by simp)) ?_
      exact State.enabledAt_of_riders mode (by rw [staffs.policy]) fun k _ _ _ => by rw [staffs.bookings]
  · rw [State.restored_of_ne withdrawn] at car
    exact ok.of_unbooked car old none mode (by rw [staffs.policy])

theorem State.eraseBanks_carsOk (unbooked : ∀ k ∈ s.disp.bookings, False) (ok : s.carsOk) :
    (s.eraseBankList allBanks).carsOk := by
  intro b c
  obtain ⟨u, staffs, cars, result⟩ := State.eraseBankList_at nodup_allBanks s (mem_allBanks b)
  have all := s.eraseBankList_staffs allBanks
  have empty {v : State} (bookings : v.disp.bookings = s.disp.bookings) (b c) : v.carBookings b c = [] := by
    refine State.carBookings_of_carriesNone fun k hk => ?_
    rw [bookings] at hk
    exact (unbooked k hk).elim
  have mode {v : State} (modes : v.disp.modes = s.disp.modes) : v.mode b = s.mode b := by rw [State.mode, modes, State.mode]
  have turn : u.carOk b c := (ok b c).of_unbooked (cars c) (empty rfl b c) (empty staffs.bookings b c) (mode staffs.modes)
    (by rw [staffs.policy])
  have erased : (u.eraseBank b).carOk b c := State.eraseBank_carOk (fun k hk => by
    rw [staffs.bookings] at hk
    exact (unbooked k hk).elim) turn
  have own := staffs.trans (u.eraseBank_staffs b)
  exact erased.of_unbooked (result c) (empty own.bookings b c) (empty all.bookings b c)
    ((mode all.modes).trans (mode own.modes).symm) (by rw [all.policy, own.policy])

end

end Sys2Proof.Machine
end

section
/-! PROOF of O57 (R16, R30, R81 to R85, R98): each event keeps every car in step and the guards of the bank programs. -/

namespace Sys2Proof.Machine

/-! ### Completed programs (R12, R14) -/

section
variable {s : State}

theorem State.carsOk.of_settings {t : State} (ok : s.carsOk) (disp : t.disp = s.disp)
    (floors : t.policy.floors = s.policy.floors) (capacity : ∀ b, (t.bank b).capacity = (s.bank b).capacity) : t.carsOk :=
  fun b c => (ok b c).congr (by rw [State.car, disp, State.car]) (State.carBookings_congr (by rw [disp]))
    (by rw [State.mode, disp, State.mode]) floors (capacity b)

theorem Policy.eraseItems_keeps (q : Policy) (p : Nat) :
    (q.eraseItems p).floors = q.floors ∧ (q.eraseItems p).banks = q.banks := by
  unfold Policy.eraseItems
  exact ⟨rfl, rfl⟩

theorem State.erasedPage_carsOk {p : Nat} (ids : s.bookingsOk) (quiet : p = 2084 → ∀ k ∈ s.disp.bookings, False)
    (ok : s.carsOk) : (s.erasedPage p).carsOk := by
  by_cases out : p < 2048 ∨ 2086 ≤ p
  · rw [s.erasedPage_credential out]
    exact ok
  by_cases items : p < 2076
  · rw [s.erasedPage_items (by omega) items]
    obtain ⟨floors, banks⟩ := s.policy.eraseItems_keeps p
    generalize s.policy.eraseItems p = q at floors banks
    exact ok.of_settings (t := s.setPolicy q) rfl floors fun b => congrArg (fun v : Vector BankRec 4 => (v.get b).capacity) banks
  by_cases floors : p < 2084
  · rw [s.erasedPage_floors (by omega) floors]
    exact State.changeFloors_carsOk _ _ ids ok
  obtain rfl | rfl : p = 2084 ∨ p = 2085 := by omega
  · rw [s.erasedPage_banks]
    refine State.eraseBanks_carsOk (s := s.setPolicy _) (quiet rfl) fun b c => ?_
    have none : s.carBookings b c = [] := State.carBookings_of_carriesNone fun k hk => (quiet rfl k hk).elim
    exact State.carOk.of_unbooked (s := s) rfl none none rfl rfl (ok b c)
  · rw [s.erasedPage_readers]
    obtain ⟨u, hu⟩ : ∃ u, u = s.setPolicy { s.policy with readers := Vector.replicate 16 ReaderRec.erased } := ⟨_, rfl⟩
    have base : u.carsOk := by
      rw [hu]
      exact ok.of_settings rfl rfl fun _ => rfl
    rw [← hu]
    have policy := u.reloadPorts_policy allPorts
    exact base.of_settings (u.reloadPorts_disp allPorts) (by rw [policy]) fun b => by rw [State.bank, policy, State.bank]

theorem State.setBank_capacity (s : State) (b : Bank) (r : BankRec) (same : r.capacity = (s.bank b).capacity) (h : Bank) :
    ((s.setBank b r).bank h).capacity = (s.bank h).capacity := by
  by_cases own : h = b
  · subst own
    exact (congrArg BankRec.capacity (Vector.get_set_self _ _ _)).trans same
  · exact congrArg BankRec.capacity (Vector.get_set_ne _ _ _ _ (Ne.symm own))

theorem State.serviceAfter_present {b : Bank} {car : Car} {w : Bool} {new : Service}
    (after : s.serviceAfter b car w = some new) : car.service ≠ .absent ∧ new ≠ .absent := by
  rcases State.serviceAfter_some_iff.1 after with ⟨-, was, rfl⟩ | ⟨-, was, rfl⟩
  · refine ⟨fun e => ?_, by simp⟩
    rw [e] at was
    simp at was
  · exact ⟨by rw [was]; simp, s.restoredState_ne_absent b car⟩

/-- R14: the completion of a program whose guard holds keeps every car in step. -/
theorem State.jobDone_carsOk (g : Program) (flight : s.store.programmer = some g) (ids : s.bookingsOk) (quiet : s.quietOk)
    (guards : s.programOk) (ok : s.carsOk) : (s.jobDone g).carsOk := by
  have still : ∀ {t : State}, t.disp = s.disp → t.policy.floors = s.policy.floors → t.policy.banks = s.policy.banks → t.carsOk :=
    fun disp floors banks => ok.of_settings disp floors fun b => by rw [State.bank, banks, State.bank]
  obtain ⟨s0, stored⟩ : ∃ s0, s0 = s.setStore (s.store.complete g) := ⟨_, rfl⟩
  have ok0 : s0.carsOk := by rw [stored]; exact still rfl rfl rfl
  have ids0 : s0.bookingsOk := by rw [stored]; exact ids
  obtain ⟨bank, erase⟩ := guards g flight
  cases job : g.job
  case credential | group | profile | tenant | site | reader =>
    exact still (by rw [State.jobDone, State.jobCompleted, job]; rfl) (by rw [State.jobDone, State.jobCompleted, job]; rfl)
      (by rw [State.jobDone, State.jobCompleted, job]; rfl)
  case floor f r =>
    have done : s.jobDone g = s0.changeFloors ([f].map fun f => (f, r)) := by
      rw [State.jobDone, State.jobCompleted, job, stored]
      rfl
    rw [done]
    exact State.changeFloors_carsOk _ _ ids0 ok0
  case bank b r =>
    obtain ⟨unbooked, -⟩ := quiet b (bank b r job)
    rw [State.jobDone_bank job]
    refine State.recount_carsOk unbooked fun h c => ?_
    by_cases own : h = b
    · subst own
      have none : s.carBookings h c = [] := State.carBookings_of_carriesNone unbooked
      exact State.carOk.of_unbooked (s := s) rfl none none rfl rfl (ok h c)
    · refine State.carOk.congr (s := s) rfl rfl rfl rfl ?_ (ok h c)
      exact congrArg BankRec.capacity (Vector.get_set_ne _ _ _ _ (Ne.symm own))
  case bankMode b m =>
    have done : s.jobDone g = (s.modeStored g b m).modeCompleted b m := by
      rw [State.jobDone, State.jobCompleted, job]
      rfl
    have base : (s.modeStored g b m).carsOk :=
      ok.of_settings rfl rfl (State.setBank_capacity s b { s.bank b with storedMode := m } rfl)
    have ids1 : (s.modeStored g b m).bookingsOk := ids
    have quiet1 : (s.modeStored g b m).quietOk := quiet
    rw [done, State.modeCompleted]
    generalize s.modeStored g b m = u at base ids1 quiet1
    split
    · exact base
    · split
      · exact base
      · exact State.changeMode_carsOk b m false ids1 quiet1 base
  case carService b c w =>
    rw [State.jobDone_carService job]
    split
    · exact still rfl rfl rfl
    · have base : (s.withdrawnStored g b c w).carsOk :=
        ok.of_settings rfl rfl
          (State.setBank_capacity s b { s.bank b with withdrawn := putCar (s.bank b).withdrawn c w } rfl)
      have once : ((s.withdrawnStored g b c w).disp.bookings.map fun k => k.id).Nodup := ids.1
      generalize s.withdrawnStored g b c w = u at base once
      cases after : u.serviceAfter b (u.car b c) w with
      | none =>
        rw [State.withdrawCar_none after]
        exact base
      | some new =>
        rw [State.withdrawCar_some after]
        obtain ⟨was, is⟩ := State.serviceAfter_present after
        exact State.serviceSet_carsOk once was is base
  case erase =>
    rw [State.jobDone_erase job, ← stored]
    refine State.erasedPage_carsOk ids0 (fun page k hk => ?_) ok0
    rw [stored] at hk
    exact (quiet k.bank (erase job page k.bank)).1 k hk rfl

end

/-! ### Every event -/

section
variable {s u : State}

theorem State.tableEvent.carsOk (event : s.tableEvent u) (ids : s.bookingsOk) (quiet : s.quietOk) (guards : s.programOk)
    (ok : s.carsOk) : u.carsOk := by
  cases event with
  | completion g flight => exact State.jobDone_carsOk g flight ids quiet guards ok
  | recalled b _ =>
    obtain ⟨v, hv⟩ : ∃ v, v = (s.setRcl b true).post .urgent (.recallInput b true) := ⟨_, rfl⟩
    have base : v.carsOk := State.calm.carsOk (by rw [hv]; exact ⟨rfl, rfl, rfl, rfl⟩) ok
    have disp : v.disp = s.disp := by rw [hv] <;> rfl
    have idsV : v.bookingsOk := by
      rw [State.bookingsOk, disp]
      exact ids
    have quietV : v.quietOk := by
      rw [State.quietOk, disp]
      intro b
      rw [State.quiet, State.mode, disp]
      exact quiet b
    rw [← hv, State.forceRecall]
    split
    · exact base
    · exact State.changeMode_carsOk b .fireRecall true idsV quietV base
  | decision pres home banks => exact State.decide_carsOk ids ok pres home banks
  | answer l c kind st => exact State.takeStatus_carsOk ids.1 ok
  | contact b c timed =>
    have was : (s.car b c).service ≠ .absent := fun e => by
      rw [e] at timed
      cases timed
    exact State.serviceSet_carsOk ids.1 was (by simp) ok
  | abandon =>
    obtain ⟨fits, formed, served⟩ := State.carsOk_iff.1 ok
    have waits (k : Booking) (gone : s.abandoned k = true) : k.state = .waiting := by
      unfold State.abandoned at gone
      simp only [Bool.and_eq_true, decide_eq_true_eq] at gone
      exact gone.1
    have reseats : s.reseats (s.cancelKind .abandoned s.abandoned) := State.cancelKind_reseats _ ids.1 waits
    have thins (b c) : s.thins (s.cancelKind .abandoned s.abandoned) b c := State.cancelKind_thins _ _ ids.1
    exact State.carsOk_iff.2 ⟨fun b c => (thins b c).fits (fits b c), fun b c => reseats.formed (formed b c),
      fun b c => reseats.served (served b c)⟩

/-- R83: the close of an event changes generations alone. -/
theorem State.closesAs.carsOk {t : State} (closes : s.closesAs u t) (ok : u.carsOk) : t.carsOk := by
  intro b c
  obtain ⟨fits, formed, served⟩ := State.carOk_iff.1 (ok b c)
  have car := closes.car b c
  rw [Car.closeGeneration_fields] at car
  have service : (t.car b c).service = (u.car b c).service := by rw [car]
  have bookings : t.carBookings b c = u.carBookings b c := State.carBookings_congr closes.bookings
  refine State.carOk_iff.2 ⟨?_, ?_, fun out => ?_⟩
  · exact (State.thins.of_fields car id rfl rfl id bookings closes.policy).fits fits
  · refine formed.of_at (by rw [car]) (by rw [service]) (State.enabledAt_of_riders ?_ (by rw [closes.policy]) ?_)
    · rw [State.mode, closes.modes, State.mode]
    · exact fun k _ _ _ => by rw [closes.bookings]
  · rw [bookings]
    exact served (service ▸ out)

theorem State.decide_modes (s : State) (pres : Presentation) (home : Floor) (banks : BankSet) :
    (s.decide pres home banks).disp.modes = s.disp.modes := by
  rcases s.decide_cases pres home banks with calm | ⟨r, p, k, u, d, id, c, used, -, calm, -, e⟩
  · exact calm.modes
  · have cancelled (v : State) (o : Option Booking) : (v.cancelSuperseded o).disp.modes = v.disp.modes := by
      cases o with
      | none => rfl
      | some k => exact v.cancel_modes .superseded k
    have granted : (u.granted pres r home d id c used).disp.modes = s.disp.modes := State.granted_modes.trans calm.modes
    rw [e]
    exact (cancelled (u.granted pres r home d id c used) _).trans granted

/-- R16, R30: no event but the completion of another program gives a quiet bank back. -/
theorem State.tableEvent.quiet (event : s.tableEvent u) :
    (∃ g, s.store.programmer = some g ∧ (∀ b r, g.job ≠ .bank b r) ∧ g.job ≠ .erase) ∨ ∀ b, s.quiet b → u.quiet b := by
  have stays (modes : u.disp.modes = s.disp.modes) (b) (quiet : s.quiet b) : u.quiet b := by
    rw [State.quiet, State.mode, modes]
    exact quiet
  cases event with
  | completion g flight =>
    cases job : g.job
    case bank b r =>
      refine .inr (stays ?_)
      rw [State.jobDone_bank job, (State.recount_carsOnly _ b).modes]
      rfl
    case erase =>
      refine .inr (stays ?_)
      rw [State.jobDone_erase job, State.erasedPage_modes]
      rfl
    all_goals exact .inl ⟨g, flight, fun b r e => (nomatch job.symm.trans e), fun e => (nomatch job.symm.trans e)⟩
  | recalled b _ =>
    obtain ⟨v, hv⟩ : ∃ v, v = (s.setRcl b true).post .urgent (.recallInput b true) := ⟨_, rfl⟩
    have mode (h) : v.mode h = s.mode h := by rw [hv] <;> rfl
    refine .inr fun h quiet => ?_
    rw [State.quiet, ← mode, ← State.quiet] at quiet
    rw [← hv, State.forceRecall]
    split
    · exact quiet
    · cases had : v.mode b with
      | none =>
        rw [State.changeMode, had]
        exact quiet
      | some old =>
        have modes := (State.changeMode_event (new := .fireRecall) (i := true) had).modes
        rw [State.quiet, State.mode, modes, ← State.mode]
        by_cases own : b = h
        · rw [own, State.mode_setMode_self]
          exact .inr (.inl rfl)
        · rw [State.mode_setMode_ne _ _ _ _ own]
          exact quiet
  | decision pres home banks =>
    exact .inr (stays (s.decide_modes pres home banks))
  | answer l c kind st => exact .inr (stays (State.takeStatus_event _ _ _ _ _).modes)
  | contact b c timed => exact .inr (stays (State.loseContact_event _ _ _).modes)
  | abandon => exact .inr (stays (State.cancelAll_modes _ _ _))

end

/-! ### The guards of the bank programs (R16, R30) -/

section
variable {s t : State}

theorem State.programOk_of_idle (idle : s.store.programmer = none) : s.programOk := fun g e => by
  rw [idle] at e
  cases e

theorem State.programOk.of_quiet (h : s.programOk) (programmer : t.store.programmer = s.store.programmer)
    (quiet : ∀ b, s.quiet b → t.quiet b) : t.programOk := fun g flight => by
  obtain ⟨bank, erase⟩ := h g (programmer ▸ flight)
  exact ⟨fun b r job => quiet b (bank b r job), fun job page b => quiet b (erase job page b)⟩

theorem State.quiet_of_modes (modes : t.disp.modes = s.disp.modes) (b : Bank) (quiet : s.quiet b) : t.quiet b := by
  rw [State.quiet, State.mode, modes]
  exact quiet

/-- R164: what a frame begins stands on its guard. -/
theorem State.hostFrame_programOk (h : s.programOk) (tag : Byte) (r : Request) : (s.hostFrame tag r).programOk := by
  have sound := s.hostHunt.judge_sound r
  have disp : (s.hostFrame tag r).disp = s.disp :=
    (s.hostFrame_blocks tag r).mono (Request.blocks_subset r) .disp (by decide)
  have quiet := State.quiet_of_modes (s := s) (t := s.hostFrame tag r) (by rw [disp])
  have out (b) (is : s.hostHunt.isOut b = true) : (s.hostFrame tag r).quiet b := quiet b (.inl (State.isOut_iff.1 is))
  rcases s.hostFrame_store tag r with same | ⟨p, slots, job, judged, begun⟩ | ⟨p, judged, begun⟩
  · exact h.of_quiet (by rw [same]) quiet
  · rw [judged] at sound
    obtain ⟨-, notErase, guard⟩ := sound
    intro g flight
    rw [begun] at flight
    cases flight
    exact ⟨fun b r e => out b (guard b r e), fun e => absurd e notErase⟩
  · rw [judged] at sound
    intro g flight
    rw [begun] at flight
    cases flight
    exact ⟨fun b r e => (nomatch e), fun _ page b => out b (sound page b)⟩

theorem State.hostBytes_programOk (h : s.programOk) (bs : List Byte) : (bs.foldl State.hostByte s).programOk := by
  induction bs generalizing s with
  | nil => exact h
  | cons b bs ih =>
    refine ih ?_
    unfold State.hostByte
    split
    · exact h
    · split
      · exact h
      · exact State.hostFrame_programOk h _ _

theorem State.steps.programOk (steps : s.steps t) (store : t.store = s.store) (h : s.programOk) : t.programOk := by
  rcases steps with calm | ⟨s', u, only, event, closes⟩
  · exact h.of_quiet (by rw [store]) (State.quiet_of_modes calm.modes)
  · have stored : s'.store = s.store := only .store (by decide)
    rcases event.quiet with ⟨g, flight, notBank, notErase⟩ | quiet
    · intro g' flight'
      rw [store, ← stored, flight] at flight'
      cases flight'
      exact ⟨fun b r e => absurd e (notBank b r), fun e => absurd e notErase⟩
    · refine h.of_quiet (by rw [store]) fun b was => State.quiet_of_modes closes.modes b (quiet b ?_)
      exact State.quiet_of_modes (by rw [only .disp (by decide)]) b was

/-- Every command keeps the guards of the bank programs in flight. -/
theorem exec_programOk {i : Instr} (start : s.startingOk) (h : s.programOk) (run : exec i s = .next t) : t.programOk := by
  by_cases hb : .store ∈ blocksOf i
  swap
  · have store : t.store = s.store := exec_changesOnly run .store hb
    by_cases scan : i = .startUpScanEnd
    · subst scan
      rcases next_ite_cases run with ⟨starting, -⟩ | ⟨-, rfl⟩
      · exact State.programOk_of_idle (store ▸ (start.2 starting.1).1)
      · exact h
    · refine (exec_steps ?_ ?_ scan ?_ run).programOk store h
      · rintro rfl
        exact hb (by simp only [blocksOf]; decide)
      · rintro rfl
        exact hb (by simp only [blocksOf]; decide)
      · rintro rfl
        exact absurd (by simp only [blocksOf]; decide) hb
  cases hr : requestOf i with
  | some x =>
    cases (exec_of_requestOf hr s).symm.trans run
    exact State.hostFrame_programOk h _ _
  | none =>
    cases i <;> simp only [requestOf, reduceCtorEq] at hr <;>
      first | (exact absurd hb (by simp only [blocksOf]; decide)) | skip
    case resetPin =>
      cases run
      exact State.programOk_of_idle rfl
    case resetPinRelease =>
      rcases next_ite_cases run with ⟨_, rfl⟩ | ⟨_, rfl⟩
      · exact State.programOk_of_idle rfl
      · exact h
    case hostPartialFrameTimeout bs =>
      cases run
      exact State.hostBytes_programOk h bs
    case verifyMatch =>
      cases hp : s.store.programmer with
      | none => exact execVerifyMatch_none hp run ▸ h
      | some g => exact State.programOk_of_idle (by rw [exec_verifyMatch_store hp run] <;> rfl)
    case verifyMismatch =>
      cases hp : s.store.programmer with
      | none => exact execVerifyMismatch_none hp run ▸ h
      | some g => exact State.programOk_of_idle (by rw [exec_verifyMismatch_store hp run] <;> rfl)
    case replySent =>
      change execReplySent s = _ at run
      unfold execReplySent at run
      split at run
      · split at run <;> cases run
        · unfold State.replyDone
          split
          · exact State.programOk_of_idle rfl
          · exact h
        all_goals exact h
      · cases run
        exact h

end

/-! ### Resets and the scan (R17, R21, R168) -/

section
variable {s t : State}

/-- An ABSENT, unbooked car that stays. -/
theorem State.carOk.of_absent {b : Bank} {c : CarNo} (ok : s.carOk b c) (car : t.car b c = s.car b c)
    (is : (s.car b c).service = .absent) (old : s.carBookings b c = []) (unbooked : t.carBookings b c = []) : t.carOk b c := by
  obtain ⟨fits, formed, -⟩ := State.carOk_iff.1 ok
  exact State.carOk_iff.2 ⟨fits.of_unbooked car old unbooked, formed.of_absent car is, .of_unbooked unbooked⟩

theorem State.carsOk_of_reset (disp : t.disp = DispatchBlock.reset) : t.carsOk := by
  intro b c
  have car : t.car b c = Car.reset := by
    rw [State.car, disp]
    exact get_replicate _ _
  have unbooked : t.carBookings b c = [] := by rw [State.carBookings, disp] <;> rfl
  refine State.carOk_iff.2 ⟨.of_empty unbooked (by rw [car] <;> rfl) (by rw [car] <;> rfl), fun f => ?_, .of_unbooked unbooked⟩
  rw [car]
  exact iff_of_false (by simp [Car.reset, FloorSet.has]) fun e => e.1 rfl

/-- R80, R84, R149: the cars as the end of the scan leaves them. -/
theorem State.begun_carsOk (s : State) : s.begun.carsOk := by
  intro b c
  obtain ⟨x, hx⟩ : ∃ x, x = s.begun.car b c := ⟨_, rfl⟩
  obtain ⟨stops, -, -, -, -, -, planned, -, uncounted, fire, other⟩ := s.begun_car_cases b c x hx
  have bookings : s.begun.disp.bookings = [] := rfl
  have unbooked : s.begun.carBookings b c = [] := by rw [State.carBookings, bookings] <;> rfl
  have policy : s.begun.policy = s.policy := rfl
  have mode := s.begun_mode b
  refine State.carOk_iff.2 ⟨.of_empty unbooked (hx ▸ stops) (hx ▸ planned), fun f => ?_, .of_unbooked unbooked⟩
  rw [← hx]
  rcases Nat.lt_or_ge c.val (s.bank b).carCount with on | off
  · by_cases inFire : s.startMode b = .fireRecall
    · obtain ⟨-, enabled, -⟩ := fire on inFire
      rw [enabled]
      exact iff_of_false (by simp [FloorSet.has]) fun e => e.2.1 (by rw [mode, inFire])
    · obtain ⟨service, -, enabled⟩ := other on inFire
      rw [enabled f, service, State.enabledAt_unbooked (by rw [mode]; simpa using inFire) (by rw [bookings]; simp)]
      exact (and_iff_right (by simp)).symm
  · obtain ⟨service, enabled, -⟩ := uncounted off
    rw [enabled, service]
    exact iff_of_false (by simp [FloorSet.has]) fun e => e.1 rfl

theorem exec_carsOk {i : Instr} (start : s.startingOk) (ids : s.bookingsOk) (quiet : s.quietOk) (guards : s.programOk)
    (ok : s.carsOk) (run : exec i s = .next t) : t.carsOk := by
  by_cases pin : i = .resetPin
  · subst pin
    cases run
    exact State.carsOk_of_reset rfl
  by_cases release : i = .resetPinRelease
  · subst release
    have disp : t.disp = s.disp := exec_changesOnly run .disp (by simp only [blocksOf]; decide)
    rcases next_ite_cases run with ⟨held, -⟩ | ⟨-, rfl⟩
    · obtain ⟨-, -, -, -, none, -, -, absent, -⟩ := start.2 (start.1 held).1
      have unbooked {u : State} (same : u.disp = s.disp) (b c) : u.carBookings b c = [] := by
        rw [State.carBookings, same, none] <;> rfl
      exact fun b c => (ok b c).of_absent (by rw [State.car, disp, State.car]) (absent b c) (unbooked rfl b c) (unbooked disp b c)
    · exact ok
  by_cases scan : i = .startUpScanEnd
  · subst scan
    rcases next_ite_cases run with ⟨starting, rfl⟩ | ⟨-, rfl⟩
    · have begun := s.begun_carsOk
      exact (State.calm.of_only (execStartUpScanEnd_only s) (by decide) (by decide)).carsOk begun
    · exact ok
  by_cases restart : i = .replySent ∧ t = s.restartReset
  · obtain ⟨-, rfl⟩ := restart
    exact State.carsOk_of_reset rfl
  rcases exec_steps pin release scan (fun e is => restart ⟨e, is⟩) run with calm | ⟨s', u, only, event, closes⟩
  · exact calm.carsOk ok
  · have disp : s'.disp = s.disp := only .disp (by decide)
    have store : s'.store = s.store := only .store (by decide)
    have same := State.calm.of_only only (by decide) (by decide)
    have ids' : s'.bookingsOk := by
      rw [State.bookingsOk, disp]
      exact ids
    have back (b) (was : s'.quiet b) : s.quiet b := State.quiet_of_modes (by rw [disp]) b was
    have quiet' : s'.quietOk := fun b was => by
      rw [disp]
      exact quiet b (back b was)
    have guards' : s'.programOk := guards.of_quiet (by rw [store]) (State.quiet_of_modes (by rw [disp]))
    have done := event.carsOk ids' quiet' guards' (same.carsOk ok)
    exact closes.carsOk done

end

/-- Settles O57: by the events of each command, and by what resets and the scan leave. -/
theorem stepKeepsCarsInStep : Obligations.StepKeepsCarsInStep := by
  intro s t start ids quiet guards ok run
  have whole : (t.startingOk ∧ t.bookingsOk ∧ t.quietOk) ∧ t.programOk ∧ t.carsOk := by
    refine step_keeps (P := fun s => (s.startingOk ∧ s.bookingsOk ∧ s.quietOk) ∧ s.programOk ∧ s.carsOk)
      (fun _ _ h => h) (fun s h => ?_) (fun i s t h run => ?_) ⟨⟨start, ids, quiet⟩, guards, ok⟩ run
    · obtain ⟨⟨start, ids, quiet⟩, guards, ok⟩ := h
      have calm : s.calm s.tick := .of_only s.tick_only (by decide) (by decide)
      have keeps : s.tablesKeep s.tick := .of_blocks s.tick_only (by decide)
      have store : s.tick.store = s.store := s.tick_only .store (by decide)
      exact ⟨⟨State.tick_startingOk start, keeps.bookings ids, keeps.quiet quiet⟩,
        guards.of_quiet (by rw [store]) (State.quiet_of_modes calm.modes), calm.carsOk ok⟩
    · obtain ⟨⟨start, ids, quiet⟩, guards, ok⟩ := h
      have keeps := exec_tablesKeep run
      exact ⟨⟨exec_startingOk start run, keeps.bookings ids, keeps.quiet quiet⟩, exec_programOk start guards run,
        exec_carsOk start ids quiet guards ok run⟩
  exact whole.2

end Sys2Proof.Machine
end
